-- ==== Sys2Proof/Word.lean ====
section
/-! DEFINITION. The word types of the controller and the fixed-size table. -/

namespace Sys2Proof

/-- A 32-bit word: registers, brine words, instructions (R336, R437). -/
abbrev Word := BitVec 32

/-- A byte of memory or of a frame. -/
abbrev Byte := BitVec 8

/-- A fixed number of like things: the threads, the timers, the slots of a ring. -/
abbrev Tab (α : Type) (n : Nat) := Vector α n

end Sys2Proof
end

