-- ==== Sys2Proof/Syntax.lean ====
section
/-! DEFINITION. The commands the block takes: one constructor of `Instr` for each row of spec/opcode_table.json, with the
row's operands. An operand is either what the commanding party writes (an address, a value, a register code) or what the
environment brings (a received frame, a measured interval, the end an attempt comes to). -/

namespace Sys2Proof

/-- The two line ports (R43). -/
inductive LinePort where
  | plc | pair
  deriving DecidableEq, Repr

/-- The two host serial ports (R621). -/
inductive HostPort where
  | a | b
  deriving DecidableEq, Repr

/-- A party: one host port or one engine thread, by its global number (R659). -/
inductive Party where
  | host (p : HostPort)
  | thread (t : Fin 8)
  deriving DecidableEq, Repr

/-- The way a register is reached: the system block, or a pan's window (R684, R736). -/
inductive Via where
  | sys
  | win (n : Fin 4)
  deriving DecidableEq, Repr

/-- A frame as it stands on a line (Tables 3-1 and 9-2). -/
structure Frame where
  /-- identifier: ID[15:0] native, 11 or 29 bits in ISO mode -/
  id : BitVec 29
  /-- ISO extended identifier -/
  xtd : Bool
  /-- ISO remote frame -/
  rmt : Bool
  /-- an ISO-mode frame -/
  iso : Bool
  /-- BRS recessive -/
  brs : Bool
  /-- ISO error state indicator -/
  esi : Bool
  /-- sequence count; on an ISO frame bit 0 is FDF (R817) -/
  seq : BitVec 4
  /-- ROLL flag -/
  roll : Bool
  /-- STAMP flag -/
  stamp : Bool
  /-- MORE flag -/
  more : Bool
  /-- number of data bytes, 0-64 -/
  len : Nat
  /-- data bytes, byte 0 first -/
  data : List Byte
  deriving DecidableEq, Repr

/-- An instant of tide time: seconds and ticks (R175). -/
structure Instant where
  sec : Word
  tick : BitVec 28
  deriving DecidableEq, Repr

/-- What a port samples during the error signalling that follows an error of its own (R145). -/
structure Signalling where
  /-- flags of its own in which it sampled a bit recessive, each flag once -/
  flags : Nat
  /-- runs of 8 consecutive dominant bits after its own flag -/
  runs : Nat
  /-- dominant bits in its own error delimiter; each restarts the flag -/
  delim : Nat
  deriving DecidableEq, Repr

/-- How a transmission attempt of this controller ends (R134, R141, R157, R159). -/
inductive TxEnd where
  /-- valid at the sixth EOF bit; `ack`: the ACK slot was dominant. `act`: what the port saw in a roll window, in nanoseconds from W,
  oldest first: on the PLC port the peak of a chip (its time and 0), on the pair port a dominant stretch (its begin and length).
  `onsets`: the timestamps t3 of the echo onsets seen (R60), oldest first. `after`: a dominant IFS bit 1 or 2, and what followed (R107) -/
  | valid (ack : Bool) (act : List (Nat × Nat)) (onsets : List Instant) (after : Option Signalling)
  /-- a recessive ID bit was sampled dominant -/
  | lost
  /-- a bit, stuff or form error before the validity point; `ack`: after the ACK slot, which was dominant -/
  | error (ack : Bool) (sg : Signalling)
  /-- a recessive ACK slot; `heard`: a dominant bit was sampled in the 8 bits after the ACK delimiter (R141), in ISO mode during the
  error flag (R820) -/
  | ackError (heard : Bool)
  /-- the frame was cut because VDRV was lost (R85) -/
  | cut
  deriving DecidableEq, Repr

/-- The receiver-side errors of Tables 3-14 and 4-1, in the order of their detection points; `eof` one of EOF bits 1 to 6. -/
inductive RxErr where
  | stuff | formVer | formLen | formFlags | crc | crcDelim | ackBit | ackDelim | eof
  deriving DecidableEq, Repr

/-- How a reception ends: valid at the sixth EOF bit (`after`: a dominant IFS bit 1 or 2, and what followed, R107), or in an error. -/
inductive RxEnd where
  | valid (after : Option Signalling)
  | error (e : RxErr) (sg : Signalling)
  deriving DecidableEq, Repr

/-- The elapsed time of LISTEN or SLEEP as the always-on clock measures it (R438, R591). -/
structure Interval where
  /-- core cycles, rounded to a whole cycle -/
  cycles : Nat
  /-- cycles of the 32.768 kHz clock -/
  lf : Nat
  deriving DecidableEq, Repr

/-- The registers whose pending shadow an application concerns (Table 19-1). -/
inductive Shadow where
  | plcCtl | rollPlc | rollPair | pairBt | pairDbt | policy | chan | rate | period
  | timer (n : Fin 8)
  | budget (n : Fin 4)
  deriving DecidableEq, Repr

/-- What is common to the transactions of a host port, as the port finds it. -/
structure Xfer where
  port : HostPort
  /-- the C bit of the command byte -/
  crc : Bool
  /-- CS_N fell while the port's earlier writes were being applied (R633) -/
  busy : Bool
  /-- the byte count meets R636 -/
  countOk : Bool
  /-- the host's CRC is right (R635) -/
  crcOk : Bool
  /-- a read-type or DBG transaction came as far as its effect point: the end of the address phase, of the operand (R627) -/
  reached : Bool
  deriving DecidableEq, Repr

/-- The words of a READ_BURST or FETCH that one command brings (R637, R639). -/
structure ReadPart where
  /-- words returned whole, closed at 64 -/
  words : Nat
  /-- CS_N then stays low, and the port's next command of this row goes on with the transaction -/
  more : Bool
  deriving DecidableEq, Repr

/-- The pending shadows, by host address, whose stored parity a scrubber pass concerns (R671, R675). -/
structure ParityUpsets where
  /-- found wrong by the pass -/
  found : List Nat
  /-- a bit flips after the pass -/
  later : List Nat
  deriving DecidableEq, Repr

/-- The halves a timer register pair is read through (R577). -/
inductive TimPair where
  | cnt | reload | mtch
  deriving DecidableEq, Repr

/-- A transmit item that a command names by its global slot: an item of a queue, or the frame of a fired TX schedule entry. -/
inductive ItemRef where
  | queue (p : Fin 4) (q : Fin 4) (slot : Nat)
  | fired (slot : Nat)
  deriving DecidableEq, Repr

/-- A register code of the engine: g0-g15, or s0-s15 (Table 13-1). -/
inductive Reg where
  | g (n : Fin 16)
  | s (n : Fin 16)
  deriving DecidableEq, Repr

/-- The commands, in the order of spec/opcode_table.json. `t` is the issuing thread by its global number, `p` the party that
makes an access, `via` the way it reaches the register. -/
inductive Instr where
  -- resets, supply, pins, clocks, power states (chapters 23, 25)
  | powerOnReset
  /-- RESET_N held low for `ns` nanoseconds -/
  | resetNAssert (ns : Nat)
  | supplyReset
  /-- `bad`: the OTP words that fail their check at ROM initialisation -/
  | hpiReady (bad : BitVec 16)
  | supplyWarning
  | supplyWarningEnd
  | vdrvLoss
  | vdrvRestored
  | vioLoss
  | safeInAssert
  | wakePinEdge (rising : Bool)
  | tpPinEdge (n : Fin 8) (rising : Bool)
  | pllLockLoss
  | pllRelock (iv : Interval)
  | lfCrystalChange (running : Bool)
  | rcCalibration (ppm : Int)
  | watchdogExpiry
  /-- `cfg`: the host addresses of the registers whose stored parity is found wrong -/
  | scrubberPass (cfg : List Nat) (shadows : ParityUpsets)
  | reqListen (p : Party)
  | reqSleep (p : Party)
  | powerStateEntry
  | wakeUp (cause : BitVec 7) (iv : Interval)
  | tapReset
  | tapTestInstruction (on : Bool)
  | otprd
  | otpwr (words : Tab Word 16)
  -- lines and tide (chapters 1 to 6, 24)
  | linePortEnable (p : Party) (port : LinePort)
  | portIdleSync (port : LinePort)
  | sofOpportunity (port : LinePort)
  | transmitAttempt (port : LinePort) (e : TxEnd)
  /-- `margin`: the margin the receiver measures over the frame, signed, in 0.5 dB (R53) -/
  | receiveFrame (port : LinePort) (f : Frame) (sof : Instant) (margin : Byte) (e : RxEnd)
  | tideFrameRx (port : LinePort) (f : Frame) (arrival : Instant)
  | soundRequestRx (port : LinePort) (f : Frame) (sof : Instant)
  | soundResultRx (port : LinePort) (f : Frame)
  | delayApply
  | clockMove
  | tideSecond
  | tideBoundary
  | missingPeriod
  | holdoverTimeout
  | acquireTimeout
  | holdmaxExpiry
  | keeperListenEnd
  | slewProgress
  | searchDwellEnd
  /-- the noise in the carrier bands of plans C1 and C2, C3 and C4, C5 and C6, averaged over 1 s, in 0.5 dB -/
  | noiseAverage (c12 c34 c56 : Int × Int)
  /-- `now`: the always-on clock in microseconds (R153) -/
  | countCommit (port : LinePort) (now : Nat)
  | quarantineSequence (port : LinePort)
  | passiveSuspensionEnd (port : LinePort)
  | deadlineExpiry (item : ItemRef)
  | sluiceDetected (port : LinePort)
  | sluiceBurstEnd (port : LinePort)
  | releaseUnblocked (safeIn plc pair : Bool)
  | keepaliveExpiry
  | sluFire (p : Party) (via : Via) (v : Word)
  | sluPermitGo (p : Party) (via : Via) (v : Word)
  -- pans, registers, calendar (chapters 8, 17, 19, 20, 22)
  | millisecondTick
  | sealedWindowBoundary
  | shadowApply (x : Shadow)
  | panlock (p : Party)
  | scrubDone
  | sysPanrst (p : Party) (v : Word)
  | panCtlReset (p : Party) (n : Fin 4) (v : Word)
  | panResetScrubDone (n : Fin 4)
  | sysSwrst (p : Party) (v : Word)
  | lineRejoin (p : Party) (v : Word)
  | keyWrite (p : Party) (via : Via) (v : Word)
  | aliasWrite (p : Party) (addr : BitVec 24) (v : Word)
  | registerWrite (p : Party) (addr : BitVec 24) (v : Word)
  | tideOffsStep (p : Party) (via : Via) (v : Word)
  | tideKeeperWrite (p : Party) (via : Via) (v : Word)
  | tideTickRead (p : Party) (via : Via)
  | calDateWrite (p : Party) (via : Via) (v : Word)
  | calTimeWrite (p : Party) (via : Via) (v : Word)
  | calTimeRead (p : Party) (via : Via)
  -- the schedule (chapter 7): `k` is an entry of the window `n`, `e` an entry by its global number
  | scheduleArm (p : Party) (n : Fin 4) (k : Fin 32) (v : Word)
  | scheduleDisarm (p : Party) (n : Fin 4) (k : Fin 32) (v : Word)
  | scheduleCommit (e : Fin 32)
  | schTxAction (e : Fin 32)
  | schPinAction (e : Fin 32)
  | pulseEnd (pin : Fin 9)
  | schCaptureAction (e : Fin 32)
  | schThreadAction (e : Fin 32)
  | schIrqAction (e : Fin 32)
  | schChannelAction (e : Fin 32)
  | channelChange
  -- queues, FIFOs, slots, filters (chapters 9, 10): `n` is the window, `q` a queue or FIFO of it
  | tqSubmitWord (p : Party) (n : Fin 4) (q : Fin 4) (v : Word)
  | tqSdataWord (p : Party) (n : Fin 4) (q : Fin 4) (v : Word)
  | tqCommit (p : Party) (n : Fin 4) (q : Fin 4)
  | tqCplCollect (p : Party) (n : Fin 4) (q : Fin 4) (words : Nat)
  | tqFlush (p : Party) (n : Fin 4) (q : Fin 4)
  | tqCtlWrite (p : Party) (n : Fin 4) (q : Fin 4) (v : Word)
  | rxfCtlWrite (p : Party) (n : Fin 4) (q : Fin 4) (v : Word)
  | rxfFetchRead (p : Party) (n : Fin 4) (q : Fin 4) (words : Nat)
  | slotW2Write (p : Party) (slot : Fin 1344) (v : Word)
  | mailboxSeenWrite (p : Party) (slot : Fin 1344) (v : Word)
  | filterCtlWrite (p : Party) (n : Fin 4) (k : Fin 128) (v : Word)
  | filterApply (f : Fin 128)
  -- interrupt controller (chapter 15): `w` is the word of 32 sources, `h` the host target
  | icPendSet (p : Party) (via : Via) (w : Fin 4) (v : Word)
  | icPendClr (p : Party) (via : Via) (w : Fin 4) (v : Word)
  | icEnSet (p : Party) (via : Via) (w : Fin 4) (v : Word)
  | icEnClr (p : Party) (via : Via) (w : Fin 4) (v : Word)
  | icClaim (p : Party) (via : Via) (h : HostPort)
  | icDone (p : Party) (via : Via) (h : HostPort) (v : Word)
  | icDoorbell (p : Party) (via : Via) (v : Word)
  | icUnwind (p : Party) (via : Via) (v : Word)
  | holdoffEnd (hg : Fin 8) (tgt : Fin 10)
  -- timers (chapter 16): `n` is the timer, pan-local through a window
  | timCtlWrite (p : Party) (via : Via) (n : Fin 8) (v : Word)
  | timCntWrite (p : Party) (via : Via) (n : Fin 8) (v : Word)
  | timLoRead (p : Party) (via : Via) (n : Fin 8) (x : TimPair)
  | timCapnow (p : Party) (via : Via) (n : Fin 8) (v : Word)
  | timCapqRead (p : Party) (via : Via) (n : Fin 8)
  | timerWrap (n : Fin 8)
  | timerMatch (n : Fin 8)
  -- engine (chapter 12)
  | engGo (p : Party) (v : Word)
  | authenticationDone
  | engKick (p : Party) (v : Word)
  | threadStart (p : Party) (via : Via) (n : Fin 8) (v : Word)
  | threadHaltWrite (p : Party) (via : Via) (n : Fin 8) (v : Word)
  | wakeCompareReached (t : Fin 8)
  | breakpointHit (t : Fin 8)
  -- Tirerex (chapters 13, 14)
  | add (t : Fin 8) (rd ra rb : Reg)
  | sub (t : Fin 8) (rd ra rb : Reg)
  | and (t : Fin 8) (rd ra rb : Reg)
  | or (t : Fin 8) (rd ra rb : Reg)
  | xor (t : Fin 8) (rd ra rb : Reg)
  | andn (t : Fin 8) (rd ra rb : Reg)
  | shl (t : Fin 8) (rd ra rb : Reg)
  | shr (t : Fin 8) (rd ra rb : Reg)
  | sar (t : Fin 8) (rd ra rb : Reg)
  | mul (t : Fin 8) (rd ra rb : Reg)
  | mulhu (t : Fin 8) (rd ra rb : Reg)
  | mulhs (t : Fin 8) (rd ra rb : Reg)
  | cmp (t : Fin 8) (rd ra rb : Reg)
  | cmpu (t : Fin 8) (rd ra rb : Reg)
  | min (t : Fin 8) (rd ra rb : Reg)
  | max (t : Fin 8) (rd ra rb : Reg)
  | minu (t : Fin 8) (rd ra rb : Reg)
  | maxu (t : Fin 8) (rd ra rb : Reg)
  | clz (t : Fin 8) (rd ra : Reg)
  | popc (t : Fin 8) (rd ra : Reg)
  | bswap (t : Fin 8) (rd ra : Reg)
  | addImm (t : Fin 8) (rd ra : Reg) (imm : BitVec 16)
  | andImm (t : Fin 8) (rd ra : Reg) (imm : BitVec 16)
  | orImm (t : Fin 8) (rd ra : Reg) (imm : BitVec 16)
  | xorImm (t : Fin 8) (rd ra : Reg) (imm : BitVec 16)
  | shlImm (t : Fin 8) (rd ra : Reg) (n : BitVec 5)
  | shrImm (t : Fin 8) (rd ra : Reg) (n : BitVec 5)
  | sarImm (t : Fin 8) (rd ra : Reg) (n : BitVec 5)
  | mulImm (t : Fin 8) (rd ra : Reg) (imm : BitVec 16)
  | cmpImm (t : Fin 8) (rd ra : Reg) (imm : BitVec 16)
  | cmpuImm (t : Fin 8) (rd ra : Reg) (imm : BitVec 16)
  | lui (t : Fin 8) (rd : Reg) (imm : BitVec 16)
  | bext (t : Fin 8) (rd ra : Reg) (pos wid : BitVec 5)
  | bexts (t : Fin 8) (rd ra : Reg) (pos wid : BitVec 5)
  | bins (t : Fin 8) (rd ra : Reg) (pos wid : BitVec 5)
  | ldw (t : Fin 8) (rt base : Fin 16) (off : BitVec 16)
  | ldh (t : Fin 8) (rt base : Fin 16) (off : BitVec 16)
  | ldhs (t : Fin 8) (rt base : Fin 16) (off : BitVec 16)
  | ldb (t : Fin 8) (rt base : Fin 16) (off : BitVec 16)
  | ldbs (t : Fin 8) (rt base : Fin 16) (off : BitVec 16)
  | stw (t : Fin 8) (rt base : Fin 16) (off : BitVec 16)
  | sth (t : Fin 8) (rt base : Fin 16) (off : BitVec 16)
  | stb (t : Fin 8) (rt base : Fin 16) (off : BitVec 16)
  | beq (t : Fin 8) (ra rb : Reg) (off : BitVec 16)
  | bne (t : Fin 8) (ra rb : Reg) (off : BitVec 16)
  | blt (t : Fin 8) (ra rb : Reg) (off : BitVec 16)
  | bge (t : Fin 8) (ra rb : Reg) (off : BitVec 16)
  | bltu (t : Fin 8) (ra rb : Reg) (off : BitVec 16)
  | bgeu (t : Fin 8) (ra rb : Reg) (off : BitVec 16)
  | call (t : Fin 8) (off : BitVec 16)
  | jr (t : Fin 8) (ra : Fin 16)
  | jalr (t : Fin 8) (rd ra : Fin 16)
  | csrr (t : Fin 8) (rd : Fin 16) (n : BitVec 12)
  | csrw (t : Fin 8) (n : BitVec 12) (ra : Fin 16)
  | fork (t : Fin 8) (rd ra rc : Fin 16)
  | join (t : Fin 8) (rd ra : Fin 16)
  | halt (t : Fin 8) (code : Byte)
  | wait (t : Fin 8) (rd : Fin 16)
  | yield (t : Fin 8)
  | lkAcq (t : Fin 8) (rd : Fin 16) (n : Fin 32)
  | lkTry (t : Fin 8) (rd : Fin 16) (n : Fin 32)
  | lkRel (t : Fin 8) (rd : Fin 16) (n : Fin 32)
  | fput (t : Fin 8) (rd ra : Fin 16) (q : Fin 4)
  | fgetTq (t : Fin 8) (rd ra : Fin 16) (q : Fin 4)
  | fgetRxf (t : Fin 8) (rd ra : Fin 16) (q : Fin 4)
  | fgetMbx (t : Fin 8) (rd ra : Fin 16) (slot : BitVec 11)
  | fpeekTq (t : Fin 8) (rd ra : Fin 16) (q : Fin 4)
  | fpeekRxf (t : Fin 8) (rd ra : Fin 16) (q : Fin 4)
  | fpeekMbx (t : Fin 8) (rd ra : Fin 16) (slot : BitVec 11)
  | fstatTq (t : Fin 8) (rd : Fin 16) (q : Fin 4)
  | fstatRxf (t : Fin 8) (rd : Fin 16) (q : Fin 4)
  | fstatSch (t : Fin 8) (rd : Fin 16) (n : Fin 32)
  | flush (t : Fin 8) (rd : Fin 16) (q : Fin 4)
  | treadTick (t : Fin 8) (rd : Fin 16)
  | treadSec (t : Fin 8) (rd : Fin 16)
  | treadStatus (t : Fin 8) (rd : Fin 16)
  | sset (t : Fin 8) (rd ra : Fin 16) (n : Fin 32)
  | sclr (t : Fin 8) (rd : Fin 16) (n : Fin 32)
  | fltw (t : Fin 8) (ra : Fin 16) (n : Fin 128)
  | ring (t : Fin 8) (ra : Fin 16) (n : BitVec 7)
  | irqDone (t : Fin 8) (rd ra : Fin 16)
  | crc24 (t : Fin 8) (rd ra : Fin 16) (n : BitVec 6)
  | sluice (t : Fin 8)
  -- host transactions (chapter 18)
  | hostRead (x : Xfer) (addr : BitVec 24)
  | hostWrite (x : Xfer) (addr : BitVec 24) (v : Word)
  /-- `part`: the words whose read point was reached -/
  | hostReadBurst (x : Xfer) (addr : BitVec 24) (part : ReadPart)
  | hostWriteBurst (x : Xfer) (addr : BitVec 24) (vs : List Word)
  | hostSubmit (x : Xfer) (addr : BitVec 24) (vs : List Word)
  | hostCommit (x : Xfer) (addr : BitVec 24)
  /-- `ack`: with C = 1, the byte 0xA5 follows the word of the removal point (R639) -/
  | hostFetch (x : Xfer) (addr : BitVec 24) (part : ReadPart) (ack : Bool)
  | hostDoorbell (x : Xfer) (v : Word)
  | hostStatus (x : Xfer)
  | transactionStall (port : HostPort)
  | dbgHalt (x : Xfer) (target : Byte)
  | dbgResume (x : Xfer) (target : Byte)
  | dbgStep (x : Xfer) (target : Byte)
  | dbgReadReg (x : Xfer) (target index : Byte)
  | dbgWriteReg (x : Xfer) (target index : Byte) (v : Word)
  | dbgSetBreakpoint (x : Xfer) (target index : Byte) (v : Word)
  | dbgClearBreakpoint (x : Xfer) (target index : Byte)
  | vioRestored
  | illegalWordIssue (t : Fin 8)
  /-- `op`: the command byte -/
  | badcmdTransaction (port : HostPort) (op : Byte)
  deriving DecidableEq, Repr

end Sys2Proof
end

