-- ==== Sys2Proof/Decode.lean ====
section
/-! DEFINITION. Decoding. The opcode table gives the commands of this block no bits: they are register accesses, transactions,
instructions of the engine and events, not words of one encoding, so no table word spells one. The words that the engine's threads fetch
do have an encoding (chapters 13 and 14): `decodeEngine` reads it. -/

namespace Sys2Proof

/-- The command that a word of the opcode table spells: no row has bits, so none. -/
def decodeTableWord (_nbits _w : Nat) : Option Instr := none

/-! ### The fields of an instruction word (Table 13-1) -/

/-- The number in bits [lo + len - 1 : lo]. -/
def wordBits (w : Word) (lo len : Nat) : Nat := (w.toNat >>> lo) % 2 ^ len

/-- A register field of formats A, I and B: 0-15 name g0-g15, 16-31 s0-s15 (R479). -/
def regField (w : Word) (lo : Nat) : Reg :=
  let k := wordBits w lo 5
  if k < 16 then .g (Fin.ofNat 16 k) else .s (Fin.ofNat 16 k)

/-- A register field that accepts g0-g15 only, where `gOnly` holds (R479, R507). -/
def gField (w : Word) (lo : Nat) : Fin 16 := Fin.ofNat 16 (wordBits w lo 5)
def gOnly (w : Word) (lo : Nat) : Bool := wordBits w lo 5 < 16

/-- imm16 or off16. -/
def imm16 (w : Word) : BitVec 16 := BitVec.ofNat 16 (wordBits w 0 16)

/-- An instruction whose fields are right; none where they are not: the word is illegal (R478). -/
def legal (ok : Bool) (i : Instr) : Option Instr := if ok then some i else none

/-- Opcode 0x01 (Table 13-3); clz, popc and bswap require rb = 0 (R483). -/
def decodeAlu (t : Fin 8) (w : Word) : Option Instr :=
  let rd := regField w 21
  let ra := regField w 16
  let rb := regField w 11
  let unary := wordBits w 11 5 == 0
  match wordBits w 0 11 with
  | 0 => some (.add t rd ra rb)
  | 1 => some (.sub t rd ra rb)
  | 2 => some (.and t rd ra rb)
  | 3 => some (.or t rd ra rb)
  | 4 => some (.xor t rd ra rb)
  | 5 => some (.andn t rd ra rb)
  | 6 => some (.shl t rd ra rb)
  | 7 => some (.shr t rd ra rb)
  | 8 => some (.sar t rd ra rb)
  | 9 => some (.mul t rd ra rb)
  | 10 => some (.mulhu t rd ra rb)
  | 11 => some (.mulhs t rd ra rb)
  | 12 => some (.cmp t rd ra rb)
  | 13 => some (.cmpu t rd ra rb)
  | 14 => some (.min t rd ra rb)
  | 15 => some (.max t rd ra rb)
  | 16 => some (.minu t rd ra rb)
  | 17 => some (.maxu t rd ra rb)
  | 18 => legal unary (.clz t rd ra)
  | 19 => legal unary (.popc t rd ra)
  | 20 => legal unary (.bswap t rd ra)
  | _ => none

/-- Opcode 0x06: imm[4:0] the amount, imm[6:5] the kind, imm[15:7] zero (R484). -/
def decodeShift (t : Fin 8) (w : Word) : Option Instr :=
  let rd := regField w 21
  let ra := regField w 16
  let n := BitVec.ofNat 5 (wordBits w 0 5)
  match wordBits w 5 11 with
  | 0 => some (.shlImm t rd ra n)
  | 1 => some (.shrImm t rd ra n)
  | 2 => some (.sarImm t rd ra n)
  | _ => none

/-- Opcodes 0x02-0x0D, format I (Table 13-4, R485); that P + W exceeds 32 is found at the issue. -/
def decodeImm (t : Fin 8) (w : Word) : Option Instr :=
  let rd := regField w 21
  let ra := regField w 16
  let i := imm16 w
  let pos := BitVec.ofNat 5 (wordBits w 0 5)
  let wid := BitVec.ofNat 5 (wordBits w 5 5)
  let bits := wordBits w 10 6 == 0
  match wordBits w 26 6 with
  | 0x02 => some (.addImm t rd ra i)
  | 0x03 => some (.andImm t rd ra i)
  | 0x04 => some (.orImm t rd ra i)
  | 0x05 => some (.xorImm t rd ra i)
  | 0x06 => decodeShift t w
  | 0x07 => some (.mulImm t rd ra i)
  | 0x08 => some (.cmpImm t rd ra i)
  | 0x09 => some (.cmpuImm t rd ra i)
  | 0x0A => legal (wordBits w 16 5 == 0) (.lui t rd i)
  | 0x0B => legal bits (.bext t rd ra pos wid)
  | 0x0C => legal bits (.bexts t rd ra pos wid)
  | 0x0D => legal bits (.bins t rd ra pos wid)
  | _ => none

/-- Opcodes 0x10-0x17, format M (Table 13-6). -/
def decodeMem (t : Fin 8) (w : Word) : Option Instr :=
  let rt := gField w 21
  let base := gField w 16
  let off := imm16 w
  let ok := gOnly w 21 && gOnly w 16
  match wordBits w 26 6 with
  | 0x10 => legal ok (.ldw t rt base off)
  | 0x11 => legal ok (.ldh t rt base off)
  | 0x12 => legal ok (.ldhs t rt base off)
  | 0x13 => legal ok (.ldb t rt base off)
  | 0x14 => legal ok (.ldbs t rt base off)
  | 0x15 => legal ok (.stw t rt base off)
  | 0x16 => legal ok (.sth t rt base off)
  | 0x17 => legal ok (.stb t rt base off)
  | _ => none

/-- Opcode 0x1F: jr with rd and rb zero, jalr with rb zero (R497). -/
def decodeJump (t : Fin 8) (w : Word) : Option Instr :=
  match wordBits w 0 11 with
  | 0 => legal (gOnly w 16 && wordBits w 21 5 == 0 && wordBits w 11 5 == 0) (.jr t (gField w 16))
  | 1 => legal (gOnly w 21 && gOnly w 16 && wordBits w 11 5 == 0) (.jalr t (gField w 21) (gField w 16))
  | _ => none

/-- Opcodes 0x18-0x1F, format B and the jumps (Table 13-7). -/
def decodeBranch (t : Fin 8) (w : Word) : Option Instr :=
  let ra := regField w 21
  let rb := regField w 16
  let off := imm16 w
  match wordBits w 26 6 with
  | 0x18 => some (.beq t ra rb off)
  | 0x19 => some (.bne t ra rb off)
  | 0x1A => some (.blt t ra rb off)
  | 0x1B => some (.bge t ra rb off)
  | 0x1C => some (.bltu t ra rb off)
  | 0x1D => some (.bgeu t ra rb off)
  | 0x1E => legal (wordBits w 16 10 == 0) (.call t off)
  | 0x1F => decodeJump t w
  | _ => none

/-- fget and fpeek by sub: tq, rxf or mbx (Table 14-2). -/
def decodeGet (t : Fin 8) (w : Word) (peek : Bool) : Option Instr :=
  let rd := gField w 21
  let ra := gField w 16
  let q := Fin.ofNat 4 (wordBits w 0 2)
  let s := BitVec.ofNat 11 (wordBits w 0 11)
  let ring := wordBits w 2 10 == 0
  match wordBits w 12 4 with
  | 0 => legal ring (if peek then .fpeekTq t rd ra q else .fgetTq t rd ra q)
  | 1 => legal ring (if peek then .fpeekRxf t rd ra q else .fgetRxf t rd ra q)
  | 2 => legal (wordBits w 11 1 == 0) (if peek then .fpeekMbx t rd ra s else .fgetMbx t rd ra s)
  | _ => none

/-- fstat by sub: tq, rxf or sch. -/
def decodeStat (t : Fin 8) (w : Word) : Option Instr :=
  let rd := gField w 21
  let ring := wordBits w 2 10 == 0
  match wordBits w 12 4 with
  | 0 => legal ring (.fstatTq t rd (Fin.ofNat 4 (wordBits w 0 2)))
  | 1 => legal ring (.fstatRxf t rd (Fin.ofNat 4 (wordBits w 0 2)))
  | 2 => legal (wordBits w 5 7 == 0) (.fstatSch t rd (Fin.ofNat 32 (wordBits w 0 5)))
  | _ => none

/-- tread by k. -/
def decodeTread (t : Fin 8) (w : Word) : Option Instr :=
  let rd := gField w 21
  match wordBits w 0 12 with
  | 0 => some (.treadTick t rd)
  | 1 => some (.treadSec t rd)
  | 2 => some (.treadStatus t rd)
  | _ => none

/-- Opcodes 0x20-0x3C, format X (Table 14-2, R498): registers g0-g15, and every field that the row does not use zero (R507). -/
def decodeX (t : Fin 8) (w : Word) : Option Instr :=
  let rd := gField w 21
  let ra := gField w 16
  let noRd := wordBits w 21 5 == 0
  let noRa := wordBits w 16 5 == 0
  let sub0 := wordBits w 12 4 == 0
  let small := fun (k : Nat) => sub0 && wordBits w k (12 - k) == 0
  let lk := Fin.ofNat 32 (wordBits w 0 5)
  let q := Fin.ofNat 4 (wordBits w 0 2)
  if !(gOnly w 21 && gOnly w 16) then none
  else
    match wordBits w 26 6 with
    | 0x20 => legal (noRa && sub0) (.csrr t rd (BitVec.ofNat 12 (wordBits w 0 12)))
    | 0x21 => legal (noRd && sub0) (.csrw t (BitVec.ofNat 12 (wordBits w 0 12)) ra)
    | 0x28 => legal (small 4) (.fork t rd ra (Fin.ofNat 16 (wordBits w 0 4)))
    | 0x29 => legal (small 0) (.join t rd ra)
    | 0x2A => legal (noRd && noRa && small 8) (.halt t (BitVec.ofNat 8 (wordBits w 0 8)))
    | 0x2B => legal (noRa && small 0) (.wait t rd)
    | 0x2C => legal (noRd && noRa && small 0) (.yield t)
    | 0x2D => legal (noRa && small 5) (.lkAcq t rd lk)
    | 0x2E => legal (noRa && small 5) (.lkTry t rd lk)
    | 0x2F => legal (noRa && small 5) (.lkRel t rd lk)
    | 0x30 => legal (small 2) (.fput t rd ra q)
    | 0x31 => decodeGet t w false
    | 0x32 => decodeGet t w true
    | 0x33 => if noRa then decodeStat t w else none
    | 0x34 => legal (noRa && small 2) (.flush t rd q)
    | 0x35 => if noRa && sub0 then decodeTread t w else none
    | 0x36 => legal (small 5) (.sset t rd ra lk)
    | 0x37 => legal (noRa && small 5) (.sclr t rd lk)
    | 0x38 => legal (noRd && small 7) (.fltw t ra (Fin.ofNat 128 (wordBits w 0 7)))
    | 0x39 => legal (noRd && small 7) (.ring t ra (BitVec.ofNat 7 (wordBits w 0 7)))
    | 0x3A => legal (small 0) (.irqDone t rd ra)
    | 0x3B => legal (small 6) (.crc24 t rd ra (BitVec.ofNat 6 (wordBits w 0 6)))
    | 0x3C => legal (noRd && noRa && small 0) (.sluice t)
    | _ => none

/-- The instruction of thread `t` that a word of instruction RAM or ROM spells; none where the word is illegal (R477-R479, R482,
R507, Tables 13-2 and 14-2). -/
def decodeEngine (t : Fin 8) (w : Word) : Option Instr :=
  let op := wordBits w 26 6
  if op = 0 then none
  else if op = 1 then decodeAlu t w
  else if op < 0x10 then decodeImm t w
  else if op < 0x18 then decodeMem t w
  else if op < 0x20 then decodeBranch t w
  else decodeX t w

end Sys2Proof
end

