-- ==== Sys2Proof/Config.lean ====
section
/-! DEFINITION. What an implementation fixes and what the spec leaves open: constants with no body. -/

namespace Sys2Proof.Config

/-- The word at index `i` of the ROM (R463): the spec gives no image content (UNVERIFIED, log 8: free). -/
opaque rom : Nat → Word

/-- The n-th value the spec leaves open (DESIGN CHOICE, log 7): nothing constrains it. -/
opaque freeWord : Nat → Word

/-- The n-th choice the spec leaves open between two outcomes (DESIGN CHOICE, log 7). -/
opaque freeBit : Nat → Bool

end Sys2Proof.Config
end

