-- ==== Sys2Proof/Machine/State.lean ====
section
/-! DEFINITION. The state of the controller as plain data, the reasons a step can stop, and the state after reset. Each
field's docstring gives its width, the chapter and rules of the spec that name it, and its reset value. -/

namespace Sys2Proof.Machine

/-- Why a step stops. Nothing the hardware does ends in one: every command the spec gives an effect has a next state. -/
inductive Fault where
  /-- raised by no command: an operand that describes nothing that can reach the hardware is read as what it would be there -/
  | illFormed
  deriving DecidableEq, Repr

/-- Why a command has no meaning. -/
inductive Refusal where
  /-- raised by the dispatch arm of a command that has no meaning yet: safe, the machine stops where the hardware goes on -/
  | notModelled (mnemonic : String)
  deriving DecidableEq, Repr

/-- SYS_STAT.LIFE, in the order of Table 1-2 (R16). -/
inductive Life where
  | dormant | listening | joining | synced | live | quarantined | safe
  deriving DecidableEq, Repr

/-! ### System registers (chapters 19, 20) -/

/-- The shadows that can be pending (Table 19-1): `w` the word of a timer (0 CTL, 1 RELOAD, 2 MATCH) or of a filter entry. -/
inductive ShKey where
  | plcCtl | roll | chan | policy | pairBt | pairDbt | rate | period
  | budget (n : Fin 4)
  | timer (n : Fin 8) (w : Fin 3)
  | flt (k : Fin 128) (w : Fin 4)
  deriving DecidableEq, Repr

/-- SYS_STAT, SYS_LOCK, SYS_FAULT and SYS_RSTCAUSE of Tables 20-2 and 20-3. -/
structure Sys where
  /-- SYS_CTL.PARSAFE[0], PARRST[1] (32 bits); 20 R686; reset 0 -/
  ctl : Word
  /-- SYS_STAT.LIFE (7 states); 01 R16-R18, 20 R686; reset Dormant (0) -/
  life : Life
  /-- SYS_STAT.LIFEPREV (7 states); 01 R20; reset 0 -/
  lifePrev : Life
  /-- SYS_STAT.SCRUB (1 bit); 08 R296; reset 0 -/
  scrub : Bool
  /-- SYS_STAT.ALLOCERR (3 bits); 08 R295; reset 0 -/
  allocErr : BitVec 3
  /-- SYS_LOCK.PANLOCK (1 bit); 08 R295, 19 R657; reset 0 -/
  panLock : Bool
  /-- SYS_LOCK.DBGLOCK (1 bit); 12 R468, 19 R657; reset 0 -/
  dbgLock : Bool
  /-- SYS_FAULT.CFGPAR (1 bit); 19 R672; reset 0 -/
  cfgPar : Bool
  /-- SYS_FAULT.KEYFAIL (1 bit); 19 R660; reset 0 -/
  keyFail : Bool
  /-- SYS_FAULT.PSHAD (1 bit); 19 R672, R683; reset 0 at power-on and supply reset, else kept -/
  pshad : Bool
  /-- SYS_FAULT.PLLERR (1 bit); 23 R788; reset 0 -/
  pllErr : Bool
  /-- SYS_FAULT.LFERR (1 bit); 20 R690; reset 0 -/
  lfErr : Bool
  /-- SYS_FAULT.OTPERR (1 bit); 23 R794; reset 0, set when the OTP read fails -/
  otpErr : Bool
  /-- SYS_FAULT.PLOC (19 bits, host address); 19 R672, R683; reset 0 at power-on and supply reset, else kept -/
  ploc : BitVec 19
  /-- SYS_RSTCAUSE (6 bits POR PIN SUP SW PAR WDOG); 20 R688; reset: the causes active at the reset -/
  rstCause : BitVec 6
  /-- An owner software reset requested and not yet begun (1 bit); 20 R687; reset 0 -/
  swPend : Bool
  /-- The armed keys: for each of the five scopes (system, P0-P3) one bit per party (A, B, T0-T7); 19 R658, R659; reset 0 -/
  keys : Tab (BitVec 10) 5
  /-- Configuration registers whose stored parity bit was found wrong and has not been recomputed since (host address, and the
  value that stood when it was found); 19 R669-R673; reset none -/
  parBad : List (Nat × Word)
  /-- Pending shadows whose stored parity bit is wrong and has not been found so yet, with the register's host address; 19 R669, R675;
  reset none -/
  shBad : List (ShKey × Nat)
  /-- A shadow with bad parity was discarded at its application, and R672 is still to act: its register's host address; 19 R675; reset
  none -/
  parHit : Option Nat
  deriving DecidableEq, Repr

/-! ### Supply, clocks, power states, reset (chapter 23) -/

/-- The power states of Table 23-3; `reset` covers the reset itself and the start-up sequence. -/
inductive PowerState where
  | reset | run | listen | sleep
  deriving DecidableEq, Repr

/-- Supply monitor, clocks, power states. -/
structure Power where
  /-- The power state (RUN, LISTEN, SLEEP, RESET); 23 R775; reset RESET -/
  state : PowerState
  /-- HPI_READY reached, RDY of the status byte (1 bit); 23 R792, 18 R651; reset 0 -/
  ready : Bool
  /-- A pending LISTEN (true, false) or SLEEP request (0 none, 1, 2); 23 R776; reset none -/
  req : Option PowerState
  /-- SUP_CTL.LASTGASP (32-bit register); 20 R689; reset 0 -/
  supCtl : Word
  /-- SUP_THLD.WARN, RST (32-bit register); 20 R689; reset 0x607 -/
  supThld : Word
  /-- SUP_STAT.BELOW (1 bit); 23 R771; reset sampled: 0 at power-on (DESIGN CHOICE, log 4) -/
  below : Bool
  /-- SUP_STAT.LGNONE (1 bit); 11 R416; reset 0 -/
  lgNone : Bool
  /-- SUP_STAT.CFGERR (1 bit); 20 R709; reset 0 -/
  supCfgErr : Bool
  /-- SUP_STAT.VDRVOK, VDRV within its range (1 bit); 02 R51; reset sampled: 1 (DESIGN CHOICE, log 4) -/
  vdrvOk : Bool
  /-- VIO present (1 bit); 23 R770; reset sampled: 1 (DESIGN CHOICE, log 4) -/
  vioOk : Bool
  /-- CLK_CTL.LFSEL, RCCAL (32-bit register); 20 R689; reset 2 -/
  clkCtl : Word
  /-- CLK_STAT.PLLLOCK (1 bit); 20 R689; reset sampled: 0 (DESIGN CHOICE, log 4) -/
  pllLock : Bool
  /-- CLK_STAT.LFXOK (1 bit); 20 R690; reset sampled: 0 (DESIGN CHOICE, log 4) -/
  lfxOk : Bool
  /-- CLK_STAT.LFACT (1 bit); 20 R690; reset 0 -/
  lfAct : Bool
  /-- The always-on clock, in units of 5 ns (R153, R161, R236); 23 R786; reset 0 at power-on and supply reset, else it runs on
  (DESIGN CHOICE, log 60) -/
  aon : Nat
  /-- The correction measured for the internal RC, in ppm (signed); 23 R787; reset 0 (DESIGN CHOICE, log 4) -/
  rcCorr : Int
  /-- SLP_STAT.WCAUSE (7 bits); 23 R779; reset 0 -/
  wcause : BitVec 7
  /-- SLP_STAT.LAST (2 bits); 23 R778; reset 0 -/
  last : BitVec 2
  /-- SLP_WAKE.EDGE (32-bit register); 20 R689; reset 2 -/
  slpWake : Word
  /-- A warning (some true) or the end of one (some false) recorded in LISTEN or SLEEP; 23 R772; reset none -/
  latWarn : Option Bool
  /-- The TAP test instruction EXTEST, CLAMP or HIGHZ holds the controller in reset (1 bit); 25 R862; reset 0 -/
  tapHold : Bool
  deriving DecidableEq, Repr

/-! ### Sluice, permit and RUN (chapter 6) -/

/-- The shutdown path. -/
structure Sluice where
  /-- SLU_CTL (32 bits: PINTX, PAIREN, PAIRISO, DETPLC); 20 R692; reset 0x800 -/
  ctl : Word
  /-- SLU_LEN (32 bits: PLC, PAIR); 20 R692; reset 0x003000C8 -/
  len : Word
  /-- SLU_KEEP (32 bits: KEEP); 20 R692; reset 0x64 -/
  keep : Word
  /-- SLU_STAT.SAFE (1 bit); 06 R228, R254; reset 0 at power-on and supply reset, else kept -/
  safe : Bool
  /-- SLU_STAT.CAUSE PIN, CMD, PLC, PAIR, PARITY (5 bits); 06 R228, 20 R693; reset as SAFE -/
  cause : BitVec 5
  /-- SLU_STAT.RELVAL (1 bit); 06 R228; reset as SAFE -/
  relVal : Bool
  /-- SLU_STAT.RELLAT (8 bits); 06 R228; reset as SAFE -/
  relLat : Byte
  /-- SLU_STAT.TIDEOK (1 bit); 06 R231; reset as SAFE -/
  tideOk : Bool
  /-- SLU_STAT.LOCALOK (1 bit); 06 R231; reset as SAFE -/
  localOk : Bool
  /-- SLU_STAT.KEEP, the keep-alive is fresh (1 bit); 06 R236; reset 0 -/
  fresh : Bool
  /-- The release count of the last tide frame that refreshed the keep-alive (8 bits, or none); 06 R228; reset none -/
  lastRel : Option Byte
  /-- SLU_STAT.RUN, the level driven on RUN (1 bit); 06 R238; reset 0 -/
  run : Bool
  /-- SLU_STAT.TXNONE (1 bit); 06 R223; reset 0 -/
  txNone : Bool
  /-- SLU_STAT.PAIRBAD (1 bit); 06 R235; reset 0 -/
  pairBad : Bool
  /-- SLU_STAT.CFGERR (1 bit); 20 R709; reset 0 -/
  cfgErr : Bool
  /-- SLU_STAT.WAIVE (2 bits); 06 R233; reset from the OTP at ROM initialisation -/
  waive : BitVec 2
  /-- The own burst is running on the PLC port, on the pair port (2 bits); 06 R225; reset 0 -/
  burst : BitVec 2
  /-- A detector declares a burst: PLC, pair (2 bits); 06 R226, R232; reset 0 -/
  det : BitVec 2
  /-- A burst requested by SAFE_IN in LISTEN goes out after the wake (1 bit); 06 R239 Table 6-6; reset 0 -/
  burstPend : Bool
  /-- The SAFE_IN pin is asserted (1 bit); 06 R222, R232; reset deasserted (DESIGN CHOICE, log 4) -/
  safeIn : Bool
  deriving DecidableEq, Repr

/-! ### Interrupt controller (chapter 15) -/

/-- One entry of a host target's stack: the source and its level at the claim. -/
structure StackEntry where
  /-- the source claimed -/
  src : BitVec 7
  /-- its priority at the claim -/
  level : BitVec 4
  deriving DecidableEq, Repr

/-- Sources, host targets, engine targets, hold-off groups, wake latches. -/
structure Irq where
  /-- Pending bit of each source (128 bits); 15 R542; reset 0 -/
  pend : BitVec 128
  /-- Enable bit of each source (128 bits); 15 R544; reset 0 -/
  en : BitVec 128
  /-- The enable bits of the last 8 core cycles, newest first (8 x 128 bits); 15 R550; reset 0 -/
  enHist : Tab (BitVec 128) 8
  /-- OVF of each source (128 bits); 15 R542; reset 0 -/
  ovf : BitVec 128
  /-- Count of each source (128 x 4 bits); 15 R542; reset 0 -/
  cnt : Tab (BitVec 4) 128
  /-- IC_PRIO of each source (128 x 4 bits); 15 R551; reset 0 -/
  prio : Tab (BitVec 4) 128
  /-- IC_TGT.MASK of each source (128 x 10 bits); 15 R545; reset 0 -/
  mask : Tab (BitVec 10) 128
  /-- IC_TGT.HG of each source (128 x 3 bits); 15 R545; reset 0 -/
  hg : Tab (BitVec 3) 128
  /-- IC_TGT.HGEN of each source (128 bits); 15 R545; reset 0 -/
  hgen : BitVec 128
  /-- IC_THLD_HA, IC_THLD_HB (2 x 4 bits); 15 R551; reset 0 -/
  thld : Tab (BitVec 4) 2
  /-- The stacks of HA and HB, top first (up to 15 entries each); 15 R553; reset empty -/
  stack : Tab (List StackEntry) 2
  /-- IC_STAT.ORDA, ORDB (2 x 1 bit); 15 R554; reset 0 -/
  ord : Tab Bool 2
  /-- The source in service at each engine target E0-E7 (7 bits or none); 15 R557; reset none -/
  eng : Tab (Option (BitVec 7)) 8
  /-- Per target HA, HB, E0-E7: a deliverable source was claimed elsewhere since its last claim (10 bits); 15 R548; reset 0 -/
  lost : BitVec 10
  /-- Per target, the sources deliverable in a core cycle since its last claim (10 x 128 bits); 15 R548; reset 0 -/
  seen : Tab (BitVec 128) 10
  /-- IC_HOLDn.SPACE (8 x 16 bits); 15 R558; reset 0 -/
  space : Tab (BitVec 16) 8
  /-- Targets that hold-off group n holds (8 x 10 bits); 15 R558; reset 0 -/
  held : Tab (BitVec 10) 8
  /-- The wake latches: WAKE, SAFE_IN, TP0-TP7 (10 bits); 15 R562; reset 0 -/
  latch : BitVec 10
  /-- IC_STAT.WEXTRA (10 bits); 15 R562; reset 0 -/
  wextra : BitVec 10
  /-- Arrivals that wait for the core clock, oldest first (source numbers); 23 R788, R802, R805, 06 R222; reset none -/
  deferred : List Nat
  /-- IC_SEL of port A and port B in each window (2 x 4 x 32 bits); 22 R747; reset 0 -/
  selHost : Tab (Tab Word 4) 2
  /-- IC_SEL of each thread in its own window (8 x 32 bits); 22 R747; reset 0 -/
  selThr : Tab Word 8
  deriving DecidableEq, Repr

/-! ### Frames, queues, FIFOs (chapters 3, 9) -/

/-- An item being filled at TQn_SUBMIT and TQn_SDATA (R348). -/
structure OpenItem where
  /-- the FREE slot taken (global number), or none when the item is marked refused -/
  slot : Option Nat
  /-- the header word -/
  hdr : Word
  /-- the words of TQn_SDATA so far -/
  words : List Word
  /-- an ISO item (R816) -/
  iso : Bool
  deriving DecidableEq, Repr

/-- The state of a committed transmit item (Table 9-4). -/
inductive ItemState where
  | queued | onWire
  deriving DecidableEq, Repr

/-- A committed item: its slot (global number) and state, in commit order. -/
structure TxItem where
  slot : Nat
  st : ItemState
  /-- flushed while on the wire: any end but a valid one completes FLUSHED (R354) -/
  flushed : Bool
  /-- the SOF instant and the ACK slot (dominant) of the last attempt, if one was made (R351) -/
  last : Option (Instant × Bool)
  deriving DecidableEq, Repr

/-- One transmit queue (R342-R354, Table 22-8). -/
structure TxQueue where
  /-- TQn_CTL word 0 (EN, KIND, PORT, LGASP, REPORT, RLIM, PROD, SRC; 32 bits); 22 R752; reset 0x300 -/
  ctl : Word
  /-- TQn_CTL word 1 (BASE, DEPTH; 32 bits); 22 R752; reset 0 -/
  ring : Word
  /-- the open item, FILLING or marked refused; 09 R348; reset none -/
  opened : Option OpenItem
  /-- an item was open when the pan was reset (1 bit); 09 R349; reset 0 -/
  preReset : Bool
  /-- QUEUED and ON_WIRE items in commit order; 09 R345; reset none -/
  items : List TxItem
  /-- DONE items (slots) in completion order; 09 R352; reset none -/
  done : List Nat
  /-- TQn_STAT.LAST (5 bits); 09 R353; reset 0 -/
  last : BitVec 5
  /-- TQn_STAT.CFGERR (1 bit); 09 R343; reset 0 -/
  cfgErr : Bool
  /-- TQn_STAT.TRUNC (8 bits); 09 R353; reset 0 -/
  trunc : Byte
  /-- TQn_CNT (RFULL, BADLEN, EXPIRED, FAILED; 4 x 8 bits); 09 R353; reset 0 -/
  cnt : Word
  deriving DecidableEq, Repr

/-- One receive FIFO (R355-R358). -/
structure RxFifo where
  /-- RXFn_CTL word 0 (EN, FULL, CONS, WM, SRC; 32 bits); 22 R752; reset 0x100 -/
  ctl : Word
  /-- RXFn_CTL word 1 (BASE, DEPTH; 32 bits); 22 R752; reset 0 -/
  ring : Word
  /-- the slots that hold frames, oldest first; 09 R356; reset none -/
  frames : List Nat
  /-- RXFn_STAT.OVF (1 bit); 09 R357; reset 0 -/
  ovf : Bool
  /-- RXFn_STAT.OVFCNT (8 bits); 09 R357; reset 0 -/
  ovfCnt : Byte
  /-- RXFn_STAT.PART (8 bits); 09 R358; reset 0 -/
  part : Byte
  /-- RXFn_STAT.CFGERR (1 bit); 09 R355; reset 0 -/
  cfgErr : Bool
  deriving DecidableEq, Repr

/-! ### Line ports (chapters 1 to 4, 20) -/

/-- The confinement states of Table 4-4. -/
inductive Confinement where
  | active | passive | quarantine | held
  deriving DecidableEq, Repr

/-- What the line of a port carries, as the port sees it. -/
inductive LineUse where
  | idle | sending | receiving | signalling | waitTen | suspended
  deriving DecidableEq, Repr

/-- Where a launched frame comes from. -/
inductive TxSource where
  /-- a queue item: pan, queue, slot -/
  | queue (p : Fin 4) (q : Fin 4) (slot : Nat)
  /-- the frame of a fired TX schedule entry: its slot -/
  | fired (slot : Nat)
  /-- the tide generator -/
  | tide
  /-- the sounding slot: a SOUND result (Table 9-1) -/
  | sound
  /-- the oldest forward of a bridge queue -/
  | bridge
  /-- the last-gasp frame -/
  | gasp (slot : Nat)
  deriving DecidableEq, Repr

/-- A frame on the wire, launched by this controller and held by the line controller to its end (R318). -/
structure TxAttempt where
  src : TxSource
  frame : Frame
  /-- the SOF launch instant -/
  sof : Instant
  /-- PAN_GEN when the item was committed -/
  gen : BitVec 16
  deriving DecidableEq, Repr

/-- A change of the error counts that has not committed yet (R146). -/
structure CountChange where
  dTec : Int
  dRec : Int
  deriving DecidableEq, Repr

/-- What this controller drives in answer to the frame it received last (MODEL: outputs of the line). -/
structure Answer where
  /-- the ACK slot is driven dominant (R103) -/
  ack : Bool
  /-- a dominant error flag (R138) -/
  flag : Bool
  /-- the launch instant of the roll chip (R112, R114) -/
  roll : Option Instant
  /-- the launch instant of the SOUND echo (R69) -/
  echo : Option Instant
  deriving DecidableEq, Repr

/-- One line port. -/
structure PortState where
  /-- LINE_EC.TEC (9 bits); 04 R144; reset 0 -/
  tecCnt : Nat
  /-- LINE_EC.REC (9 bits); 04 R144; reset 0 -/
  recCnt : Nat
  /-- Count changes not yet committed, oldest first; 04 R146; reset none -/
  commits : List CountChange
  /-- LINE_STATE.PLCST, PAIRST (2 bits); 04 R148; reset Active -/
  conf : Confinement
  /-- LINE_STATE.PLCGUARD, PAIRGUARD (1 bit); 04 R153, R173; reset 0 at power-on and supply reset, else kept -/
  guard : Bool
  /-- The bus-off history: always-on times (us) of recent bus-off entries, newest first; 04 R153, R173; reset as the guard -/
  history : List Nat
  /-- LINE_STATE.PLCQCNT, PAIRQCNT (7 bits, 0-64); 04 R151; reset 0 -/
  qcnt : Nat
  /-- A rejoin accepted in Quarantine (1 bit); 04 R152; reset 0 -/
  rejoin : Bool
  /-- What the line carries, as the port sees it; 03 R131, 04 R132, R150; reset idle (the port is disabled) -/
  use : LineUse
  /-- The frame of this controller on the wire; 08 R318; reset none -/
  tx : Option TxAttempt
  /-- The port last made an attempt as a passive transmitter (1 bit); 04 R150; reset 0 -/
  justSent : Bool
  /-- The port is disabled at the end of the frame on the wire (1 bit); 01 R38; reset 0 -/
  closing : Bool
  /-- The port was enabled again while it was closing: it waits for ten recessive bits after the frame (1 bit); 03 R131; reset 0 -/
  waitNext : Bool
  /-- No SOF before this instant: the end of the IFS of a SOUND request (R73); reset none -/
  sofHold : Option Instant
  /-- What the port drove in answer to the frame it received last; 03 R103, R112, 04 R138, 02 R69; reset nothing, MODEL -/
  answer : Answer
  deriving DecidableEq, Repr

/-- A sounded-delay register (R71). -/
structure Delay where
  /-- DELAY in ticks (16 bits) -/
  val : BitVec 16
  valid : Bool
  range : Bool
  deriving DecidableEq, Repr

/-- One forward held in a bridge slot (chapter 24). -/
structure Forward where
  frame : Frame
  /-- retries used and lost arbitrations -/
  rcnt : Nat
  lost : Nat
  /-- PAN_GEN of the pan charged when the forward was queued -/
  gen : BitVec 16
  deriving DecidableEq, Repr

/-- LINE, PLC and PAIR registers and the state of both ports. -/
structure Line where
  /-- LINE_CTL.QAUTO (32-bit register); 20 R694; reset 1 -/
  ctl : Word
  /-- LINE_ADDR.ADDR (6 bits); 01 R13; reset the OTP default -/
  addr : BitVec 6
  /-- LINE_STATE.DUPADDR (1 bit); 01 R39; reset 0 -/
  dupAddr : Bool
  /-- LINE_STATE.C0FMT (1 bit); 03 R130; reset 0 -/
  c0fmt : Bool
  /-- LINE_STATE.CFGERR (1 bit); 20 R709; reset 0 -/
  cfgErr : Bool
  /-- LINE_DLY_MAIN (DELAY, RANGE, VALID); 02 R71; reset 0 -/
  dlyMain : Delay
  /-- LINE_DLY_BACKUP (DELAY, RANGE, VALID); 02 R71; reset 0 -/
  dlyBackup : Delay
  /-- A SOUND result waiting for the next bus idle: KMARK and delay; 02 R77; reset none -/
  dlyPend : Option (Bool × BitVec 16)
  /-- The SOUND result in the sounding slot that has not gone out; 02 R70, R83, 09 Table 9-1; reset none -/
  soundOut : Option Frame
  /-- LINE_ROLLSLOT (32 bits: PLC, PAIR) in effect; 20 R694; reset 0x00C80190 -/
  rollSlot : Word
  /-- The pending LINE_ROLLSLOT shadow of the PLC field, of the pair field; 19 R652, R653; reset none -/
  rollSh : Option (BitVec 11)
  rollShPair : Option (BitVec 11)
  /-- LINE_BRIDGE (32 bits: EN, PA, AP, PREFIX, PDROP, ADROP); 20 R694; reset 0 -/
  bridge : Word
  /-- The bridge queue PLC to pair (six slots); 24 R828; reset empty -/
  bridgePA : List Forward
  /-- The bridge queue pair to PLC (six slots); 24 R828; reset empty -/
  bridgeAP : List Forward
  /-- PLC_CTL (32 bits: EN, ARATE, DRATE, SEARCH) in effect; 20 R694; reset 8 -/
  plcCtl : Word
  /-- The pending PLC_CTL shadow (ARATE, DRATE); 19 R652; reset none -/
  plcCtlSh : Option (BitVec 2)
  /-- PLC_CHAN.PLAN (3 bits) in effect; 20 R694; reset 4 -/
  plan : BitVec 3
  /-- The pending PLC_CHAN shadow; 19 R653; reset none -/
  planSh : Option (BitVec 3)
  /-- PLC_POLICY (32 bits: FLOOR, CEIL, MASK, TGT) in effect; 20 R694; reset 0x00063F70 -/
  policy : Word
  /-- The pending PLC_POLICY shadow; 19 R653; reset none -/
  policySh : Option Word
  /-- PLC_STAT.CLAMP (1 bit); 02 R54; reset 0 -/
  clamp : Bool
  /-- PLC_STAT.BETTER (1 bit); 02 R55; reset 0 -/
  better : Bool
  /-- PLC_STAT.NODRV (1 bit); 02 R51; reset sampled: 0 (DESIGN CHOICE, log 4) -/
  nodrv : Bool
  /-- PLC_STAT.SEARCHING (1 bit); 02 R57; reset 0 -/
  searching : Bool
  /-- The condition of the plan search held at the last event (1 bit); 02 R57; reset 0 -/
  searchOn : Bool
  /-- PLC_STAT.RANK (18 bits: six plan numbers); 02 R55; reset 0 -/
  rank : BitVec 18
  /-- The plan the receiver dwells on while searching (3 bits); 02 R57; reset 4 -/
  dwell : BitVec 3
  /-- PLC_LEVEL.CUR (3 bits); 02 R48; reset 0 -/
  level : BitVec 3
  /-- PLC_MARGIN.RX (8 bits, signed); 02 R53; reset 0 -/
  marginRx : Byte
  /-- PLC_MARGIN.PRED (8 bits, signed); 02 R53; reset 0 -/
  marginPred : Byte
  /-- PAIR_CTL (32 bits: EN, ISO, FD, RESTR, MON); 20 R694; reset 0 -/
  pairCtl : Word
  /-- PAIR_BT (32 bits) in effect; 20 R694; reset 0x031EC900 -/
  pairBt : Word
  /-- The pending PAIR_BT shadow; 19 R653; reset none -/
  pairBtSh : Option Word
  /-- PAIR_DBT (32 bits) in effect; 20 R694; reset 0x02473A20 -/
  pairDbt : Word
  /-- The pending PAIR_DBT shadow; 19 R653; reset none -/
  pairDbtSh : Option Word
  /-- PAIR_STAT.BTERR (1 bit); 02 R67; reset 0 -/
  btErr : Bool
  /-- PAIR_STAT.TDCV (8 bits); 20 R695; reset 0 -/
  tdcv : Byte
  /-- The state of the PLC port -/
  plc : PortState
  /-- The state of the pair port -/
  pair : PortState
  /-- The pan that launched the node's previous frame, round-robin order (2 bits); 08 R308; reset 3 -/
  rrLast : Fin 4
  /-- The slots of the released last-gasp frames that have not completed, oldest first; 11 R415; reset none -/
  gasp : List Nat
  /-- CHANNEL actions that fired on a busy line and wait for the bus idle, oldest first: entry, plan, fired late; 07 R270;
  reset none -/
  chanPend : List (Fin 32 × BitVec 3 × Bool)
  deriving DecidableEq, Repr

/-! ### Tide time and calendar (chapters 5, 17) -/

/-- TIDE_STAT.LOCK. -/
inductive Lock where
  | free | acquire | locked | holdover
  deriving DecidableEq, Repr

/-- What the head image reads of a tide frame received on the string port (R30, R199). -/
structure HeardTide where
  /-- BACKUP, PERMIT (2 bits), release count (8 bits) of Table 3-7 -/
  backup : Bool
  permit : Bool
  rel : Byte
  /-- heard in the listen, or the frame that made this keeper step down -/
  copies : Bool
  deriving DecidableEq, Repr

/-- What a node keeps of a tide frame it heard in a keeper's listen (R196, R197). -/
structure Heard where
  /-- its stamp in ticks since 0:0 -/
  stamp : Nat
  /-- the local SOF time in ticks since 0:0 -/
  arrival : Nat
  backup : Bool
  deriving DecidableEq, Repr

/-- Tide time, its discipline, the keeper roles. -/
structure Tide where
  /-- TIDE_CTL (32 bits: PORT, HOLDMAX, SLEW); 20 R696; reset 0x00640A00 -/
  ctl : Word
  /-- TIDE_TICK (28 bits); 05 R175; reset 0 -/
  tick : BitVec 28
  /-- TIDE_SEC (32 bits); 05 R175; reset 0 -/
  sec : Word
  /-- The fraction of a tick, in units of 10^-8 tick; 05 R176; reset 0 -/
  frac : Nat
  /-- TIDE_STAT.LOCK (2 bits); 05 R189; reset FREE -/
  lock : Lock
  /-- TIDE_STAT.FEST (1 bit); 05 R186; reset 0 -/
  fest : Bool
  /-- TIDE_STAT.DEFER (1 bit); 05 R194; reset 0 -/
  defer : Bool
  /-- TIDE_STAT.SLEWING (1 bit); 05 R201; reset 0 -/
  slewing : Bool
  /-- TIDE_STAT.RCLAMP (1 bit); 05 R216; reset 0 -/
  rclamp : Bool
  /-- TIDE_STAT.KEEPER (6 bits); 05 R190; reset 0 -/
  keeper : BitVec 6
  /-- TIDE_STAT.BACKUP, AUTH, HOLD of the last used frame (3 bits); 05 R190; reset 0 -/
  backup : Bool
  auth : Bool
  hold : Bool
  /-- TIDE_STAT.PERIOD (4 bits); 05 R190; reset 0 -/
  periodRx : BitVec 4
  /-- TIDE_STAT.EPOCH (16 bits); 05 R180; reset 0 -/
  epoch : BitVec 16
  /-- TIDE_STAT.STEPS (8 bits); 05 R185; reset 0 -/
  steps : Byte
  /-- TIDE_STAT.TSKIP (8 bits); 05 R178; reset 0 -/
  tskip : Byte
  /-- TIDE_STAT.CFGERR (1 bit); 20 R709; reset 0 -/
  cfgErr : Bool
  /-- TIDE_OFFS read value (32 bits, signed ticks); 20 R696; reset 0 -/
  offs : Word
  /-- TIDE_RATE (32 bits, signed 0.01 ppm) in effect; 05 R176; reset 0 -/
  rate : Word
  /-- The pending TIDE_RATE shadow; 19 R653; reset none -/
  rateSh : Option Word
  /-- The view through which the pending TIDE_RATE, TIDE_PERIOD was written (system block or a pan's window); 22 R744; reset the
  system block -/
  rateVia : Via
  periodVia : Via
  /-- TIDE_PERIOD.CODE (4 bits) in effect; 05 R118; reset 4 -/
  period : BitVec 4
  /-- The pending TIDE_PERIOD shadow; 19 R653; reset none -/
  periodSh : Option (BitVec 4)
  /-- TIDE_KEEPER (32 bits: MODE, PERMIT, AUTH, HOLD, ROLL, MISS, RELCNT); 20 R696; reset 0x300 -/
  keeperReg : Word
  /-- TIDE_ADOPTLIM (20 bits); 20 R696; reset 1000 -/
  adoptLim : Word
  /-- The TIDE_SEC latch of each party A, B, T0-T7 (10 x 32 bits); 05 R177; reset 0 -/
  latch : Tab Word 10
  /-- The loop's integral I, exact (ticks per tick); 05 R186, R187; reset 0 -/
  integ : Rat
  /-- The stamp of the last used frame, ticks since 0:0; 05 R187; reset none -/
  lastUsed : Option Nat
  /-- The stamp of the frame that stepped last; 05 R186; reset none -/
  stepStamp : Option Nat
  /-- Consecutive used frames with |e| <= 200 and VALID delay (ACQUIRE); 05 R189; reset 0 -/
  nearRun : Nat
  /-- Consecutive used frames with |e| > 400 (LOCKED); 05 R189; reset 0 -/
  farRun : Nat
  /-- A tide frame was received correctly since the port was enabled or lock fell to FREE (1 bit); 01 R18; reset 0 -/
  heardAny : Bool
  /-- The stamp L of the last tide frame received correctly; 05 R191; reset none -/
  lastRx : Option Nat
  /-- The local time of the last tide frame of the tracked keeper; 05 R190; reset none -/
  lastTracked : Option Nat
  /-- Local time at which tracking of TIDE_STAT.KEEPER ended without a new keeper, ticks since 0:0; 03 R128; reset none -/
  untracked : Option Nat
  /-- The epoch of the last tide frame received (16 bits or none); 05 R180; reset none -/
  epochRx : Option (BitVec 16)
  /-- The epoch to set before the next tide frame; 05 R180; reset none -/
  epochNext : Option (BitVec 16)
  /-- The controller is sending tide (1 bit); 05 R178; reset 0 -/
  sending : Bool
  /-- A main keeper's listen is running (1 bit); 05 R196; reset 0 -/
  listening : Bool
  /-- The last tide frame heard in the listen; 05 R197; reset none -/
  heard : Option Heard
  /-- The last tide frame received that the head image has not read; 01 R30, 05 R199; reset none -/
  noted : Option HeardTide
  /-- The missing count (4 bits); 05 R191; reset 0 -/
  missing : Nat
  /-- A tide frame is due and not launched (1 bit); 05 R178; reset 0 -/
  due : Bool
  /-- The frame of the coming boundary has been launched, early by LINE_DLY_MAIN (1 bit); 05 R178; reset 0 -/
  early : Bool
  /-- The roll bitmap and ROLLERR of the tide generator's last valid ROLL frame (64 bits, 1 bit); 03 R116; no register shows them
  (DESIGN CHOICE, log 67); reset 0 -/
  rollMap : BitVec 64
  rollErr : Bool
  /-- The due frame is the first after a takeover (1 bit); 05 R192; reset 0 -/
  takeover : Bool
  /-- A pending step of the clock, signed ticks (SYS_PEND.STEP); 05 R185, R200; reset none -/
  stepPend : Option Int
  /-- The pending step was asked by software (TIDE_OFFS or calendar), not by a used frame (1 bit); 05 R200, 17 R610; reset 0 -/
  stepSoft : Bool
  /-- A pending delay adjustment, signed ticks; 05 R184; reset 0 -/
  adjPend : Int
  /-- The slew still owed, signed, in units of 10^-8 tick; 05 R201; reset 0 -/
  slewLeft : Int
  /-- The rate offset of the slew, ppm (0-100); 05 R201; reset 0 -/
  slewRate : Nat
  deriving DecidableEq, Repr

/-- The calendar (chapter 17). -/
structure Cal where
  /-- CAL_CTL (32 bits: PER, BADIE, DENYIE, RANGEIE, RELIE); 20 R697; reset 0x1C -/
  ctl : Word
  /-- CAL_STAT.BAD (1 bit); 17 R608; reset 0 -/
  bad : Bool
  /-- CAL_STAT.DENY (1 bit); 17 R608; reset 0 -/
  deny : Bool
  /-- CAL_STAT.RANGE (1 bit); 17 R615; reset 0 -/
  range : Bool
  /-- CAL_STAT.WRAP (1 bit); 17 R615; reset 0 -/
  wrap : Bool
  /-- CAL_STAT.PEND: the accepted calendar move awaiting the bus idle, signed ticks; 17 R610; reset none -/
  pend : Option Int
  /-- The last value of CAL_STAT.UNREL, for RELIE (1 bit); 17 R613; reset 1 -/
  unrel : Bool
  /-- The CAL_DATE hold of each party (10 x 32 bits); 17 R608; reset 0x67D00101 -/
  hold : Tab Word 10
  /-- The CAL_DATE latch of each party (10 x 32 bits); 17 R607; reset 0x67D00101 -/
  latch : Tab Word 10
  deriving DecidableEq, Repr

/-! ### Schedule (chapter 7) -/

/-- SCHn_STAT.STATE. -/
inductive SchState where
  | idle | armed | committed
  deriving DecidableEq, Repr

/-- One schedule entry. -/
structure SchEntry where
  /-- SCHn_TICK (28 bits); 07 R257; reset 0 -/
  tick : BitVec 28
  /-- SCHn_SEC (32 bits); 07 R257; reset 0 -/
  sec : Word
  /-- SCHn_OPND (32 bits); 07 R257; reset 0 -/
  opnd : Word
  /-- SCHn_CTL ACT, LATE, EVT (9 bits); 07 R257; reset 0 -/
  ctl : BitVec 9
  /-- SCHn_STAT.STATE (2 bits); 07 R258; reset IDLE -/
  state : SchState
  /-- SCHn_STAT.RESULT (4 bits); 07 R271; reset 0 -/
  result : BitVec 4
  /-- SCHn_STAT.UNSYNC (1 bit); 07 R272; reset 0 -/
  unsync : Bool
  /-- SCHn_STAT.WREJ (1 bit); 07 R260; reset 0 -/
  wrej : Bool
  /-- SCHn_LATE (32 bits); 07 R263, R270; reset 0 -/
  late : Word
  /-- The brine slot (global number) a TX entry holds in LINE; 07 R265; reset none -/
  slot : Option Nat
  /-- The holder that armed it: none the host, some t a pan-local thread; 07 R265; reset none -/
  armedBy : Option (Fin 8)
  deriving DecidableEq, Repr

/-- The frame of a TX entry from its firing to its completion (R265). -/
structure FiredTx where
  /-- the entry that fired (global number) -/
  entry : Fin 32
  pan : Fin 4
  /-- the queue that stands for the frame -/
  q : Fin 4
  /-- its slot (global number) -/
  slot : Nat
  /-- the holder the slot returns to: none the host, some t a thread -/
  armedBy : Option (Fin 8)
  /-- no SOF opportunity has passed since the firing -/
  first : Bool
  /-- PAN_GEN at arming -/
  gen : BitVec 16
  /-- the SOF instant and the ACK slot (dominant) of the last attempt, if one was made (R351) -/
  last : Option (Instant × Bool)
  deriving DecidableEq, Repr

/-- The schedule table. -/
structure Sched where
  /-- SCH0-SCH31 (32 entries); 07 R256 -/
  ent : Tab SchEntry 32
  /-- The frames of fired TX entries that have not completed, oldest first; 07 R265; reset none -/
  fired : List FiredTx
  /-- Per party and entry, SCHn_SEC as its last SCHn_TICK read latched it (10 x 32 x 32 bits or none); 07 R257; reset none -/
  latch : Tab (Tab (Option Word) 32) 10
  /-- SYNC_OUT level (1 bit); 07 R266; reset low -/
  syncOut : Bool
  /-- SYNC_OUT is in the middle of a pulse (1 bit); 07 R266, R278; reset 0 -/
  syncPulse : Bool
  deriving DecidableEq, Repr

/-! ### Timers (chapter 16) -/

/-- One 48-bit timer with its pin. -/
structure Timer where
  /-- TIMn_CTL (32 bits) in effect; 16 R569; reset 0 -/
  ctl : Word
  /-- The pending TIMn_CTL shadow (its RWB fields); 16 R588; reset none -/
  ctlSh : Option Word
  /-- CNT (48 bits); 16 R574; reset 0 -/
  cnt : BitVec 48
  /-- Prescaler residue (7 bits); 16 R572; reset 0 -/
  resid : Nat
  /-- RELOAD (48 bits) in effect; 16 R574; reset 0xFFFFFFFFFFFF -/
  reload : BitVec 48
  /-- The pending RELOAD shadow; 16 R588; reset none -/
  reloadSh : Option (BitVec 48)
  /-- MATCH (48 bits) in effect; 16 R575; reset 0 -/
  mtch : BitVec 48
  /-- The pending MATCH shadow; 16 R588; reset none -/
  mtchSh : Option (BitVec 48)
  /-- The capture queue, oldest first (up to 4 x 48 bits); 16 R581; reset empty -/
  capq : List (BitVec 48)
  /-- TIMn_STAT OE, OUT (2 bits); 16 R579; reset 0 -/
  oe : Bool
  out : Bool
  /-- TIMn_STAT TPEDGE, CAPE, IEV (8 bits [11:4]); 16 R584; reset 0 -/
  sel : BitVec 8
  /-- TIMn_STAT.CAPOVF, WRAPF, MATCHF, CAPF, CFGERR, MKUP (6 x 1 bit); 16 R584, R593; reset 0 -/
  capOvf : Bool
  wrapF : Bool
  matchF : Bool
  capF : Bool
  cfgErr : Bool
  mkup : Bool
  /-- The level at pin TPn while it is an input (1 bit); 16 R579; reset sampled: low (DESIGN CHOICE, log 4) -/
  pin : Bool
  /-- TPn is in the middle of a pulse of a PIN action (1 bit); 07 R266; reset 0 -/
  pulse : Bool
  /-- A pan reset came in the middle of that pulse: TPn stays high to its end (1 bit); 07 R280; reset 0 -/
  tail : Bool
  /-- TNOW when a PIN action last set the level (64 bits, or none): no match or wrap of that core cycle changes it; 07 R278,
  16 R598; reset none -/
  pinAt : Option (BitVec 64)
  /-- TNOW of the last tick that wrapped or matched, and which it did: an OUT write of that core cycle comes before its actions (64 bits,
  2 bits); 16 R598; reset none -/
  actAt : Option (BitVec 64 × Bool × Bool)
  /-- TNOW of the last capture, and the triggers of that core cycle (edge, schedule, CAPNOW; 64 and 3 bits); 16 R597; reset 0 -/
  capAt : BitVec 64
  capBy : BitVec 3
  /-- The gate as fixed at entry to LISTEN or SLEEP (1 bit); 16 R590; reset 0 -/
  gateFix : Bool
  deriving DecidableEq, Repr

/-- Latches and holds of one party for one timer's register pairs. -/
structure TimLatch where
  cnt : BitVec 16
  reload : BitVec 16
  mtch : BitVec 16
  capq : BitVec 16
  deriving DecidableEq, Repr

/-- The timers. -/
structure Timers where
  /-- TIM0-TIM7; 16 R569 -/
  tim : Tab Timer 8
  /-- The read latches of each party for each timer (10 x 8 x 4 x 16 bits); 16 R577; reset 0 -/
  latch : Tab (Tab TimLatch 8) 10
  /-- The write holds of each party for each timer (10 x 8 x 3 x 16 bits); 16 R578; reset 0 -/
  hold : Tab (Tab TimLatch 8) 10
  /-- The masters whose events reach their slaves in the next core cycle, one entry an event (8 timers); 16 R585; reset none -/
  links : List (Fin 8)
  deriving DecidableEq, Repr

/-! ### Engine and threads (chapters 12 to 14) -/

/-- ENG_TCTLn.STATE. -/
inductive ThState where
  | halted | running | waiting | debug
  deriving DecidableEq, Repr

/-- What a waiting thread waits for. -/
inductive WaitOn where
  /-- `wait` (R514): events -/
  | events (rd : Fin 16)
  /-- `lk.acq` (R516): global lock -/
  | lock (rd : Fin 16) (l : Fin 32)
  /-- `join` (R512): child (global thread) -/
  | join (rd : Fin 16) (c : Fin 8)
  deriving DecidableEq, Repr

/-- One thread. -/
structure Thread where
  /-- g0-g15 (16 x 32 bits; g0 reads zero); 12 R437; reset 0 -/
  g : Tab Word 16
  /-- PC (15 bits: [14] ROM, [13:0] index); 12 R437, 13 R493; reset 0 -/
  pc : BitVec 15
  /-- STATE (2 bits); 12 R440; reset HALTED -/
  state : ThState
  /-- PRIO (3 bits); 12 R439; reset 0 -/
  prio : BitVec 3
  /-- STRICT (1 bit); 12 R439; reset 0 -/
  strict : Bool
  /-- QDYN (1 bit); 12 R451; reset 1 -/
  qdyn : Bool
  /-- QUOTA (8 bits); 12 R451; reset 0 -/
  quota : Byte
  /-- FCAUSE (4 bits); 12 R459; reset 0 -/
  fcause : BitVec 4
  /-- EXIT (8 bits); 12 R442; reset 0 -/
  exitCode : Byte
  /-- The parent (global thread number), PARENT and PARV; 12 R444; reset none -/
  parent : Option (Fin 8)
  /-- The last halt was by a pan reset, for join's PANRST (1 bit); 12 R446; reset 0 -/
  panRst : Bool
  /-- WAKE (64 bits); 12 R447; reset 0 -/
  wake : BitVec 64
  /-- WAKE armed (1 bit); 12 R447; reset 0 -/
  wakeArmed : Bool
  /-- WAKE was reached during a wait in DEBUG; 12 R466; reset 0 -/
  wakeHit : Bool
  /-- EVM (8 bits); 12 R448; reset 0 -/
  evm : Byte
  /-- Pending edge events CPL, TIDE, CHILD (8 bits); 12 R448; reset 0 -/
  ev : Byte
  /-- What the thread waits for; 12 R440; reset none -/
  waitOn : Option WaitOn
  /-- A wait that ended while in DEBUG, or a stepped wait: back to DEBUG when it ends (1 bit); 12 R466; reset 0 -/
  stepping : Bool
  /-- The latch of TNOW_HI taken by a TNOW_LO read (32 bits); 13 R498; reset 0 -/
  tnowHi : Word
  /-- The hold of WAKE_HI for the next WAKE_LO write (32 bits); 13 R499; reset 0 -/
  wakeHi : Word
  /-- TNOW of the cycle from which the thread is ready again (64 bits); 12 R431, R432; reset 0 -/
  readyAt : BitVec 64
  /-- The thread stands in DEBUG at the breakpoint it met: the instruction there is the next it issues (1 bit); 12 R467; reset 0 -/
  bpMet : Bool
  deriving DecidableEq, Repr

/-! ### The stock image (R463, R464) -/

/-- A command of Table 7-6 that a stock image has acted on (R274). -/
structure StockCmd where
  /-- a channel move, else a harvest command -/
  move : Bool
  /-- the identifier -/
  ident : Byte
  /-- the instant it named -/
  sec : Word
  tick : Word
  /-- the entries armed for it that no later command has taken (global numbers) -/
  ents : List (Fin 32)
  deriving DecidableEq, Repr

/-- Whether a pan runs the stock image. -/
inductive StockRun where
  /-- no -/
  | off
  /-- GO has started it; it has not read its parameter block yet -/
  | starting
  /-- it runs -/
  | active
  deriving DecidableEq, Repr

/-- What the stock image of one pan holds. -/
structure Stock where
  run : StockRun
  /-- the pan's first thread, which stands for the image (global number) -/
  thr : Fin 8
  /-- ROLE (2 bits), HPAN (2 bits) of Table 12-5 -/
  role : BitVec 2
  hpan : Fin 4
  /-- CMDRXF (2 bits) -/
  rxf : Fin 4
  /-- KICK (1 bit), and TNOW of the last kick or of the start -/
  kick : Bool
  kickAt : BitVec 64
  /-- EXPECT (64 bits) -/
  expect : BitVec 64
  /-- the address sounded last (6 bits) -/
  turn : BitVec 6
  /-- the commands acted on -/
  cmds : List StockCmd
  deriving DecidableEq, Repr

/-- A breakpoint comparator (R467). -/
structure Breakpoint where
  pc : BitVec 15
  /-- the pan that holds it -/
  pan : Fin 4
  /-- pan-local threads watched -/
  mask : Byte
  deriving DecidableEq, Repr

/-- Engine, threads, locks, watchdog, debug. -/
structure Engine where
  /-- TNOW (64 bits); 12 R438; reset 0 -/
  tnow : BitVec 64
  /-- ENG_CTL.GO (1 bit); 12 R443; reset 0 -/
  go : Bool
  /-- ENG_CTL.ROMPAN (4 bits); 12 R443; reset 0 -/
  romPan : BitVec 4
  /-- ENG_CTL.WDEN (1 bit); 12 R461; reset 0 -/
  wdEn : Bool
  /-- ENG_CTL.WDT (8 bits); 12 R461; reset 255 -/
  wdt : Byte
  /-- The watchdog count left, core cycles; 12 R461, ENG_STAT.WDLEFT 21 R716; reset 0 -/
  wdLeft : Nat
  /-- ENG_STAT.STARTED (1 bit); 21 R716; reset 0 -/
  started : Bool
  /-- An accepted GO is authenticating images (1 bit); 23 R797; reset 0 -/
  auth : Bool
  /-- GO has been accepted with AUTHREQ = 1 since the reset: host writes to instruction RAM are ignored (1 bit); 23 R798;
  reset 0 -/
  imgLock : Bool
  /-- ENG_STAT.CFGERR (1 bit); 21 R716; reset 0 -/
  cfgErr : Bool
  /-- T0-T7; 12 R437 -/
  thr : Tab Thread 8
  /-- LK0-LK31: the holding thread (global number) or none; 11 R408, 12 R456; reset none -/
  locks : Tab (Option (Fin 8)) 32
  /-- DBG_BP0-DBG_BP3; 12 R467; reset free -/
  bp : Tab (Option Breakpoint) 4
  /-- The stock image of each pan; 12 R463; reset off -/
  stock : Tab Stock 4
  deriving DecidableEq, Repr

/-! ### Pans (chapters 8, 10, 22) -/

/-- The four words of a filter entry that were in effect until an application, and when that came, in ticks of tide time. -/
structure FilterWas where
  ctl : Word
  a : Word
  b : Word
  d : Word
  till : Nat
  deriving DecidableEq, Repr

/-- One filter entry: the four words in effect and the counts. -/
structure Filter where
  /-- FLTn_CTL, A, B, D in effect (4 x 32 bits); 10 R375; reset 0 -/
  ctl : Word
  a : Word
  b : Word
  d : Word
  /-- The pending shadows of the four words; 10 R384; reset none -/
  ctlSh : Option Word
  aSh : Option Word
  bSh : Option Word
  dSh : Option Word
  /-- The shadow words wait for application (a FLTn_CTL write made them pending together); 10 R384; reset 0 -/
  ready : Bool
  /-- The party that wrote the filter: none the host, some t a thread; 09 R341; reset none -/
  writer : Option (Fin 8)
  /-- FLTn_CNT.HIT, DROP (2 x 16 bits); 10 R387; reset 0 -/
  hit : BitVec 16
  drop : BitVec 16
  /-- FLTn_CNT.CFGERR or the block's CFGERR (1 bit); 10 R384; reset 0 -/
  cfgErr : Bool
  /-- The entries that applications of the last millisecond replaced, newest first: a frame evaluated before is delivered by its old
  entry; 10 R390; reset none -/
  past : List FilterWas
  deriving DecidableEq, Repr

/-- One pan: its window registers, queues and FIFOs. -/
structure Pan where
  /-- PAN_CTL.ROLLRSP (1 bit); 22 R739; reset 0 -/
  rollRsp : Bool
  /-- PAN_STAT.UNACK (16 bits); 04 R156; reset 0 -/
  unack : BitVec 16
  /-- PAN_STAT.RSTBUSY (1 bit); 08 R317; reset 0 -/
  rstBusy : Bool
  /-- Tide time at the beginning of the last reset of the pan: a frame whose SOF came before it is not delivered; 08 R319;
  reset none -/
  rstAt : Option Instant
  /-- PAN_STAT.OWNREF (1 bit); 09 R339; reset 0 -/
  ownRef : Bool
  /-- PAN_GEN.GEN (16 bits); 08 R317; reset 0 -/
  gen : BitVec 16
  /-- PAN_BUDGET (32 bits: RATE, BURST) in effect; 11 R403; reset the ceiling -/
  budget : Word
  /-- The pending PAN_BUDGET shadow; 11 R404; reset none -/
  budgetSh : Option Word
  /-- PAN_FAULT (16 bits: ACCESS, CAP, KEYFAIL, WINDOW, ORDER, RST, BRK, TFLT); 22 R739; reset 0 -/
  fault : BitVec 16
  /-- PAN_TOKEN.TOK (16 bits); 11 R403; reset BURST -/
  token : BitVec 16
  /-- PAN_OVLD.BUDHOLD, WINHOLD, XPAN (3 x 8 bits); 11 R407; reset 0 -/
  budHold : Byte
  winHold : Byte
  xpan : Byte
  /-- Per port (PLC, pair), the candidate held at the last opportunity for lack of tokens, for its window; 11 R407; reset none -/
  heldBud : Tab (Option TxSource) 2
  heldWin : Tab (Option TxSource) 2
  /-- PAN_SCHEV (32 bits); 07 R271; reset 0 -/
  schev : Word
  /-- PAN_RSTLOG.TXN, RXN (32 bits); 22 R740; reset 0 -/
  rstLog : Word
  /-- TIDE_STAT.CFGERR in the pan's tide view (1 bit); 22 R744; reset 0 -/
  tideCfgErr : Bool
  /-- CAL_STAT.BAD, DENY in the pan's calendar view (2 x 1 bit); 22 R744; reset 0 -/
  calBad : Bool
  calDeny : Bool
  /-- s0-s15 (16 x 32 bits); 12 R453; reset 0 -/
  sreg : Tab Word 16
  /-- TQ0-TQ3; 09 R342 -/
  tq : Tab TxQueue 4
  /-- RXF0-RXF3; 09 R355 -/
  rxf : Tab RxFifo 4
  deriving DecidableEq, Repr

/-! ### Host ports, OTP, test port (chapters 18, 23, 25) -/

/-- What a delivery into a pan writes besides the frame: the port, the SOF instant, pan-local filter, the bridge mark (R356). -/
structure Delivery where
  port : LinePort
  sof : Instant
  flt : Nat
  brg : Bool
  deriving DecidableEq, Repr

/-- A mailbox delivery that waits for the end of a READ_BURST (R360): the pan, the slot by its global number. -/
structure HeldFrame where
  pan : Fin 4
  slot : Nat
  frame : Frame
  del : Delivery
  deriving DecidableEq, Repr

/-- What a port may do at a place: all, nothing seen and nothing counted, or nothing and counted as not allowed (R296-R300). -/
inductive Right where
  | yes | quiet | no
  deriving DecidableEq, Repr

/-- A FETCH under way (R352, R358, R639): the queue or FIFO, the slot it reads (none when nothing is there, or it is gone), the words
read, whether the item or frame was removed, and the LAST code so far. -/
structure OpenFetch where
  pan : Fin 4
  q : Fin 4
  rxf : Bool
  slot : Option Nat
  words : Nat
  taken : Bool
  code : Nat
  deriving DecidableEq, Repr

/-- A READ_BURST under way (R637): its first address, the next one, the rights of the words still to come, the pans that note a word
that is not allowed (R300), and the LAST code so far. -/
structure OpenBurst where
  first : Nat
  next : Nat
  rights : List Right
  pans : List (Fin 4)
  code : Nat
  deriving DecidableEq, Repr

/-- A read transaction whose CS_N is still low. -/
inductive OpenTx where
  | fetch (f : OpenFetch)
  | burst (b : OpenBurst)
  deriving DecidableEq, Repr

/-- One host serial port. -/
structure HostState where
  /-- LAST (5 bits); 18 R634; reset OK (0) -/
  last : BitVec 5
  /-- ERRCNT (8 bits); 18 R641; reset 0 -/
  errCnt : Byte
  /-- The status byte the last transaction returned (8 bits); 18 R634; reset 0, MODEL -/
  status : Byte
  /-- The words the last transaction returned; 18 R627; reset none, MODEL -/
  resp : List Word
  /-- The FETCH or READ_BURST that is under way; 18 R630, R639; reset none -/
  tx : Option OpenTx
  /-- The mailbox deliveries held until that READ_BURST ends, oldest first; 09 R360; reset none -/
  held : List HeldFrame
  deriving DecidableEq, Repr

/-- The one-time programmable words (R793) and the test access port (R861). -/
structure Otp where
  /-- The 16 OTP words as programmed (16 x 32 bits); 23 R793; never reset; State.reset: unprogrammed, zero (DESIGN CHOICE, log 5) -/
  words : Tab Word 16
  /-- The words as read and checked at the last ROM initialisation: ADDR (6), SLUWAIVE (2), AUTHREQ, DBGOFF, ROMONLY; 23 R794; reset zero -/
  addr : BitVec 6
  waive : BitVec 2
  authReq : Bool
  dbgOff : Bool
  romOnly : Bool
  /-- KEY as read then (4 x 32 bits, OTP words 6-9); 23 R793, R795; reset zero -/
  key : Tab Word 4
  /-- The KEY words failed their check: every authentication fails (1 bit); 23 R794; reset 0 -/
  keyBad : Bool
  /-- The 512-bit data register of OTPRD and OTPWR as last shifted out (16 x 32 bits); 23 R795; reset 0, MODEL -/
  shift : Tab Word 16
  deriving DecidableEq, Repr

/-- The controller and the commands that wait for it. -/
structure State where
  /-- SYS block -/
  sys : Sys
  /-- supply, clocks, power states -/
  pow : Power
  /-- sluice, permit, RUN -/
  slu : Sluice
  /-- interrupt controller -/
  irq : Irq
  /-- line ports -/
  line : Line
  /-- tide time -/
  tide : Tide
  /-- calendar -/
  cal : Cal
  /-- schedule table -/
  sched : Sched
  /-- timers -/
  tim : Timers
  /-- engine, threads, locks, debug -/
  eng : Engine
  /-- P0-P3 -/
  pans : Tab Pan 4
  /-- The 128 filter entries, by global number; 10 R374 -/
  flt : Tab Filter 128
  /-- PAN_ALLOC0-PAN_ALLOC47 (48 x 32 bits); 08 R292, 20 R699; reset as Table 8-2: ALLOC0 1, ALLOC4 all RAM, ALLOC8-11 ones, ALLOC29 0x00E4E400 -/
  alloc : Tab Word 48
  /-- The pan whose transmit window is open in sealed mode (2 bits); 08 R309; reset 0 -/
  window : Fin 4
  /-- TNOW when that window opened (64 bits); 08 R309; reset 0 -/
  windowFrom : BitVec 64
  /-- host ports A and B -/
  host : Tab HostState 2
  /-- one-time programmable words -/
  otp : Otp
  /-- Brine RAM (128 KiB), instruction RAM (64 KiB), scratch RAM (16 KiB) by host address; 09 R333, 00 R9; reset all zero -/
  mem : List Host.Cell
  /-- MODEL: the value the last register read returned (32 bits); reset 0 (DESIGN CHOICE, log 6) -/
  out : Word
  /-- MODEL: how many free values have been taken; reset 0 (DESIGN CHOICE, log 7) -/
  free : Nat
  /-- MODEL: the commands that wait, first in, first out; reset empty -/
  pending : List Instr
  deriving DecidableEq, Repr

/-! ### The machine after power-on reset -/

/-- SYS block after power-on reset (Tables 20-2, 20-3): the cause is POR (R688). -/
def Sys.reset : Sys where
  ctl := 0
  life := .dormant
  lifePrev := .dormant
  scrub := false
  allocErr := 0
  panLock := false
  dbgLock := false
  cfgPar := false
  keyFail := false
  pshad := false
  pllErr := false
  lfErr := false
  otpErr := false
  ploc := 0
  rstCause := 1
  swPend := false
  keys := .replicate 5 0
  parBad := []
  shBad := []
  parHit := none

/-- Supply, clocks and power states after power-on reset (R775, Table 20-4). -/
def Power.reset : Power where
  state := .reset
  ready := false
  req := none
  supCtl := 0
  supThld := 0x607
  below := false
  lgNone := false
  supCfgErr := false
  vdrvOk := true
  vioOk := true
  clkCtl := 2
  pllLock := false
  lfxOk := false
  lfAct := false
  aon := 0
  rcCorr := 0
  wcause := 0
  last := 0
  slpWake := 2
  latWarn := none
  tapHold := false

/-- The shutdown path after power-on reset (R255, Table 20-5). -/
def Sluice.reset : Sluice where
  ctl := 0x800
  len := 0x003000C8
  keep := 0x64
  safe := false
  cause := 0
  relVal := false
  relLat := 0
  tideOk := false
  localOk := false
  fresh := false
  lastRel := none
  run := false
  txNone := false
  pairBad := false
  cfgErr := false
  waive := 0
  burst := 0
  det := 0
  burstPend := false
  safeIn := false

/-- The interrupt controller after any reset (R568). -/
def Irq.reset : Irq where
  pend := 0
  en := 0
  enHist := .replicate 8 0
  ovf := 0
  cnt := .replicate 128 0
  prio := .replicate 128 0
  mask := .replicate 128 0
  hg := .replicate 128 0
  hgen := 0
  thld := .replicate 2 0
  stack := .replicate 2 []
  ord := .replicate 2 false
  eng := .replicate 8 none
  lost := 0
  seen := .replicate 10 0
  space := .replicate 8 0
  held := .replicate 8 0
  latch := 0
  wextra := 0
  deferred := []
  selHost := .replicate 2 (.replicate 4 0)
  selThr := .replicate 8 0

/-- A transmit queue after reset (R371, Table 22-8). -/
def TxQueue.reset : TxQueue where
  ctl := 0x300
  ring := 0
  opened := none
  preReset := false
  items := []
  done := []
  last := 0
  cfgErr := false
  trunc := 0
  cnt := 0

/-- A receive FIFO after reset (R371, Table 22-8). -/
def RxFifo.reset : RxFifo where
  ctl := 0x100
  ring := 0
  frames := []
  ovf := false
  ovfCnt := 0
  part := 0
  cfgErr := false

/-- A line port after power-on reset (R174). -/
def PortState.reset : PortState where
  tecCnt := 0
  recCnt := 0
  commits := []
  conf := .active
  guard := false
  history := []
  qcnt := 0
  rejoin := false
  use := .idle
  tx := none
  justSent := false
  closing := false
  waitNext := false
  sofHold := none
  answer := ⟨false, false, none, none⟩

/-- The line registers after power-on reset (Table 20-6). -/
def Line.reset : Line where
  ctl := 1
  addr := 0
  dupAddr := false
  c0fmt := false
  cfgErr := false
  dlyMain := ⟨0, false, false⟩
  dlyBackup := ⟨0, false, false⟩
  dlyPend := none
  soundOut := none
  rollSlot := 0x00C80190
  rollSh := none
  rollShPair := none
  bridge := 0
  bridgePA := []
  bridgeAP := []
  plcCtl := 8
  plcCtlSh := none
  plan := 4
  planSh := none
  policy := 0x00063F70
  policySh := none
  clamp := false
  better := false
  nodrv := false
  searching := false
  searchOn := false
  rank := 0
  dwell := 4
  level := 0
  marginRx := 0
  marginPred := 0
  pairCtl := 0
  pairBt := 0x031EC900
  pairBtSh := none
  pairDbt := 0x02473A20
  pairDbtSh := none
  btErr := false
  tdcv := 0
  plc := .reset
  pair := .reset
  rrLast := 3
  gasp := []
  chanPend := []

/-- Tide time after any reset (R219, Table 20-7). -/
def Tide.reset : Tide where
  ctl := 0x00640A00
  tick := 0
  sec := 0
  frac := 0
  lock := .free
  fest := false
  defer := false
  slewing := false
  rclamp := false
  keeper := 0
  backup := false
  auth := false
  hold := false
  periodRx := 0
  epoch := 0
  steps := 0
  tskip := 0
  cfgErr := false
  offs := 0
  rate := 0
  rateSh := none
  rateVia := .sys
  periodVia := .sys
  period := 4
  periodSh := none
  keeperReg := 0x300
  adoptLim := 0x3E8
  latch := .replicate 10 0
  integ := 0
  lastUsed := none
  stepStamp := none
  nearRun := 0
  farRun := 0
  heardAny := false
  lastRx := none
  lastTracked := none
  untracked := none
  epochRx := none
  epochNext := none
  sending := false
  listening := false
  heard := none
  noted := none
  missing := 0
  due := false
  early := false
  rollMap := 0
  rollErr := false
  takeover := false
  stepPend := none
  stepSoft := false
  adjPend := 0
  slewLeft := 0
  slewRate := 0

/-- The calendar after any reset (R620). -/
def Cal.reset : Cal where
  ctl := 0x1C
  bad := false
  deny := false
  range := false
  wrap := false
  pend := none
  unrel := true
  hold := .replicate 10 0x67D00101
  latch := .replicate 10 0x67D00101

/-- A schedule entry after any reset (R288). -/
def SchEntry.reset : SchEntry where
  tick := 0
  sec := 0
  opnd := 0
  ctl := 0
  state := .idle
  result := 0
  unsync := false
  wrej := false
  late := 0
  slot := none
  armedBy := none

/-- The schedule after any reset (R288). -/
def Sched.reset : Sched where
  ent := .replicate 32 .reset
  fired := []
  latch := .replicate 10 (.replicate 32 none)
  syncOut := false
  syncPulse := false

/-- A timer after any reset (R603). -/
def Timer.reset : Timer where
  ctl := 0
  ctlSh := none
  cnt := 0
  resid := 0
  reload := 0xFFFFFFFFFFFF
  reloadSh := none
  mtch := 0
  mtchSh := none
  capq := []
  oe := false
  out := false
  sel := 0
  capOvf := false
  wrapF := false
  matchF := false
  capF := false
  cfgErr := false
  mkup := false
  pin := false
  pulse := false
  tail := false
  pinAt := none
  actAt := none
  capAt := 0
  capBy := 0
  gateFix := false

/-- The timers after any reset (R603). -/
def Timers.reset : Timers where
  tim := .replicate 8 .reset
  latch := .replicate 10 (.replicate 8 ⟨0, 0, 0, 0⟩)
  hold := .replicate 10 (.replicate 8 ⟨0, 0, 0, 0⟩)
  links := []

/-- A pan that runs no stock image. -/
def Stock.reset : Stock where
  run := .off
  thr := 0
  role := 0
  hpan := 0
  rxf := 0
  kick := false
  kickAt := 0
  expect := 0
  turn := 63
  cmds := []

/-- A thread after any reset (R476, R506). -/
def Thread.reset : Thread where
  g := .replicate 16 0
  pc := 0
  state := .halted
  prio := 0
  strict := false
  qdyn := true
  quota := 0
  fcause := 0
  exitCode := 0
  parent := none
  panRst := false
  wake := 0
  wakeArmed := false
  wakeHit := false
  evm := 0
  ev := 0
  waitOn := none
  stepping := false
  tnowHi := 0
  wakeHi := 0
  readyAt := 0
  bpMet := false

/-- The engine after any reset (R476). -/
def Engine.reset : Engine where
  tnow := 0
  go := false
  romPan := 0
  wdEn := false
  wdt := 255
  wdLeft := 0
  started := false
  auth := false
  imgLock := false
  cfgErr := false
  thr := .replicate 8 .reset
  locks := .replicate 32 none
  bp := .replicate 4 none
  stock := .replicate 4 .reset

/-- A filter entry after any reset: disabled (R397). -/
def Filter.reset : Filter where
  ctl := 0
  a := 0
  b := 0
  d := 0
  ctlSh := none
  aSh := none
  bSh := none
  dSh := none
  ready := false
  writer := none
  hit := 0
  drop := 0
  cfgErr := false
  past := []

/-- A pan after any reset: its budget at the ceiling, its bucket full (R332, R767). -/
def Pan.reset : Pan where
  rollRsp := false
  unack := 0
  rstBusy := false
  rstAt := none
  ownRef := false
  gen := 0
  budget := 0xFFFFFFFF
  budgetSh := none
  fault := 0
  token := 0xFFFF
  budHold := 0
  winHold := 0
  xpan := 0
  heldBud := .replicate 2 none
  heldWin := .replicate 2 none
  schev := 0
  rstLog := 0
  tideCfgErr := false
  calBad := false
  calDeny := false
  sreg := .replicate 16 0
  tq := .replicate 4 .reset
  rxf := .replicate 4 .reset

/-- A host port after any reset (R650). -/
def HostState.reset : HostState where
  last := 0
  errCnt := 0
  status := 0
  resp := []
  tx := none
  held := []

/-- OTP words never programmed (DESIGN CHOICE, log 5). -/
def Otp.reset : Otp where
  words := .replicate 16 0
  addr := 0
  waive := 0
  authReq := false
  dbgOff := false
  romOnly := false
  key := .replicate 4 0
  keyBad := false
  shift := .replicate 16 0

/-- PAN_ALLOC0-47 after any reset: P0 holds all of the RAM (R289, Table 20-9). -/
def allocReset : Tab Word 48 :=
  (((((((Vector.replicate 48 (0 : Word)).set 0 1).set 4 0x40001000).set 8 0xFFFFFFFF).set 9 0xFFFFFFFF).set 10
    0xFFFFFFFF).set 11 0xFFFFFFFF).set 29 0x00E4E400

/-- The machine right after power-on reset, before HPI_READY. -/
def State.reset : State where
  sys := .reset
  pow := .reset
  slu := .reset
  irq := .reset
  line := .reset
  tide := .reset
  cal := .reset
  sched := .reset
  tim := .reset
  eng := .reset
  pans := .replicate 4 .reset
  flt := .replicate 128 .reset
  alloc := allocReset
  window := 0
  windowFrom := 0
  host := .replicate 2 .reset
  otp := .reset
  mem := []
  out := 0
  free := 0
  pending := []

end Sys2Proof.Machine
end

