-- ==== Sys2Proof/Machine/Ops.lean ====
section
/-! DEFINITION. The named operations every meaning is written over: bit fields, tables, memory, the allocation and its
pan-local numbering. -/

namespace Sys2Proof.Machine

/-- What a command answers. -/
abbrev Out := Host.Outcome State Fault Refusal

/-! ### Bit fields -/

/-- The field of `len` bits of `w` from bit `lo`. -/
def bitsOf {n : Nat} (w : BitVec n) (lo len : Nat) : Nat := (w.toNat >>> lo) % 2 ^ len

/-- `w` with the field of `len` bits from bit `lo` replaced by the low bits of `v`. -/
def putBits {n : Nat} (w : BitVec n) (lo len v : Nat) : BitVec n :=
  BitVec.ofNat n (w.toNat - (bitsOf w lo len <<< lo) + ((v % 2 ^ len) <<< lo))

/-- Bit `i` of `w`. -/
def bitOf {n : Nat} (w : BitVec n) (i : Nat) : Bool := w.getLsbD i

/-- `w` with bit `i` as `b` says. -/
def putBit {n : Nat} (w : BitVec n) (i : Nat) (b : Bool) : BitVec n :=
  if b then w ||| BitVec.ofNat n (1 <<< i) else w &&& ~~~ BitVec.ofNat n (1 <<< i)

/-- One bit at place `i`, or nothing. -/
def flag (i : Nat) (b : Bool) : Word := if b then BitVec.ofNat 32 (1 <<< i) else 0

/-- A value at place `lo` of a word. -/
def field (lo v : Nat) : Word := BitVec.ofNat 32 (v <<< lo)

/-- A bit field chosen by `mask`: the new bits under the mask, the old ones elsewhere. -/
def merge {n : Nat} (mask old new : BitVec n) : BitVec n := (old &&& ~~~ mask) ||| (new &&& mask)

/-- An 8-bit count that saturates at 255. -/
def satInc8 (b : Byte) : Byte := if b = 255 then b else b + 1

/-- A signed word of a number. -/
def wordOfInt (i : Int) : Word := BitVec.ofInt 32 i

/-! ### Tables -/

/-- Entry `i` of a table changed by `f`. -/
def tabUpd {α : Type} {n : Nat} (t : Tab α n) (i : Fin n) (f : α → α) : Tab α n := t.set i.val (f t[i]) i.isLt

/-- Every entry of a table changed by `f`. -/
def tabMap {α : Type} {n : Nat} (t : Tab α n) (f : α → α) : Tab α n :=
  ⟨⟨t.toList.map f⟩, by simp⟩

/-- Every entry of a table changed by `f`, which also sees its number. -/
def tabMapIdx {α : Type} {n : Nat} (t : Tab α n) (f : Nat → α → α) : Tab α n :=
  ⟨⟨t.toList.mapIdx f⟩, by simp⟩

/-- The number `k` as an index of a table (taken modulo its size). -/
def idx (n : Nat) [NeZero n] (k : Nat) : Fin n := Fin.ofNat n k

/-! ### Memory: brine, instruction RAM and scratch by host address (R9) -/

/-- The byte of memory at `a`; an unlisted address reads zero (R371, R476). -/
def memGet (m : List Host.Cell) (a : Nat) : Byte := ((m.find? fun c => c.1 == a).map Prod.snd).getD 0

/-- A cell put at its place of the rising list. -/
def memInsert (c : Host.Cell) : List Host.Cell → List Host.Cell
  | [] => [c]
  | d :: m => if c.1 < d.1 then c :: d :: m else d :: memInsert c m

/-- The byte `b` written at `a`: a zero is not listed. -/
def memPut (m : List Host.Cell) (a : Nat) (b : Byte) : List Host.Cell :=
  let rest := m.filter fun c => c.1 != a
  if b = 0 then rest else memInsert (a, b) rest

/-- Memory with every byte from `lo` to below `hi` zero. -/
def memZero (m : List Host.Cell) (lo hi : Nat) : List Host.Cell :=
  m.filter fun c => c.1 < lo || hi ≤ c.1

/-- The canonical form of memory: addresses strictly rising, no zero listed. -/
def Memory.wf (m : List Host.Cell) : Bool :=
  m.all (fun c => c.2 != 0) && decide (m.Pairwise fun c d => c.1 < d.1)

/-- The word at `a`, little-endian (R336, R488). -/
def memWord (m : List Host.Cell) (a : Nat) : Word :=
  memGet m (a + 3) ++ memGet m (a + 2) ++ memGet m (a + 1) ++ memGet m a

/-- The word `v` written at `a`, little-endian. -/
def memPutWord (m : List Host.Cell) (a : Nat) (v : Word) : List Host.Cell :=
  memPut (memPut (memPut (memPut m a (v.extractLsb' 0 8)) (a + 1) (v.extractLsb' 8 8)) (a + 2) (v.extractLsb' 16 8))
    (a + 3) (v.extractLsb' 24 8)

/-- Host address of word `w` of the slot `g` (R333, R337). -/
def slotAddr (g w : Nat) : Nat := 0x20000 + 96 * g + 4 * w

/-- Word `w` of slot `g`. -/
def State.slotWord (s : State) (g w : Nat) : Word := memWord s.mem (slotAddr g w)

/-- Slot `g` with word `w` written. -/
def State.putSlotWord (s : State) (g w : Nat) (v : Word) : State :=
  { s with mem := memPutWord s.mem (slotAddr g w) v }

/-- A list of words written to slot `g` from word `w`. -/
def State.putSlotWords (s : State) (g : Nat) : Nat → List Word → State
  | _, [] => s
  | w, v :: vs => (s.putSlotWord g w v).putSlotWords g (w + 1) vs

/-! ### Changes of one part of the state -/

def State.updSys (s : State) (f : Sys → Sys) : State := { s with sys := f s.sys }
def State.updSlu (s : State) (f : Sluice → Sluice) : State := { s with slu := f s.slu }
def State.updLine (s : State) (f : Line → Line) : State := { s with line := f s.line }
def State.updTide (s : State) (f : Tide → Tide) : State := { s with tide := f s.tide }
def State.updPow (s : State) (f : Power → Power) : State := { s with pow := f s.pow }
def State.updCal (s : State) (f : Cal → Cal) : State := { s with cal := f s.cal }
def State.updEng (s : State) (f : Engine → Engine) : State := { s with eng := f s.eng }
def State.updPan (s : State) (n : Fin 4) (f : Pan → Pan) : State := { s with pans := tabUpd s.pans n f }
def State.updThr (s : State) (t : Fin 8) (f : Thread → Thread) : State :=
  { s with eng := { s.eng with thr := tabUpd s.eng.thr t f } }
def State.updTim (s : State) (n : Fin 8) (f : Timer → Timer) : State :=
  { s with tim := { s.tim with tim := tabUpd s.tim.tim n f } }
def State.updSch (s : State) (e : Fin 32) (f : SchEntry → SchEntry) : State :=
  { s with sched := { s.sched with ent := tabUpd s.sched.ent e f } }
def State.updFlt (s : State) (k : Fin 128) (f : Filter → Filter) : State := { s with flt := tabUpd s.flt k f }
def State.updTq (s : State) (n q : Fin 4) (f : TxQueue → TxQueue) : State :=
  s.updPan n fun p => { p with tq := tabUpd p.tq q f }
def State.updRxf (s : State) (n q : Fin 4) (f : RxFifo → RxFifo) : State :=
  s.updPan n fun p => { p with rxf := tabUpd p.rxf q f }
/-- Both host ports. -/
def State.mapHosts (s : State) (f : HostState → HostState) : State := { s with host := tabMap s.host f }

/-- The value a register read returns (log 6). -/
def State.ret (s : State) (v : Word) : State := { s with out := v }

/-- The next free bit, taken (log 7). -/
def State.takeFree (s : State) : State := { s with free := s.free + 1 }

/-- The core and line domains run: RUN with the PLL locked (R775, R788). -/
def State.coreRuns (s : State) : Bool := s.pow.state == .run && s.pow.pllLock

/-- An event that would wake the controller ends a pending request (R777, R800); `listenOnly`: it wakes from LISTEN alone. -/
def State.endRequest (s : State) (listenOnly : Bool) : State :=
  s.updPow fun p => if listenOnly && p.req == some .sleep then p else { p with req := none }

/-! ### LAST codes (Table 18-6) -/

def lcOk : Nat := 0
def lcNotRdy : Nat := 1
def lcBusy : Nat := 2
def lcBadCmd : Nat := 3
def lcFrame : Nat := 4
def lcCrc : Nat := 5
def lcAlign : Nat := 6
def lcKind : Nat := 7
def lcAccess : Nat := 8
def lcKey : Nat := 9
def lcOwnRef : Nat := 10
def lcEmpty : Nat := 11
def lcPartial : Nat := 12

/-- The lower nonzero of two codes (R634). -/
def joinCode (a b : Nat) : Nat := if a = 0 then b else if b = 0 then a else min a b

/-! ### Pending shadows and their stored parity (R652, R669-R675) -/

/-- A pending entry discarded. -/
def Filter.clearShadow (x : Filter) : Filter :=
  { x with ctlSh := none, aSh := none, bSh := none, dSh := none, ready := false }

/-- A filter's bad shadow word discarded: the whole entry once its four words wait together (R384). -/
def Filter.dropBad (x : Filter) (w : Fin 4) : Filter :=
  if x.ready then x.clearShadow
  else
    match w.val with
    | 0 => { x with ctlSh := none }
    | 1 => { x with aSh := none }
    | 2 => { x with bSh := none }
    | _ => { x with dSh := none }

/-- The shadow pends. -/
def State.hasShadow (s : State) : ShKey → Bool
  | .plcCtl => s.line.plcCtlSh.isSome
  | .roll => s.line.rollSh.isSome || s.line.rollShPair.isSome
  | .chan => s.line.planSh.isSome
  | .policy => s.line.policySh.isSome
  | .pairBt => s.line.pairBtSh.isSome
  | .pairDbt => s.line.pairDbtSh.isSome
  | .rate => s.tide.rateSh.isSome
  | .period => s.tide.periodSh.isSome
  | .budget n => s.pans[n].budgetSh.isSome
  | .timer n w =>
    match w.val with
    | 0 => s.tim.tim[n].ctlSh.isSome
    | 1 => s.tim.tim[n].reloadSh.isSome
    | _ => s.tim.tim[n].mtchSh.isSome
  | .flt k w =>
    match w.val with
    | 0 => s.flt[k].ctlSh.isSome
    | 1 => s.flt[k].aSh.isSome
    | 2 => s.flt[k].bSh.isSome
    | _ => s.flt[k].dSh.isSome

/-- A pending shadow found bad is discarded (R673). -/
def State.dropShadow (s : State) : ShKey → State
  | .plcCtl => s.updLine fun l => { l with plcCtlSh := none }
  | .roll => s.updLine fun l => { l with rollSh := none, rollShPair := none }
  | .chan => s.updLine fun l => { l with planSh := none }
  | .policy => s.updLine fun l => { l with policySh := none }
  | .pairBt => s.updLine fun l => { l with pairBtSh := none }
  | .pairDbt => s.updLine fun l => { l with pairDbtSh := none }
  | .rate => s.updTide fun t => { t with rateSh := none }
  | .period => s.updTide fun t => { t with periodSh := none }
  | .budget n => s.updPan n fun p => { p with budgetSh := none }
  | .timer n w =>
    match w.val with
    | 0 => s.updTim n fun x => { x with ctlSh := none }
    | 1 => s.updTim n fun x => { x with reloadSh := none }
    | _ => s.updTim n fun x => { x with mtchSh := none }
  | .flt k w => s.updFlt k fun x => x.dropBad w

/-- The check of a pending shadow at its application: one with bad parity is discarded, and R672 acts in the next core cycle (R675). -/
def State.weed (s : State) (k : ShKey) : State :=
  match s.sys.shBad.find? fun e => e.1 == k with
  | none => s
  | some e =>
    let s1 := s.updSys fun y => { y with shBad := y.shBad.filter fun e => e.1 != k }
    if s.hasShadow k then (s1.dropShadow k).updSys fun y => { y with parHit := y.parHit.or (some e.2) } else s1

/-- The check of several shadows that apply together. -/
def State.weedAll (s : State) (ks : List ShKey) : State := ks.foldl State.weed s

/-! ### The allocation (chapter 8) -/

/-- PAN_ALLOCk. -/
def State.allocWord (s : State) (k : Nat) : Word := s.alloc[idx 48 k]

/-- The owner field `k` of the pack that begins at word `base` (Table 8-2); before PANLOCK every resource is P0's (R289, R874). -/
def State.packOwner (s : State) (base k : Nat) : Fin 4 :=
  if s.sys.panLock then idx 4 (bitsOf (s.allocWord (base + k / 16)) (2 * (k % 16)) 2) else 0

def State.unitOwner (s : State) (u : Nat) : Fin 4 := s.packOwner 12 u
def State.fltOwner (s : State) (k : Nat) : Fin 4 := s.packOwner 15 k
def State.schOwner (s : State) (k : Nat) : Fin 4 := s.packOwner 23 k
def State.lockOwner (s : State) (k : Nat) : Fin 4 := s.packOwner 25 k
def State.thrOwner (s : State) (k : Nat) : Fin 4 := s.packOwner 27 k
def State.timOwner (s : State) (k : Nat) : Fin 4 := s.packOwner 27 (8 + k)
def State.hgOwner (s : State) (k : Nat) : Fin 4 := s.packOwner 36 k

/-- The owner of SYNC_OUT. -/
def State.syncOwner (s : State) : Fin 4 := s.packOwner 36 8

/-- The owner of source `k`: fixed for 20-27 (R294). -/
def State.srcOwner (s : State) (k : Nat) : Fin 4 :=
  if 20 ≤ k ∧ k < 24 then idx 4 (k - 20) else if 24 ≤ k ∧ k < 28 then idx 4 (k - 24)
  else if k = 0 ∨ 120 ≤ k then 0 else s.packOwner 28 k

/-- Source `k` exists (R539): 1-119 but for 31. -/
def srcExists (k : Nat) : Bool := 1 ≤ k && k ≤ 119 && k != 31

/-- Source `k` exists and belongs to pan `n`. -/
def State.panSrc (s : State) (n : Fin 4) (k : Nat) : Bool := srcExists k && s.srcOwner k == n

/-- Pan `n` is enabled: P0 always, the others from PANLOCK on (R298, R322). -/
def State.panEn (s : State) (n : Fin 4) : Bool := n == 0 || (s.sys.panLock && bitOf (s.allocWord n) 0)

/-- The port pan `n` is bound to. -/
def State.panPort (s : State) (n : Fin 4) : HostPort := if bitOf (s.allocWord n) 1 then .b else .a

/-- The enabled pans bound to a port. -/
def State.portPans (s : State) (h : HostPort) : List (Fin 4) :=
  [0, 1, 2, 3].filter fun n => s.panEn n && s.panPort n == h

/-- The capabilities (Table 8-5), in the order of PAN_ALLOC.CAP. -/
inductive Cap where
  | sluice | keeper | channel | bridge | calset
  deriving DecidableEq, Repr

def Cap.bit : Cap → Nat
  | .sluice => 2 | .keeper => 3 | .channel => 4 | .bridge => 5 | .calset => 6

/-- Pan `n` holds a capability (R304). -/
def State.hasCap (s : State) (n : Fin 4) (c : Cap) : Bool := s.panEn n && bitOf (s.allocWord n) c.bit

/-- The global numbers, of `count`, that pan `n` owns, rising (R290). -/
def owned (count : Nat) (owner : Nat → Fin 4) (n : Fin 4) : List Nat := (List.range count).filter fun k => owner k == n

/-- The pan-local number of a resource of its own pan (R290). -/
def localNo (owner : Nat → Fin 4) (g : Nat) : Nat := ((List.range g).filter fun k => owner k == owner g).length

def State.panThreads (s : State) (n : Fin 4) : List Nat := owned 8 s.thrOwner n
def State.panTimers (s : State) (n : Fin 4) : List Nat := owned 8 s.timOwner n
def State.panEntries (s : State) (n : Fin 4) : List Nat := owned 32 s.schOwner n
def State.panLocks (s : State) (n : Fin 4) : List Nat := owned 32 s.lockOwner n
def State.panFilters (s : State) (n : Fin 4) : List Nat := owned 128 s.fltOwner n
def State.panUnits (s : State) (n : Fin 4) : List Nat := owned 42 s.unitOwner n
def State.panGroups (s : State) (n : Fin 4) : List Nat := owned 8 s.hgOwner n
def State.panSources (s : State) (n : Fin 4) : List Nat := (List.range 128).filter fun k => s.panSrc n k

/-- How many slots pan `n` has. -/
def State.panSlots (s : State) (n : Fin 4) : Nat := 32 * (s.panUnits n).length

/-- The global number of pan-local slot `k` (R335). -/
def State.slotGlobal (s : State) (n : Fin 4) (k : Nat) : Option Nat :=
  (s.panUnits n)[k / 32]?.map fun u => 32 * u + k % 32

/-- The pan that owns slot `g`. -/
def State.slotOwner (s : State) (g : Nat) : Fin 4 := s.unitOwner (g / 32)

/-- The pan-local number of slot `g` in its pan. -/
def State.slotLocal (s : State) (g : Nat) : Nat := 32 * localNo s.unitOwner (g / 32) + g % 32

/-- The pan-local number of thread `t`. -/
def State.thrLocal (s : State) (t : Nat) : Nat := localNo s.thrOwner t

/-- Base (host address) and size in bytes of a pan's scratch and instruction RAM (PAN_ALLOC4-7); before PANLOCK P0's as they
are written. -/
def State.scratchRegion (s : State) (n : Fin 4) : Nat × Nat :=
  let w := s.allocWord (4 + n)
  (0x50000 + 0x400 * bitsOf w 0 5, 0x400 * bitsOf w 8 5)
def State.iramRegion (s : State) (n : Fin 4) : Nat × Nat :=
  let w := s.allocWord (4 + n)
  (0x40000 + 0x400 * bitsOf w 16 6, 0x400 * bitsOf w 24 7)

/-! ### Slot holders (R337, R339) -/

/-- The value a holder has in W2.OWN. -/
def ownHost : Nat := 0
def ownThread : Nat := 1
def ownLine : Nat := 2

/-- W2.OWN of slot `g`. -/
def State.slotOwn (s : State) (g : Nat) : Nat := bitsOf (s.slotWord g 2) 14 2

/-- W2.OTHR of slot `g`, a pan-local thread. -/
def State.slotThr (s : State) (g : Nat) : Nat := bitsOf (s.slotWord g 2) 11 3

/-- Slot `g` passed to a holder. -/
def State.passSlot (s : State) (g own othr : Nat) : State :=
  s.putSlotWord g 2 (putBits (putBits (s.slotWord g 2) 14 2 own) 11 3 othr)

/-- Slot `g` is held by thread `t`. -/
def State.slotHeldBy (s : State) (g : Nat) (t : Fin 8) : Bool :=
  s.slotOwner g == s.thrOwner t && s.slotOwn g == ownThread && s.slotThr g == s.thrLocal t

/-- The producer or consumer code of a thread (R342, R355): 8 + its pan-local number. -/
def State.thrCode (s : State) (t : Fin 8) : Nat := 8 + s.thrLocal t

/-- The thread that a producer or consumer code of pan `n` names. -/
def State.codeThread (s : State) (n : Fin 4) (c : Nat) : Option (Fin 8) :=
  if c < 8 then none else ((s.panThreads n)[c - 8]?).map (idx 8)

/-! ### Queues and FIFOs (chapter 9) -/

def TxQueue.en (q : TxQueue) : Bool := bitOf q.ctl 0
def TxQueue.sorted (q : TxQueue) : Bool := bitOf q.ctl 1
def TxQueue.port (q : TxQueue) : LinePort := if bitOf q.ctl 2 then .pair else .plc
def TxQueue.lgasp (q : TxQueue) : Bool := bitOf q.ctl 4
def TxQueue.report (q : TxQueue) : Nat := bitsOf q.ctl 5 2
def TxQueue.rlim (q : TxQueue) : Nat := bitsOf q.ctl 8 4
def TxQueue.prod (q : TxQueue) : Nat := bitsOf q.ctl 12 4
def TxQueue.src (q : TxQueue) : Nat := bitsOf q.ctl 16 7
def TxQueue.base (q : TxQueue) : Nat := bitsOf q.ring 0 11
def TxQueue.depth (q : TxQueue) : Nat := bitsOf q.ring 16 8
def RxFifo.en (q : RxFifo) : Bool := bitOf q.ctl 0
def RxFifo.overwrite (q : RxFifo) : Bool := bitOf q.ctl 1
def RxFifo.cons (q : RxFifo) : Nat := bitsOf q.ctl 4 4
def RxFifo.wm (q : RxFifo) : Nat := bitsOf q.ctl 8 8
def RxFifo.src (q : RxFifo) : Nat := bitsOf q.ctl 16 7
def RxFifo.base (q : RxFifo) : Nat := bitsOf q.ring 0 11
def RxFifo.depth (q : RxFifo) : Nat := bitsOf q.ring 16 8
def RxFifo.level (q : RxFifo) : Nat := q.frames.length

/-- The slot an open item fills, if it is not marked refused. -/
def TxQueue.filling (q : TxQueue) : Option Nat := q.opened.bind OpenItem.slot

/-- TQn_STAT.LEVEL (R353). -/
def TxQueue.level (q : TxQueue) : Nat := q.filling.toList.length + q.items.length

/-- The slots of an enabled ring, global numbers in ring order. -/
def State.ringSlots (s : State) (n : Fin 4) (base depth : Nat) : List Nat :=
  (List.range depth).filterMap fun k => s.slotGlobal n (base + k)

/-- The ring slots of a queue that hold no item (FREE). -/
def State.freeSlots (s : State) (n : Fin 4) (q : TxQueue) : List Nat :=
  if q.en then
    (s.ringSlots n q.base q.depth).filter fun g =>
      !(q.filling == some g || (q.items.any fun i => i.slot == g) || q.done.contains g)
  else []

/-- A thread's charge (R450): slots it holds, items of queues it produces for, slots of TX entries it armed. -/
def State.charge (s : State) (t : Fin 8) : Nat :=
  let n := s.thrOwner t
  let held := ((s.panUnits n).flatMap fun u => (List.range 32).map (32 * u + ·)).filter fun g => s.slotHeldBy g t
  let tq := s.pans[n].tq.toList.map fun q => if q.prod = s.thrCode t then q.level + q.done.length else 0
  let sch := s.sched.ent.toList.filter fun e => e.armedBy == some t && e.slot.isSome
  let fired := s.sched.fired.filter fun x => x.armedBy == some t
  held.length + tq.sum + sch.length + fired.length

/-- A thread's limit (R451). -/
def State.limit (s : State) (t : Fin 8) : Nat :=
  let n := s.thrOwner t
  let th := s.eng.thr[t]
  let reserved := ((s.panThreads n).map fun u =>
    let x := s.eng.thr[idx 8 u]
    if x.state = .halted then 0 else x.quota.toNat).sum
  if th.qdyn then th.quota.toNat + (s.panSlots n - reserved) else th.quota.toNat

end Sys2Proof.Machine
end

