-- ==== Sys2Proof/Machine/Operands.lean ====
section
/-! DEFINITION. Operand forms: the registers an instruction names, and a frame as a slot holds it. -/

namespace Sys2Proof

open Machine

namespace Machine

/-- A g register: g0 reads zero (R437). -/
def State.gReg (s : State) (t : Fin 8) (n : Fin 16) : Word := if n = 0 then 0 else s.eng.thr[t].g[n]

/-- A g register written: a write to g0 is discarded (R480). -/
def State.putG (s : State) (t : Fin 8) (n : Fin 16) (v : Word) : State :=
  if n = 0 then s else s.updThr t fun th => { th with g := th.g.set n.val v n.isLt }

/-- A register operand of formats A, I and B (R479). -/
def State.reg (s : State) (t : Fin 8) : Reg → Word
  | .g n => s.gReg t n
  | .s n => s.pans[s.thrOwner t].sreg[n]

/-- A register result of formats A, I and B (R479, R453). -/
def State.putReg (s : State) (t : Fin 8) (r : Reg) (v : Word) : State :=
  match r with
  | .g n => s.putG t n v
  | .s n => s.updPan (s.thrOwner t) fun p => { p with sreg := p.sreg.set n.val v n.isLt }

end Machine

/-- The index of a party in the tables that hold something per party: port A 0, port B 1, thread t 2 + t. -/
def Party.ix : Party → Fin 10
  | .host .a => 0
  | .host .b => 1
  | .thread t => ⟨2 + t.val, by omega⟩

namespace Machine

/-- The pan a thread party belongs to; a host reaches the pan of its window. -/
def State.partyPan (s : State) (p : Party) (w : Fin 4) : Fin 4 :=
  match p with
  | .host _ => w
  | .thread t => s.thrOwner t

/-! ### Frames and slots (Table 9-2) -/

/-- The data word of four bytes, the first in the low bits (R98, R336). -/
def wordOfBytes (bs : List Byte) : Word :=
  (bs[3]?.getD 0) ++ (bs[2]?.getD 0) ++ (bs[1]?.getD 0) ++ (bs[0]?.getD 0)

/-- The four bytes of a word, low bits first. -/
def bytesOfWord (w : Word) : List Byte :=
  [w.extractLsb' 0 8, w.extractLsb' 8 8, w.extractLsb' 16 8, w.extractLsb' 24 8]

/-- The data bytes as `n` words, zero beyond them. -/
def wordsOfBytes (bs : List Byte) (n : Nat) : List Word := (List.range n).map fun k => wordOfBytes (bs.drop (4 * k))

/-- How many data words LEN takes. -/
def dataWords (len : Nat) : Nat := (len + 3) / 4

end Machine

/-- W0 of a frame. -/
def Frame.w0 (f : Frame) : Word := field 0 f.id.toNat ||| flag 29 f.xtd ||| flag 30 f.rmt ||| flag 31 f.iso

/-- W1 of a frame with a retry limit. -/
def Frame.w1 (f : Frame) (rlim : Nat) : Word :=
  field 0 (f.len % 128) ||| flag 7 f.brs ||| field 8 f.seq.toNat ||| flag 12 f.more ||| flag 13 f.stamp |||
    flag 14 f.roll ||| flag 15 f.esi ||| field 16 (rlim % 16)

namespace Machine

/-- The bytes of `n` words of a slot from word `w`. -/
def State.slotBytes (s : State) (g w n : Nat) : List Byte :=
  (List.range n).flatMap fun k => bytesOfWord (s.slotWord g (w + k))

/-- The frame that slot `g` holds. -/
def State.slotFrame (s : State) (g : Nat) : Frame :=
  let w0 := s.slotWord g 0
  let w1 := s.slotWord g 1
  let len := min 64 (bitsOf w1 0 7)
  { id := BitVec.ofNat 29 (bitsOf w0 0 29), xtd := bitOf w0 29, rmt := bitOf w0 30, iso := bitOf w0 31
    brs := bitOf w1 7, esi := bitOf w1 15, seq := BitVec.ofNat 4 (bitsOf w1 8 4)
    roll := bitOf w1 14, stamp := bitOf w1 13, more := bitOf w1 12
    len := len, data := if bitOf w0 30 then [] else (s.slotBytes g 8 16).take len }

end Machine

/-- CLASS, TOPIC and SOURCE of a native identifier (R89). -/
def Frame.cls (f : Frame) : Nat := bitsOf f.id 13 3
def Frame.topic (f : Frame) : Nat := bitsOf f.id 6 7
def Frame.source (f : Frame) : Nat := bitsOf f.id 0 6

/-- Data bytes `k` to `k + n - 1` as a big-endian number. -/
def Frame.be (f : Frame) (k n : Nat) : Nat := ((f.data.drop k).take n).foldl (fun a b => 256 * a + b.toNat) 0

namespace Machine

/-- A number as `n` big-endian bytes. -/
def beBytes (v : Nat) : Nat → List Byte
  | 0 => []
  | n + 1 => BitVec.ofNat 8 (v >>> (8 * n)) :: beBytes v n

/-! ### Instants (R175) -/

/-- Ticks of one second. -/
def ticksPerSec : Nat := 200000000

end Machine

/-- An instant as ticks since 0:0. -/
def Instant.ticks (i : Instant) : Nat := i.sec.toNat * ticksPerSec + i.tick.toNat

namespace Machine

/-- The instant of a number of ticks, modulo the range of tide time. -/
def instantOf (n : Int) : Instant :=
  let m := (n % (4294967296 * ticksPerSec : Nat)).toNat
  ⟨BitVec.ofNat 32 (m / ticksPerSec), BitVec.ofNat 28 (m % ticksPerSec)⟩

/-- The whole range of tide time in ticks. -/
def tideRange : Nat := 4294967296 * ticksPerSec

/-- A difference of two instants, centred on zero modulo the range of tide time. -/
def centred (d : Int) : Int :=
  let m := d % (tideRange : Int)
  if (tideRange : Int) ≤ 2 * m then m - tideRange else m

/-- Tide time now. -/
def State.now (s : State) : Instant := ⟨s.tide.sec, s.tide.tick⟩

end Machine

end Sys2Proof
end

