-- ==== Sys2Proof/Machine/Irq.lean ====
section
/-! DEFINITION. The interrupt controller's operations, the threads' events and the ends of their waits, the pans' faults. -/

namespace Sys2Proof

open Machine

namespace Machine

def State.updIrq (s : State) (f : Irq → Irq) : State := { s with irq := f s.irq }

/-! ### Service, pending, deliverable (R546) -/

/-- Source `k` is in service at some target. -/
def Irq.inService (q : Irq) (k : Fin 128) : Bool :=
  (q.stack.toList.any fun st => st.any fun e => e.src.toNat == k.val) || (q.eng.toList.any fun o => o == some (BitVec.ofFin k))

/-- A host target's running level (R551). -/
def Irq.running (q : Irq) (h : Fin 2) : Nat := ((q.stack[h]).head?.map fun e => e.level.toNat).getD 0

/-- The target mask bit `x` of source `k` is one R302 allows. -/
def State.maskAllowed (s : State) (k x : Nat) : Bool :=
  let n := s.srcOwner k
  match x with
  | 0 => s.panPort n == .a
  | 1 => s.panPort n == .b
  | x + 2 => s.thrOwner x == n

/-- The mask of source `k` as it acts: forbidden bits have no effect (R302). -/
def State.maskOf (s : State) (k : Fin 128) : BitVec 10 :=
  (List.range 10).foldl (fun m x => if s.maskAllowed k x then m else putBit m x false) s.irq.mask[k]

/-- A hold-off group holds target `x` for source `k` (R558). -/
def State.heldFor (s : State) (k : Fin 128) (x : Fin 10) : Bool :=
  bitOf s.irq.hgen k && s.hgOwner s.irq.hg[k].toNat == s.srcOwner k && bitOf s.irq.held[idx 8 s.irq.hg[k].toNat] x

/-- Source `k` is pending at target `x` (R546). -/
def State.pendingAt (s : State) (x : Fin 10) (k : Fin 128) : Bool :=
  bitOf s.irq.pend k && bitOf (s.maskOf k) x && !s.heldFor k x

/-- Source `k` is deliverable at target `x` with the enable bits `en` (R546, R551). -/
def State.deliverable (s : State) (en : BitVec 128) (x : Fin 10) (k : Fin 128) : Bool :=
  s.pendingAt x k && bitOf en k &&
    (if x.val < 2 then
      let h : Fin 2 := idx 2 x
      s.irq.thld[h].toNat < s.irq.prio[k].toNat && s.irq.running h < s.irq.prio[k].toNat
    else true)

/-- The sources deliverable at a target, rising. -/
def State.deliverables (s : State) (en : BitVec 128) (x : Fin 10) : List (Fin 128) :=
  if s.irq.pend = 0 then [] else (List.finRange 128).filter fun k => s.deliverable en x k

/-- The engine target of thread `t`. -/
def engTarget (t : Fin 8) : Fin 10 := ⟨2 + t.val, by omega⟩

/-- IRQx_N is low (R552). -/
def State.irqLow (s : State) (h : Fin 2) : Bool := !(s.deliverables s.irq.en ⟨h.val, by omega⟩).isEmpty

/-! ### Events and waits (R448, R449) -/

/-- Bits of the thread events (Table 12-3). -/
def evIrq : Nat := 0
def evInbox : Nat := 1
def evCpl : Nat := 2
def evTide : Nat := 3
def evChild : Nat := 4

/-- The events pending for thread `t`. -/
def State.events (s : State) (t : Fin 8) : Byte :=
  let inbox := s.pans[s.thrOwner t].rxf.toList.any fun q => q.en && q.cons == s.thrCode t && q.wm ≤ q.level
  putBit (putBit (s.eng.thr[t].ev &&& 0x1C) evIrq (!(s.deliverables s.irq.en (engTarget t)).isEmpty)) evInbox inbox

/-- The wait of thread `t` ends with a result in rd: the thread runs on, ready 8 cycles later (Table 12-1), or returns to DEBUG after a
stepped wait (R466). -/
def State.endWait (s : State) (t : Fin 8) (rd : Fin 16) (v : Word) : State :=
  (s.putG t rd v).updThr t fun th =>
    { th with state := if th.stepping then .debug else .running, stepping := false, waitOn := none, readyAt := s.eng.tnow + 8 }

/-- The events a wait returns; those a wait clears are cleared (Table 12-3). -/
def State.takeEvents (s : State) (t : Fin 8) : Byte × State :=
  let e := s.events t &&& s.eng.thr[t].evm
  (e, s.updThr t fun th => { th with ev := th.ev &&& ~~~ e })

/-- A wait for events ends when a selected event is pending. -/
def State.checkWait (s : State) (t : Fin 8) : State :=
  match s.eng.thr[t].state, s.eng.thr[t].waitOn with
  | .waiting, some (.events rd) =>
    let r := s.takeEvents t
    if r.1 = 0 then s else r.2.endWait t rd (r.1.setWidth 32)
  | _, _ => s

/-- Every wait for events is checked. -/
def State.settleWaits (s : State) : State := (List.finRange 8).foldl State.checkWait s

/-- An edge event of a thread is set (R448). -/
def State.setEvent (s : State) (t : Fin 8) (b : Nat) : State :=
  (s.updThr t fun th => { th with ev := putBit th.ev b true }).checkWait t

/-! ### Arrivals (R542) -/

/-- An arrival at source `k`, before any wait ends by it. -/
def Irq.arrive (q : Irq) (k : Fin 128) : Irq :=
  if !(bitOf q.pend k || q.inService k) then { q with pend := putBit q.pend k true }
  else if q.cnt[k] = 15 then { q with ovf := putBit q.ovf k true }
  else { q with cnt := tabUpd q.cnt k (· + 1) }

/-- An arrival at source `k`. A number that is no source arrives nowhere (R539); while the core is stopped the arrival waits
for it (R788, R802, R805). -/
def State.arrive (s : State) (k : Nat) : State :=
  if !srcExists k then s
  else if s.coreRuns then (s.updIrq fun q => q.arrive (idx 128 k)).settleWaits
  else s.updIrq fun q => { q with deferred := q.deferred ++ [k] }

/-- The core runs again: the arrivals that waited take place, oldest first. -/
def State.flushDeferred (s : State) : State :=
  s.irq.deferred.foldl State.arrive (s.updIrq fun q => { q with deferred := [] })

/-- A PAN_FAULT bit of pan `n` is set: one arrival at its fault source (R741). -/
def State.panFault (s : State) (n : Fin 4) (b : Nat) : State :=
  (s.updPan n fun p => { p with fault := putBit p.fault b true }).arrive (24 + n)

/-- The bits of PAN_FAULT (Table 22-3). -/
def fltAccess : Nat := 0
def fltCap : Nat := 1
def fltKey : Nat := 2
def fltWindow : Nat := 3
def fltOrder : Nat := 4
def fltRst : Nat := 5
def fltBrk : Nat := 6

/-- The same fault in several pans. -/
def State.panFaults (s : State) (ns : List (Fin 4)) (b : Nat) : State := ns.foldl (fun s n => s.panFault n b) s

/-- PAN_STAT.OWNREF of pan `n` is set (R339). -/
def State.ownRef (s : State) (n : Fin 4) : State := s.updPan n fun p => { p with ownRef := true }

/-! ### Claims and completions (R547-R549, R553, R554) -/

/-- A core cycle goes by: what is deliverable at each target has been deliverable there since its last claim (R548). -/
def State.noteSeen (s : State) : State :=
  if s.irq.pend = 0 then s
  else s.updIrq fun q => { q with seen := tabMapIdx q.seen fun y m =>
    (s.deliverables s.irq.en (idx 10 y)).foldl (fun m k => putBit m k.val true) m }

/-- The other targets at which `k` is deliverable, or was since their last claim, lose it (R548). -/
def State.noteLost (s : State) (x : Fin 10) (k : Fin 128) : State :=
  let lost := (List.finRange 10).foldl
    (fun m y => if y != x && (s.deliverable s.irq.en y k || bitOf s.irq.seen[y] k.val) then putBit m y.val true else m) s.irq.lost
  s.updIrq fun q => { q with lost := putBit lost x.val false, seen := q.seen.set x.val 0 x.isLt }

/-- A claim of `k` at `x` starts the hold of its group (R558). -/
def Irq.startHold (q : Irq) (x : Fin 10) (k : Fin 128) (own : Bool) : Irq :=
  let hg := idx 8 q.hg[k].toNat
  if bitOf q.hgen k && own && q.space[hg] != 0 then { q with held := tabUpd q.held hg fun m => putBit m x.val true } else q

/-- `k` is claimed at `x`: it leaves pending, the losers are noted, its group holds the target. -/
def State.takeSource (s : State) (x : Fin 10) (k : Fin 128) : State :=
  (s.noteLost x k).updIrq fun q =>
    ({ q with pend := putBit q.pend k false }).startHold x k (s.hgOwner q.hg[k].toNat == s.srcOwner k)

/-- A claim with nothing deliverable: 127 when a source was lost to another target, else 0; the record starts afresh. -/
def State.emptyClaim (s : State) (x : Fin 10) : Word × State :=
  (if bitOf s.irq.lost x then 127 else 0, s.updIrq fun q => { q with lost := putBit q.lost x.val false, seen := q.seen.set x.val 0 x.isLt })

/-- The enable bits a claim sees: those of 8 core cycles ago (R550). -/
def Irq.claimEn (q : Irq) : BitVec 128 := q.enHist[7]

/-- The best of the deliverable sources for a host target: the highest priority, ties to the lower number. -/
def bestSource (q : Irq) : List (Fin 128) → Option (Fin 128)
  | [] => none
  | k :: ks =>
    match bestSource q ks with
    | none => some k
    | some j => if q.prio[k] < q.prio[j] then some j else some k

/-- A claim at a host target (R547, R553). -/
def State.hostClaim (s : State) (h : Fin 2) : Word × State :=
  let x : Fin 10 := ⟨h.val, by omega⟩
  match bestSource s.irq (s.deliverables s.irq.claimEn x) with
  | none => s.emptyClaim x
  | some k =>
    (BitVec.ofNat 32 k.val, (s.takeSource x k).updIrq fun q =>
      { q with stack := tabUpd q.stack h fun st => ⟨BitVec.ofFin k, q.prio[k]⟩ :: st })

/-- A claim at an engine target: the lowest-numbered deliverable source (R547, R527). -/
def State.engClaim (s : State) (t : Fin 8) : Word × State :=
  let x := engTarget t
  match s.deliverables s.irq.claimEn x with
  | [] => s.emptyClaim x
  | k :: _ =>
    (BitVec.ofNat 32 k.val, (s.takeSource x k).updIrq fun q => { q with eng := q.eng.set t.val (some (BitVec.ofFin k)) t.isLt })

/-- A source that leaves service by completion acts on its count (R549). -/
def Irq.complete (q : Irq) (k : Fin 128) : Irq :=
  if q.cnt[k] = 0 then q else { q with cnt := tabUpd q.cnt k (· - 1), pend := putBit q.pend k true }

/-- The top of a host target's stack is popped and completes. -/
def Irq.pop (q : Irq) (h : Fin 2) : Irq :=
  match q.stack[h] with
  | [] => q
  | e :: st => ({ q with stack := q.stack.set h.val st h.isLt }).complete (idx 128 e.src.toNat)

/-- The port of a host target. -/
def portOf (h : Fin 2) : HostPort := if h = 0 then .a else .b

end Machine

/-- The host target of a port. -/
def HostPort.ix : HostPort → Fin 2
  | .a => 0
  | .b => 1

namespace Machine

/-- A completion out of order at a host target (R554). -/
def State.orderFault (s : State) (h : Fin 2) : State :=
  let s1 := s.updIrq fun q => { q with ord := q.ord.set h.val true h.isLt }
  if s.panPort 0 = portOf h then s1.arrive 5 else s1.panFaults (s.portPans (portOf h)) fltOrder

/-- A completion at a host target of the source `v[6:0]` (R554). -/
def State.hostDone (s : State) (h : Fin 2) (v : Word) : State :=
  match s.irq.stack[h] with
  | e :: _ => if e.src.toNat = bitsOf v 0 7 then (s.updIrq fun q => q.pop h).settleWaits else s.orderFault h
  | [] => s.orderFault h

/-- Every entry of a host target's stack completes from the top down (R721). -/
def State.unwind (s : State) (h : Fin 2) : State :=
  (s.updIrq fun q => (List.range 15).foldl (fun q _ => q.pop h) q).settleWaits

/-- The source in service at a thread's engine target completes (R557). -/
def State.engComplete (s : State) (t : Fin 8) : State :=
  match s.irq.eng[t] with
  | none => s
  | some k => (s.updIrq fun q => ({ q with eng := q.eng.set t.val none t.isLt }).complete (idx 128 k.toNat)).settleWaits

/-! ### Bits of the sources (R543, R544) -/

/-- IC_PEND_CLR of one source: pending bit, count and OVF are cleared. -/
def Irq.clearSource (q : Irq) (k : Fin 128) : Irq :=
  { q with pend := putBit q.pend k false, ovf := putBit q.ovf k false, cnt := q.cnt.set k.val 0 k.isLt }

/-- A source returned to its reset state (R317, R561); a fault source keeps its routing (R317). -/
def Irq.resetSource (q : Irq) (k : Fin 128) : Irq :=
  let q1 := q.clearSource k
  if 24 ≤ k.val ∧ k.val < 28 then q1
  else { q1 with en := putBit q1.en k false, prio := q1.prio.set k.val 0 k.isLt, mask := q1.mask.set k.val 0 k.isLt
                 hg := q1.hg.set k.val 0 k.isLt, hgen := putBit q1.hgen k false }

/-- A hold-off group returned to its reset state. -/
def Irq.resetGroup (q : Irq) (g : Fin 8) : Irq :=
  { q with space := q.space.set g.val 0 g.isLt, held := q.held.set g.val 0 g.isLt }

/-- The bits of word `w` of a pan's sources that `v` carries. -/
def State.srcBits (s : State) (n : Fin 4) (w : Fin 4) (v : Word) : List (Fin 128) :=
  (List.range 32).filterMap fun b =>
    if bitOf v b && s.panSrc n (32 * w + b) then some (idx 128 (32 * w + b)) else none

/-- IC_PEND_SET: each 1 is an arrival (R541). -/
def State.pendSet (s : State) (ks : List (Fin 128)) : State := ks.foldl (fun s k => s.arrive k.val) s
/-- IC_PEND_CLR (R543). -/
def State.pendClr (s : State) (ks : List (Fin 128)) : State := s.updIrq fun q => ks.foldl Irq.clearSource q
/-- IC_EN_SET (R544). -/
def State.enSet (s : State) (ks : List (Fin 128)) : State :=
  (s.updIrq fun q => { q with en := ks.foldl (fun m k => putBit m k.val true) q.en }).settleWaits
/-- IC_EN_CLR (R544). -/
def State.enClr (s : State) (ks : List (Fin 128)) : State :=
  s.updIrq fun q => { q with en := ks.foldl (fun m k => putBit m k.val false) q.en }

/-- One core cycle for the enable bits a claim sees (R550). -/
def Irq.ageEn (q : Irq) : Irq :=
  { q with enHist := ⟨⟨q.en :: q.enHist.toList.take 7⟩, by simp⟩ }

/-- A doorbell rung by pan `n`: a number that is not a doorbell source of the pan is ignored with PAN_FAULT.ACCESS (R559). -/
def State.doorbell (s : State) (n : Fin 4) (k : Nat) : State :=
  if 96 ≤ k && k ≤ 119 && s.srcOwner k == n then s.arrive k else s.panFault n fltAccess

end Machine

end Sys2Proof
end

