-- ==== Sys2Proof/Machine/Timing.lean ====
section
/-! DEFINITION. Bit times, frame durations and the bits of a frame on the wire (chapters 2, 3, 24). Times in nanoseconds. -/

namespace Sys2Proof

open Machine

namespace Machine

/-- The pair port runs ISO mode. -/
def State.isoMode (s : State) : Bool := bitOf s.line.pairCtl 1

/-- PLC_CTL.ARATE = 1: 62.5 kbit/s compensated; 31.25 kbit/s whatever ARATE holds while the pair port is the string port (R23). -/
def State.compensated (s : State) : Bool := bitOf s.line.plcCtl 1 && !bitOf s.tide.ctl 0

/-- PLC_STAT.DRLIM: C1 and C6 hold the data phase at 125 kbit/s (R45). -/
def State.drlim (s : State) : Bool := bitOf s.line.plcCtl 2 && (s.line.plan == 1 || s.line.plan == 6)

/-- The data phase on the PLC port runs at 250 kbit/s. -/
def State.fastData (s : State) : Bool := bitOf s.line.plcCtl 2 && !s.drlim

/-- Arbitration bit time of PAIR_BT (R67). -/
def pairTa (bt : Word) : Nat := (1 + bitsOf bt 5 7 + bitsOf bt 12 5 + bitsOf bt 17 5) * (bitsOf bt 0 5 + 1) * 20

/-- Data bit time of PAIR_DBT (R67). -/
def pairTd (dbt : Word) : Nat := (1 + bitsOf dbt 5 6 + bitsOf dbt 11 5) * (bitsOf dbt 0 5 + 1) * 20

/-- The arbitration bit time of a port. -/
def State.ta (s : State) : LinePort → Nat
  | .plc => if s.compensated then 16000 else 32000
  | .pair => pairTa s.line.pairBt

/-- The data bit time of a port. -/
def State.td (s : State) : LinePort → Nat
  | .plc => if s.fastData then 4000 else 8000
  | .pair => pairTd s.line.pairDbt

/-- One symbol time of the PLC data phase, the reference symbol (R47); none on the pair port. -/
def State.tref (s : State) : LinePort → Nat
  | .plc => 2 * s.td .plc
  | .pair => 0

/-- `a` rounded up to a multiple of `b`. -/
def roundUp (a b : Nat) : Nat := (a + b - 1) / b * b

end Machine

/-- A frame is a SOUND request (R119). -/
def Frame.isSoundReq (f : Frame) : Bool :=
  !f.iso && f.cls == 0 && f.topic == 1 && f.len == 1 && !bitOf (f.data.headD 0) 6

namespace Machine

/-- The echo slot (R69). -/
def State.echoNs (s : State) (port : LinePort) (f : Frame) : Nat :=
  if f.isSoundReq then (match port with | .plc => 2 | .pair => 8) * s.ta port else 0

/-- The roll slot of frames this controller sends: keeper roll on the string port while it sends tide, else open roll (R23, R114). -/
def State.rollNs (s : State) (port : LinePort) : Nat :=
  match s.tide.sending && port == (if bitOf s.tide.ctl 0 then .pair else .plc), port with
  | true, .plc => 2000
  | true, .pair => 400
  | false, .plc => 20 * bitsOf s.line.rollSlot 0 11
  | false, .pair => 20 * bitsOf s.line.rollSlot 16 11

/-- The roll window, in whole arbitration bits (R113). -/
def State.windowNs (s : State) (port : LinePort) (f : Frame) : Nat :=
  if f.roll then roundUp (64 * s.rollNs port) (s.ta port) else 0

/-- From SOF to the end of the ACK delimiter of a native frame, with `sa` arbitration-phase and `sd` data-phase stuff bits
(R68, "Frame duration"). -/
def State.toAckEnd (s : State) (port : LinePort) (f : Frame) (sa sd : Nat) : Nat :=
  let ta := s.ta port
  let nd := 38 + 8 * f.len + sd
  if f.brs then
    let pad := match port with | .plc => nd % 2 | .pair => 0
    let t := (19 + sa) * ta + s.tref port + (nd + pad) * s.td port
    let delim := match port with
      | .plc => if s.compensated then roundUp (t + ta) ta else t + ta
      | .pair => t + ta
    delim + 2 * ta
  else (19 + sa + nd + 3) * ta

/-- The longest duration of a native frame with its IFS: the largest stuff counts of R100. -/
def State.longestNative (s : State) (port : LinePort) (f : Frame) : Nat :=
  let b := 38 + 8 * f.len
  let n := if f.brs then s.toAckEnd port f 3 (1 + (b - 1) / 5) else s.toAckEnd port f 3 ((18 + b) / 5 - 3)
  n + s.echoNs port f + s.windowNs port f + 10 * s.ta port

end Machine

/-- An ISO frame is an FD frame: bit 0 of the sequence field holds FDF (R817). -/
def Frame.fdf (f : Frame) : Bool := f.iso && bitOf f.seq 0

namespace Machine

/-- The longest duration of an ISO frame (R826). -/
def State.longestIso (s : State) (f : Frame) : Nat :=
  let ta := s.ta .pair
  let len := if f.rmt then 0 else f.len
  if f.fdf then
    let a := if f.xtd then 36 else 17
    let b := 5 + 8 * len
    let sa := (a - 1) / 4
    let sd := (a + b - 1) / 4 - sa
    let crc := if len ≤ 16 then 27 else 32
    (a + sa + 13) * ta + (b + sd + crc) * (if f.brs then s.td .pair else ta)
  else
    let n := (if f.xtd then 54 else 34) + 8 * len
    (n + (n - 1) / 4 + 13) * ta

/-- The longest duration of a frame on a port. -/
def State.longest (s : State) (port : LinePort) (f : Frame) : Nat :=
  if f.iso then s.longestIso f else s.longestNative port f

/-- A pan's whole sealed window (Table 8-2). -/
def State.windowOf (s : State) (n : Fin 4) : Nat := bitsOf (s.allocWord n) 16 16 * 16000

/-- Sealed mode is in force (R309). -/
def State.sealed (s : State) : Bool := s.sys.panLock && bitOf (s.allocWord 36) 31

/-! ### The bits of a native frame (Table 3-1, R99, R101) -/

/-- The low `n` bits of a number, most significant first. -/
def bitsMsb (v : Nat) : Nat → List Bool
  | 0 => []
  | n + 1 => v.testBit n :: bitsMsb v n

end Machine

/-- SOF, ID, VER, BRS: the arbitration phase unstuffed, true for recessive. -/
def Frame.arbBits (f : Frame) : List Bool := false :: bitsMsb (bitsOf f.id 0 16) 16 ++ [false, f.brs]

/-- LEN, SEQ, FLAGS and DATA unstuffed. -/
def Frame.dataBits (f : Frame) : List Bool :=
  bitsMsb f.len 7 ++ bitsMsb f.seq.toNat 4 ++ [f.roll, f.stamp, f.more] ++ f.data.flatMap fun b => bitsMsb b.toNat 8

namespace Machine

/-- One bit through CRC-24 (Table 3-3). -/
def crc24Step (c : BitVec 24) (b : Bool) : BitVec 24 :=
  let sh := c <<< 1
  if b != c.getLsbD 23 then sh ^^^ 0x864CFB#24 else sh

/-- Bits through CRC-24. -/
def crc24Bits (c : BitVec 24) (bs : List Bool) : BitVec 24 := bs.foldl crc24Step c

end Machine

/-- The CRC of a frame (R101). -/
def Frame.crc (f : Frame) : BitVec 24 := crc24Bits 0xB704CE#24 (f.arbBits ++ f.dataBits)

namespace Machine

/-- The stuff bits inserted into the bits that follow a run of `run` bits equal to `last` (R99): their number, and the run
that stands at the end. -/
def stuffCount (last : Bool) (run : Nat) : List Bool → Nat × Bool × Nat
  | [] => (0, last, run)
  | b :: bs =>
    let run' := if b == last then run + 1 else 1
    if run' = 6 then
      let r := stuffCount (!b) 1 bs
      (r.1 + 1, r.2)
    else stuffCount b run' bs

end Machine

/-- Stuff bits of the arbitration phase and of the data phase of a native frame. -/
def Frame.stuff (f : Frame) : Nat × Nat :=
  let a := stuffCount true 0 f.arbBits
  let d := stuffCount a.2.1 a.2.2 (f.dataBits ++ bitsMsb f.crc.toNat 24)
  (a.1, d.1)

namespace Machine

/-- E: the nominal time from SOF to the end of the ACK delimiter (R68). -/
def State.nominalE (s : State) (port : LinePort) (f : Frame) : Nat := s.toAckEnd port f f.stuff.1 f.stuff.2

end Machine

end Sys2Proof
end

