-- ==== Sys2Proof/Machine/Queues.lean ====
section
/-! DEFINITION. Transmit queues, their items and completions, receive FIFOs, mailboxes, slot holders (chapter 9). -/

namespace Sys2Proof.Machine

/-! ### Status codes (Table 9-6) -/

def stSent : Nat := 1
def stSentLate : Nat := 2
def stExpired : Nat := 3
def stAborted : Nat := 4
def stRetry : Nat := 5
def stUnacked : Nat := 6
def stFlushed : Nat := 7
def stSluiced : Nat := 9
def stRefused : Nat := 10
def stTruncated : Nat := 11
def stBadLen : Nat := 12
def stMissed : Nat := 13
def stAccepted : Nat := 15

/-- A count in byte `k` of TQn_CNT, saturating (R353). -/
def incCnt (w : Word) (k : Nat) : Word := if bitsOf w (8 * k) 8 = 255 then w else putBits w (8 * k) 8 (bitsOf w (8 * k) 8 + 1)

def TxQueue.incTrunc (q : TxQueue) : TxQueue := { q with trunc := satInc8 q.trunc }

/-- The outcome of a COMMIT or fput as the queue records it: LAST, and the counts of refusals (R353). -/
def TxQueue.outcome (q : TxQueue) (c : Nat) : TxQueue :=
  let q1 := { q with last := BitVec.ofNat 5 c }
  if c = stRefused then { q1 with cnt := incCnt q1.cnt 0 } else if c = stBadLen then { q1 with cnt := incCnt q1.cnt 1 }
  else if c = stTruncated then q1.incTrunc else q1

/-- A party is the producer of a queue of pan `n` (R342). -/
def State.isCode (s : State) (n : Fin 4) (p : Party) (code : Nat) : Bool :=
  match p with
  | .host h => code == 0 && s.panPort n == h
  | .thread t => s.thrOwner t == n && code == s.thrCode t

def State.tq (s : State) (n q : Fin 4) : TxQueue := s.pans[n].tq[q]
def State.rxf (s : State) (n q : Fin 4) : RxFifo := s.pans[n].rxf[q]

/-! ### Items (R348-R350, R816, R817) -/

def OpenItem.ext (i : OpenItem) : Bool := bitOf i.hdr 31
/-- C0 of an ISO item. -/
def OpenItem.c0 (i : OpenItem) : Word := if i.iso then i.words.headD 0 else 0
/-- The words after C0. -/
def OpenItem.rest (i : OpenItem) : List Word := if i.iso then i.words.drop 1 else i.words
def OpenItem.x0 (i : OpenItem) : Word := if i.ext then i.rest.headD 0 else 0
def OpenItem.dlv (i : OpenItem) : Bool := bitOf i.x0 31
def OpenItem.tail (i : OpenItem) : List Word := if i.ext then i.rest.drop 1 else i.rest
def OpenItem.len (i : OpenItem) : Nat := if i.iso then bitsOf i.c0 0 7 else bitsOf i.hdr 16 7
def OpenItem.rmt (i : OpenItem) : Bool := i.iso && bitOf i.hdr 30
def OpenItem.dataWords (i : OpenItem) : List Word := if i.dlv then i.tail.drop 2 else i.tail

/-- How many words the item requires after the header (R348, R816). -/
def OpenItem.need (i : OpenItem) : Nat :=
  (if i.iso then 1 else 0) + (if i.ext then 1 else 0) + (if i.dlv then 2 else 0) + (if i.rmt then 0 else Machine.dataWords i.len)

/-- The item as a frame, with the node's address as SOURCE (R91). -/
def State.itemFrame (s : State) (i : OpenItem) : Frame :=
  let data := (i.dataWords.flatMap bytesOfWord).take (min 64 i.len)
  if i.iso then
    { id := BitVec.ofNat 29 (bitsOf i.hdr 0 29), xtd := bitOf i.hdr 29, rmt := i.rmt, iso := true, brs := bitOf i.c0 8
      esi := false, seq := BitVec.ofNat 4 (bitsOf i.c0 7 1), roll := false, stamp := bitOf i.c0 9, more := false
      len := i.len, data := data }
  else
    { id := BitVec.ofNat 29 (bitsOf i.hdr 6 10 * 64 + s.line.addr.toNat), xtd := false, rmt := false, iso := false
      brs := bitOf i.hdr 23, esi := false, seq := BitVec.ofNat 4 (bitsOf i.hdr 24 4), roll := bitOf i.hdr 30
      stamp := bitOf i.hdr 29, more := bitOf i.hdr 28, len := i.len, data := data }

/-- The item breaks a form rule of its words: X0 bits, deadline ticks, C0 bits, an 11-bit identifier (R348, R817). -/
def OpenItem.badWords (i : OpenItem) : Bool :=
  bitsOf i.x0 4 27 != 0 || (i.dlv && 200000000 ≤ (i.tail.headD 0).toNat) ||
    (i.iso && (bitsOf i.c0 10 22 != 0 || (!bitOf i.hdr 29 && 0x7FF < bitsOf i.hdr 0 29)))

/-- A length that ISO 11898-1 has for the kind of frame (Table 24-1). -/
def isoLen (fd rmt : Bool) (len : Nat) : Bool :=
  len ≤ 8 || (fd && !rmt && [12, 16, 20, 24, 32, 48, 64].contains len)

/-- A native frame breaks a rule of R108 other than a right. -/
def nativeForm (f : Frame) : Bool :=
  decide (64 < f.len) || (f.stamp && decide (f.len < 8)) || (f.roll && !f.stamp) || (f.cls == 0 && decide (1 < f.topic)) ||
    (f.cls == 0 && f.topic == 0 && (f.len != 16 || !f.stamp)) ||
    (f.cls == 0 && f.topic == 1 && (f.len != 1 || f.roll || f.stamp || f.more))

/-- A native frame needs a right that pan `n` lacks: class 0, and class 1 with topics 0-15 (R108). -/
def State.nativeRight (s : State) (n : Fin 4) (f : Frame) : Bool :=
  (f.cls == 0 && (!s.hasCap n .keeper || bitsOf s.tide.keeperReg 0 2 == 0)) ||
    (f.cls == 1 && decide (f.topic < 16) && !s.hasCap n .sluice)

/-- An ISO frame breaks R817. -/
def State.isoForm (s : State) (f : Frame) : Bool :=
  (!f.xtd && decide (0x7FF < f.id.toNat)) || !isoLen f.fdf f.rmt f.len || (f.fdf && !bitOf s.line.pairCtl 2) || (f.brs && !f.fdf) ||
    (f.rmt && (f.fdf || f.stamp)) || (f.stamp && decide (f.len < 8))

/-- A frame breaks a rule of form. -/
def State.badForm (s : State) (f : Frame) : Bool := if f.iso then s.isoForm f else nativeForm f

/-- A frame needs a right its pan lacks. -/
def State.lacksRight (s : State) (n : Fin 4) (f : Frame) : Bool := !f.iso && s.nativeRight n f

/-- In sealed mode the frame does not fit its pan's whole window (R311). -/
def State.tooLong (s : State) (n : Fin 4) (port : LinePort) (f : Frame) : Bool :=
  s.sealed && s.windowOf n < s.longest port f

/-- A slot filled as an accepted item (R350), with its data words. -/
def State.fillSlot (s : State) (n : Fin 4) (g : Nat) (f : Frame) (rlim prod : Nat) (dl : Option Instant) (ws : List Word) : State :=
  let w2 := field 14 ownLine ||| field 11 (prod % 8) ||| field 16 s.pans[n].gen.toNat
  let (w5, w6) := match dl with
    | some d => (flag 31 true ||| field 0 d.tick.toNat, d.sec)
    | none => (0, 0)
  s.putSlotWords g 0 ([f.w0, f.w1 rlim, w2, 0, 0, w5, w6, 0] ++ ws)

/-- The open item's deadline. -/
def OpenItem.deadline (i : OpenItem) : Option Instant :=
  if i.dlv then some ⟨(i.tail[1]?).getD 0, BitVec.ofNat 28 (i.tail.headD 0).toNat⟩ else none

/-- The open item discarded without an outcome by what is not a COMMIT. -/
def TxQueue.dropOpen (q : TxQueue) : TxQueue := { q with opened := none }

/-- A FREE slot, which one the spec leaves open (R348, R356): a free value chooses among several (DESIGN CHOICE, log 7). -/
def State.pickSlot (s : State) (free : List Nat) : Option Nat :=
  match free with
  | [] => none
  | [g] => some g
  | g :: h :: l => (g :: h :: l)[(Config.freeWord s.free).toNat % (l.length + 2)]?

/-- A header word of the producer at TQn_SUBMIT (R348, R365). A thread's store raises no QUOTA (R505 over R452; DEDUCED, log 82). -/
def State.openItem (s : State) (n q : Fin 4) (v : Word) : State :=
  let tq := s.tq n q
  let iso := tq.port == .pair && s.isoMode
  let tq1 := (if tq.opened.isSome then tq.incTrunc else tq).dropOpen
  s.takeFree.updTq n q fun _ => { tq1 with opened := some ⟨s.pickSlot (s.freeSlots n tq1), v, [], iso⟩, preReset := false }

/-- TQn_SUBMIT (R348, R349, R320). -/
def State.submitWord (s : State) (p : Party) (n q : Fin 4) (v : Word) : State :=
  if !s.isCode n p (s.tq n q).prod then s.ownRef n
  else if s.pans[n].rstBusy then s else s.openItem n q v

/-- TQn_SDATA (R348): a word of the open item; dropped when no item is open. At most 36 words are kept, which no item has. -/
def State.sdataWord (s : State) (p : Party) (n q : Fin 4) (v : Word) : State :=
  if !s.isCode n p (s.tq n q).prod then s.ownRef n
  else if s.pans[n].rstBusy then s
  else s.updTq n q fun tq =>
    { tq with opened := tq.opened.map fun i => if i.words.length < 40 then { i with words := i.words ++ [v] } else i }

/-- What a frame offered for a queue gives, `bad` if its words already break R348: the outcome, and the PAN_FAULT bits that its
faults set (R349, R108, R311). -/
def State.frameJudge (s : State) (n : Fin 4) (port : LinePort) (bad : Bool) (f : Frame) : Nat × List Nat :=
  let cap := s.lacksRight n f
  let long := s.tooLong n port f
  (if bad || s.badForm f || cap || long then stBadLen else stAccepted,
    (if cap then [fltCap] else []) ++ if long then [fltWindow] else [])

/-- The outcome of the producer's COMMIT, and the PAN_FAULT bits it sets (R349, R108, R311). -/
def State.judge (s : State) (n q : Fin 4) : Nat × List Nat :=
  let tq := s.tq n q
  if s.pans[n].rstBusy && !tq.preReset then (stRefused, [])
  else match tq.opened with
  | none => (stTruncated, [])
  | some i =>
    if i.slot.isNone then (stRefused, [])
    else if i.words.length < i.need then (stTruncated, [])
    else s.frameJudge n tq.port (i.badWords || decide (i.need < i.words.length)) (s.itemFrame i)

/-- PAN_FAULT bits set in a pan. -/
def State.panFaultBits (s : State) (n : Fin 4) (bits : List Nat) : State := bits.foldl (fun s b => s.panFault n b) s

/-- The outcome word (Table 18-8). -/
def outcomeWord (code level slot : Nat) : Word := field 0 code ||| field 8 level ||| field 16 slot

/-- The accepted item's slot is filled and joins the queue. -/
def State.acceptItem (s : State) (n q : Fin 4) (i : OpenItem) (g : Nat) : State :=
  let tq := s.tq n q
  let rlim := if i.ext then bitsOf i.x0 0 4 else tq.rlim
  (s.fillSlot n g (s.itemFrame i) rlim tq.prod i.deadline i.dataWords).updTq n q fun tq =>
    { tq with items := tq.items ++ [⟨g, .queued, false, none⟩] }

/-- TQn_COMMIT by the producer: the item ends with one outcome (R349). -/
def State.commitItem (s : State) (n q : Fin 4) : Word × State :=
  let r := s.judge n q
  let s1 := s.panFaultBits n r.2
  let i := (s.tq n q).opened
  let s2 := if r.1 = stAccepted then
      match i, i.bind OpenItem.slot with
      | some i, some g => s1.acceptItem n q i g
      | _, _ => s1
    else s1
  let s3 := s2.updTq n q fun tq => { (tq.outcome r.1).dropOpen with preReset := false }
  let slot := if r.1 = stAccepted then ((i.bind OpenItem.slot).map s.slotLocal).getD 0x7FF else 0x7FF
  (outcomeWord r.1 (s3.tq n q).level slot, s3)

/-- TQn_COMMIT (R349): a party other than PROD gets REFUSED_FULL and OWNREF, and the open item stays. -/
def State.commit (s : State) (p : Party) (n q : Fin 4) : Word × State :=
  if s.isCode n p (s.tq n q).prod then s.commitItem n q
  else (outcomeWord stRefused (s.tq n q).level 0x7FF,
    (s.ownRef n).updTq n q fun tq => { tq with cnt := incCnt tq.cnt 0 })

/-! ### Completions (R351-R353, R338) -/

/-- What an attempt leaves in the completion record. -/
structure Record where
  ack : Bool
  echo : Bool
  rollErr : Bool
  port : LinePort
  /-- the SOF launch instant, when the item was launched -/
  sof : Option Instant
  /-- W5 and W6, when the completion replaces the deadline (R338) -/
  words : Option (Word × Word)
  deriving DecidableEq, Repr

/-- The record of an item that completes while it waits: what its last attempt left, if one was made (R351). -/
def Record.waiting (port : LinePort) (last : Option (Instant × Bool)) : Record :=
  ⟨(last.map Prod.snd).getD false, false, false, port, last.map Prod.fst, none⟩

/-- The status fields written to the slot (R351). -/
def State.writeStatus (s : State) (g code : Nat) (r : Record) : State :=
  let w2 := s.slotWord g 2
  let w2 := putBits w2 0 11 0 ||| field 0 code ||| flag 5 r.ack ||| flag 6 r.echo ||| flag 7 r.rollErr |||
    flag 10 (r.port == .pair)
  let s1 := s.putSlotWord g 2 w2
  let s2 := match r.sof with
    | some t => (s1.putSlotWord g 3 (field 0 t.tick.toNat)).putSlotWord g 4 t.sec
    | none => s1
  match r.words with
  | some (a, b) => (s2.putSlotWord g 5 a).putSlotWord g 6 b
  | none => s2

/-- A queue keeps a completion of this status (R351). -/
def TxQueue.keeps (q : TxQueue) (code : Nat) : Bool :=
  match q.report with
  | 0 => true
  | 1 => code != stSent
  | _ => false

/-- The producer's CPL event (Table 12-3). -/
def State.cplEvent (s : State) (n : Fin 4) (q : TxQueue) : State :=
  match s.codeThread n q.prod with
  | some t => s.setEvent t evCpl
  | none => s

/-- A candidate that is gone is no longer the one a pan's holds were noted for: the next one there is another (R407). -/
def Pan.forget (p : Pan) (src : TxSource) : Pan :=
  { p with heldBud := tabMap p.heldBud fun o => if o = some src then none else o
           heldWin := tabMap p.heldWin fun o => if o = some src then none else o }

/-- The arrival that a queue, a FIFO or a fired frame of pan `n` brings at the source it names: none at a source that the allocation has
given to another pan since (R306, R315). -/
def State.arriveOwn (s : State) (n : Fin 4) (k : Nat) : State := if s.panSrc n k then s.arrive k else s

/-- An item leaves its queue with a status: counted, and kept or its slot freed (R351, R353). -/
def State.completeItem (s : State) (n q : Fin 4) (g code : Nat) (r : Record) : State :=
  let s1 := s.writeStatus g code r
  let tq := s.tq n q
  let cnt := if code = stExpired then incCnt tq.cnt 2
    else if code = stRetry ∨ code = stUnacked then incCnt tq.cnt 3 else tq.cnt
  let keep := tq.keeps code
  let s1 := { s1 with line := { s1.line with gasp := s1.line.gasp.filter (· != g) } }
  let s2 := s1.updTq n q fun tq =>
    { tq with items := tq.items.filter fun i => i.slot != g
              done := if keep then tq.done ++ [g] else tq.done
              cnt := cnt }
  let s2 := s2.updPan n fun p => p.forget (.queue n q g)
  if keep then (s2.arriveOwn n tq.src).cplEvent n tq else s2

/-- A flush (R354): the report of R521. -/
def State.flushQueue (s : State) (n q : Fin 4) : Word × State :=
  let tq := s.tq n q
  let queued := tq.items.filter fun i => i.st == .queued
  let wire := tq.items.any fun i => i.st == .onWire
  let s1 := s.updTq n q fun tq =>
    { tq with items := tq.items.map (fun i => if i.st == .onWire then { i with flushed := true } else i), opened := none }
  let s2 := queued.foldl (fun s i => s.completeItem n q i.slot stFlushed (.waiting tq.port i.last)) s1
  (BitVec.ofNat 32 (queued.length % 256) ||| flag 8 tq.filling.isSome ||| flag 9 wire, s2)

/-! ### Control registers of queues and FIFOs (R343, R355, R753, R754) -/

/-- The slots of every enabled ring of a pan, but for the one named by its place (queue 0-3, FIFO 4-7). -/
def State.otherRings (s : State) (n : Fin 4) (self : Nat) : List Nat :=
  let t := (List.finRange 4).flatMap fun q =>
    if (s.tq n q).en && q.val != self then s.ringSlots n (s.tq n q).base (s.tq n q).depth else []
  let r := (List.finRange 4).flatMap fun q =>
    if (s.rxf n q).en && q.val + 4 != self then s.ringSlots n (s.rxf n q).base (s.rxf n q).depth else []
  t ++ r

/-- A ring may be enabled: not empty, within the pan's slots, over no other ring and no LINE-held slot (R343). -/
def State.ringOk (s : State) (n : Fin 4) (self base depth : Nat) : Bool :=
  let mine := s.ringSlots n base depth
  depth != 0 && base + depth ≤ s.panSlots n && mine.all fun g => !(s.otherRings n self).contains g && s.slotOwn g != ownLine

/-- Every slot of a list passes to a holder. -/
def State.passSlots (s : State) (gs : List Nat) (own othr : Nat) : State := gs.foldl (fun s g => s.passSlot g own othr) s

/-- A producer or consumer code the pan has: the host, or a thread of the pan (R342, R355). -/
def State.codeOk (s : State) (n : Fin 4) (c : Nat) : Bool := c == 0 || (8 ≤ c && c - 8 < (s.panThreads n).length)

/-- The fields of TQn_CTL word 0 but EN, as the write leaves them, and whether one was refused (R753, R754). -/
def State.tqFields (s : State) (n q : Fin 4) (v : Word) : Word × Bool :=
  let tq := s.tq n q
  let old := tq.ctl
  let prodOk := s.codeOk n (bitsOf v 12 4)
  let srcOk := bitsOf v 16 7 == 0 || s.panSrc n (bitsOf v 16 7)
  let lgasp := if n == 0 && q == 3 then 0x10 else 0
  let guarded : Word := 0x6 ||| (if prodOk then 0xF000 else 0)
  let free : Word := 0xF00 ||| lgasp ||| (if bitsOf v 5 2 = 3 then 0 else 0x60) ||| (if srcOk then 0x7F0000 else 0)
  let diff := tq.en && merge (0xF006 : Word) 0 old != merge (0xF006 : Word) 0 v
  let mask := if tq.en then free else free ||| guarded
  (merge mask old v, diff || !srcOk || bitsOf v 5 2 = 3 || (!tq.en && !prodOk))

/-- A change of TQn_CTL.EN, checked last (R343, R753). -/
def State.tqSetEn (s : State) (n q : Fin 4) (on : Bool) : State :=
  let tq := s.tq n q
  let ring := s.ringSlots n tq.base tq.depth
  if on == tq.en then s
  else if on then
    if s.ringOk n q tq.base tq.depth then
      (s.updTq n q fun tq => { tq with ctl := putBit tq.ctl 0 true, trunc := 0, done := [], items := [] }).passSlots ring ownLine 0
    else s.updTq n q fun tq => { tq with cfgErr := true }
  else if tq.items.isEmpty && tq.done.isEmpty && tq.opened.isNone then
    (s.updTq n q fun tq => { tq with ctl := putBit tq.ctl 0 false }).passSlots ring ownHost 0
  else s.updTq n q fun tq => { tq with cfgErr := true }

/-- TQn_CTL word 0 (R753). -/
def State.tqCtl (s : State) (n q : Fin 4) (v : Word) : State :=
  let s1 := if bitOf v 3 then (s.flushQueue n q).2 else s
  let r := s1.tqFields n q v
  let s2 := s1.updTq n q fun tq => { tq with ctl := r.1, cfgErr := tq.cfgErr || r.2 }
  s2.tqSetEn n q (bitOf v 0)

/-- TQn_CTL word 1: the ring, only while EN = 0 (R343). -/
def State.tqRing (s : State) (n q : Fin 4) (v : Word) : State :=
  s.updTq n q fun tq =>
    if tq.en then (if merge (0x00FF07FF : Word) 0 v != tq.ring then { tq with cfgErr := true } else tq)
    else { tq with ring := merge (0x00FF07FF : Word) 0 v }

/-- The fields of RXFn_CTL word 0 but EN, as the write leaves them (R753, R754). -/
def State.rxfFields (s : State) (n q : Fin 4) (v : Word) : Word × Bool :=
  let rx := s.rxf n q
  let consOk := s.codeOk n (bitsOf v 4 4)
  let srcOk := bitsOf v 16 7 == 0 || s.panSrc n (bitsOf v 16 7)
  let wmOk := bitsOf v 8 8 != 0
  let guarded : Word := 0x2 ||| (if consOk then 0xF0 else 0)
  let free : Word := (if wmOk then 0xFF00 else 0) ||| (if srcOk then 0x7F0000 else 0)
  let diff := rx.en && merge (0xF2 : Word) 0 rx.ctl != merge (0xF2 : Word) 0 v
  (merge (if rx.en then free else free ||| guarded) rx.ctl v, diff || !srcOk || !wmOk || (!rx.en && !consOk))

/-- A FETCH under way whose slot a test names loses it: its further words are zero and it removes nothing (R355, R317). -/
def HostState.dropFetch (y : HostState) (gone : OpenFetch → Bool) : HostState :=
  match y.tx with
  | some (.fetch f) => if gone f then { y with tx := some (.fetch { f with slot := none }) } else y
  | _ => y

/-- A change of RXFn_CTL.EN: disabling discards the frames and passes the ring to HOST (R355). -/
def State.rxfSetEn (s : State) (n q : Fin 4) (on : Bool) : State :=
  let rx := s.rxf n q
  let ring := s.ringSlots n rx.base rx.depth
  if on == rx.en then s
  else if on then
    if s.ringOk n (q.val + 4) rx.base rx.depth then
      (s.updRxf n q fun rx => { rx with ctl := putBit rx.ctl 0 true, frames := [] }).passSlots ring ownLine 0
    else s.updRxf n q fun rx => { rx with cfgErr := true }
  else
    ((s.updRxf n q fun rx => { rx with ctl := putBit rx.ctl 0 false, frames := [] }).passSlots ring ownHost 0).mapHosts fun y =>
      y.dropFetch fun f => f.rxf && f.pan == n && f.q == q

/-- RXFn_CTL word 0 (R753). -/
def State.rxfCtl (s : State) (n q : Fin 4) (v : Word) : State :=
  let r := s.rxfFields n q v
  let s1 := s.updRxf n q fun rx => { rx with ctl := r.1, cfgErr := rx.cfgErr || r.2 }
  (s1.rxfSetEn n q (bitOf v 0)).settleWaits

/-- RXFn_CTL word 1: the ring, only while EN = 0. -/
def State.rxfRing (s : State) (n q : Fin 4) (v : Word) : State :=
  s.updRxf n q fun rx =>
    if rx.en then (if merge (0x00FF07FF : Word) 0 v != rx.ring then { rx with cfgErr := true } else rx)
    else { rx with ring := merge (0x00FF07FF : Word) 0 v }

/-! ### Reading the head of a queue or FIFO (R352, R358) -/

/-- The words of the frame in a slot: the header and its data words. -/
def State.rxWords (s : State) (g : Nat) : Nat :=
  8 + (if bitOf (s.slotWord g 0) 30 then 0 else dataWords (min 64 (bitsOf (s.slotWord g 1) 0 7)))

/-- A FETCH of a party begins: at the oldest completion of a queue, or at the oldest frame of a FIFO (R352, R358). -/
def State.fetchHead (s : State) (p : Party) (n q : Fin 4) (rxf : Bool) : OpenFetch × State :=
  if !s.isCode n p (if rxf then (s.rxf n q).cons else (s.tq n q).prod) then (⟨n, q, rxf, none, 0, false, lcOwnRef⟩, s.ownRef n)
  else match (if rxf then (s.rxf n q).frames else (s.tq n q).done) with
  | [] => (⟨n, q, rxf, none, 0, false, lcEmpty⟩, s)
  | g :: _ => (⟨n, q, rxf, some g, 0, false, lcOk⟩, s)

/-- The item or frame that a FETCH has read leaves its queue or FIFO. -/
def State.fetchTake (s : State) (f : OpenFetch) (g : Nat) : State :=
  if f.rxf then s.updRxf f.pan f.q fun rx => { rx with frames := rx.frames.erase g }
  else s.updTq f.pan f.q fun tq => { tq with done := tq.done.erase g }

/-- The next `k` words of a FETCH. The removal point is the end of W7, and at a FIFO of the last data word; it removes where the reader
must acknowledge and does, `take` (R352, R358, R639). -/
def State.fetchPart (s : State) (f : OpenFetch) (k : Nat) (take : Bool) : List Word × OpenFetch × State :=
  match f.slot with
  | none => (List.replicate k 0, { f with words := f.words + k }, s)
  | some g =>
    let ws := (List.range k).map fun i => if f.words + i < s.rxWords g then s.slotWord g (f.words + i) else 0
    let point := if f.rxf then s.rxWords g else 8
    if !f.taken && take && f.words < point && point ≤ f.words + k then
      (ws, { f with words := f.words + k, taken := true }, s.fetchTake f g)
    else (ws, { f with words := f.words + k }, s)

/-- The end of a FETCH: its LAST code; one that ends before its removal point counts in PART at a FIFO (R639, R370). -/
def State.fetchEnd (s : State) (f : OpenFetch) : Nat × State :=
  if f.code ≠ lcOk then (f.code, s)
  else if f.taken then (lcOk, s)
  else (lcPartial, if f.rxf then s.updRxf f.pan f.q fun rx => { rx with part := satInc8 rx.part } else s)

/-- A FETCH of `k` words in one piece: its LAST code, the words, the state. -/
def State.fetchWhole (s : State) (p : Party) (n q : Fin 4) (rxf : Bool) (k : Nat) (take : Bool) : Nat × List Word × State :=
  let a := s.fetchHead p n q rxf
  let b := a.2.fetchPart a.1 k take
  let c := b.2.2.fetchEnd b.2.1
  (c.1, b.1, c.2)

/-! ### Delivery (R356-R359) -/

/-- A slot filled as a delivered frame (R356). -/
def State.deliverSlot (s : State) (n : Fin 4) (g : Nat) (f : Frame) (d : Delivery) (w2 : Word) : State :=
  let w2 := w2 ||| field 14 ownLine ||| flag 10 (d.port == .pair) ||| field 16 s.pans[n].gen.toNat
  s.putSlotWords g 0 ([f.w0, f.w1 0, w2, field 0 d.sof.tick.toNat, d.sof.sec, 0, 0, field 0 d.flt ||| flag 8 d.brg] ++
    wordsOfBytes f.data 16)

/-- The event and the source of a FIFO at or above its watermark (R356). -/
def State.fifoEvent (s : State) (n q : Fin 4) : State :=
  let rx := s.rxf n q
  (if rx.wm ≤ rx.level then s.arriveOwn n rx.src else s).settleWaits

/-- OVF and OVFCNT (R357). -/
def RxFifo.overflow (rx : RxFifo) : RxFifo := { rx with ovf := true, ovfCnt := satInc8 rx.ovfCnt }

/-- The slot of a FIFO's frame that a port's open FETCH is reading. -/
def HostState.fetching (y : HostState) (n q : Fin 4) : Option Nat :=
  match y.tx with
  | some (.fetch f) => if f.rxf && f.pan == n && f.q == q && !f.taken then f.slot else none
  | _ => none

/-- A host is fetching the frame in slot `g` of a FIFO. -/
def State.beingFetched (s : State) (n q : Fin 4) (g : Nat) : Bool := s.host.toList.any fun y => y.fetching n q == some g

/-- A frame delivered into a FIFO. Which free slot of the ring it goes to the spec leaves open (log 7). The answer says whether the new
frame was taken (R356, R357). -/
def State.deliverFifo (s : State) (n q : Fin 4) (f : Frame) (d : Delivery) : Bool × State :=
  let rx := s.rxf n q
  let ring := s.ringSlots n rx.base rx.depth
  if !rx.en then (false, s)
  else match s.pickSlot (ring.filter fun g => !rx.frames.contains g) with
  | some g =>
    let s1 := (s.takeFree.deliverSlot n g f d 0).updRxf n q fun rx => { rx with frames := rx.frames ++ [g] }
    (true, s1.fifoEvent n q)
  | none =>
    let victim := if rx.overwrite then rx.frames.find? fun g => !s.beingFetched n q g else none
    match victim with
    | none => (false, s.updRxf n q RxFifo.overflow)
    | some g =>
      let s1 := (s.deliverSlot n g f d 0).updRxf n q fun rx =>
        { rx.overflow with frames := rx.frames.filter (fun x => x != g) ++ [g] }
      (true, s1.fifoEvent n q)

/-- A frame written into a mailbox slot (R359); one that an application has released since its evaluation keeps its holder (R368, R390;
DESIGN CHOICE, log 79). -/
def State.putMailbox (s : State) (n : Fin 4) (g : Nat) (f : Frame) (d : Delivery) : State :=
  let w2 := s.slotWord g 2
  let s1 := s.deliverSlot n g f d (flag 8 (!bitOf w2 9))
  if bitsOf w2 14 2 = ownLine then s1 else s1.passSlot g (bitsOf w2 14 2) (bitsOf w2 11 3)

/-- A port's READ_BURST has read words of slot `g`. -/
def HostState.bursting (y : HostState) (g : Nat) : Bool :=
  match y.tx with
  | some (.burst b) => b.first < slotAddr g 24 && slotAddr g 0 < b.next
  | _ => false

/-- A frame delivered into a mailbox slot: held while a READ_BURST reads the slot (R359, R360). -/
def State.deliverMailbox (s : State) (n : Fin 4) (g : Nat) (f : Frame) (d : Delivery) : State :=
  if s.host.toList.any fun y => y.bursting g then
    s.mapHosts fun y => if y.bursting g then { y with held := y.held ++ [⟨n, g, f, d⟩] } else y
  else s.putMailbox n g f d

/-- The deliveries that waited for a READ_BURST (R360). -/
def State.putHeld (s : State) (hs : List HeldFrame) : State := hs.foldl (fun s h => s.putMailbox h.pan h.slot h.frame h.del) s

/-! ### Writes to slots (R339-R341, R359, R491) -/

/-- FLTn_CTL.DEST and TGT of an applied entry (Table 10-2). -/
def Filter.dest (x : Filter) : Nat := bitsOf x.ctl 8 2
def Filter.tgt (x : Filter) : Nat := bitsOf x.ctl 16 11

/-- The slot an applied filter names as a mailbox, whatever its EN (R386). -/
def State.fltMailbox (s : State) (k : Fin 128) : Option Nat :=
  if s.flt[k].dest = 2 then s.slotGlobal (s.fltOwner k) s.flt[k].tgt else none

/-- Slot `g` is a mailbox of an applied filter of its pan. -/
def State.mailboxOf (s : State) (g : Nat) : Bool := (List.finRange 128).any fun k => s.fltMailbox k == some g

/-- A party holds slot `g`. -/
def State.holds (s : State) (p : Party) (g : Nat) : Bool :=
  match p with
  | .host h => s.slotOwn g == ownHost && s.panPort (s.slotOwner g) == h
  | .thread t => s.slotHeldBy g t

/-- A holder's write to W2: OWN, OTHR and SEEN only; a refused holder sets OWNREF (R340). It answers whether it was
performed. -/
def State.writeW2 (s : State) (g : Nat) (v : Word) : Bool × State :=
  let n := s.slotOwner g
  let own := bitsOf v 14 2
  let othr := bitsOf v 11 3
  let thr := (s.panThreads n)[othr]?
  let full := (thr.map fun t => decide (s.limit (idx 8 t) ≤ s.charge (idx 8 t)) && !s.slotHeldBy g (idx 8 t)).getD true
  if 2 ≤ own || (own == ownThread && (thr.isNone || full)) then (false, s.ownRef n)
  else (true, s.putSlotWord g 2 (merge (0xFA00 : Word) (s.slotWord g 2) v))

/-- The bits of word `w` of a slot that are not reserved (Table 9-2). -/
def slotMask (w : Nat) : Word :=
  match w with
  | 3 => 0x0FFFFFFF
  | 5 => 0x8FFFFFFF
  | 7 => 0x17F
  | _ => 0xFFFFFFFF

/-- A write of word `w` of slot `g` by a party entitled to the slot: it answers whether it was performed (R339, R359). -/
def State.writeSlot (s : State) (p : Party) (g w : Nat) (v : Word) : Bool × State :=
  if w = 2 && s.slotOwn g == ownLine && s.mailboxOf g then
    (true, if bitOf v 9 then s.putSlotWord g 2 (putBit (s.slotWord g 2) 9 true) else s)
  else if s.holds p g then
    if w = 2 then s.writeW2 g v else (true, s.putSlotWord g w (v &&& slotMask w))
  else (false, s.ownRef (s.slotOwner g))

end Sys2Proof.Machine
end

