-- ==== Sys2Proof/Machine/Filters.lean ====
section
/-! DEFINITION. Acceptance filters: matching, evaluation, writing and applying an entry (chapter 10). -/

namespace Sys2Proof.Machine

def Filter.on (x : Filter) : Bool := bitOf x.ctl 0

/-- The number of identifier bits of a frame's format (R375). -/
def idBits (f : Frame) : Nat := if !f.iso then 16 else if f.xtd then 29 else 11

/-- The ID test (Table 10-3). -/
def Filter.idTest (x : Filter) (f : Frame) : Bool :=
  let n := idBits f
  let id := bitsOf f.id 0 n
  let a := bitsOf x.a 0 n
  let b := bitsOf x.b 0 n
  match bitsOf x.ctl 1 2 with
  | 0 => (id ^^^ a) &&& b == 0
  | 1 => a ≤ id && id ≤ b
  | 2 => id == a || id == b
  | _ => false

/-- The data test (R376). -/
def Filter.dataTest (x : Filter) (f : Frame) : Bool :=
  let m := bitsOf x.d 16 16
  let v := (f.data[0]?.getD 0).toNat * 256 + (f.data[1]?.getD 0).toNat
  if m = 0 then true
  else if f.rmt then false
  else if m / 256 != 0 && f.len < 1 then false
  else if m % 256 != 0 && f.len < 2 then false
  else (v ^^^ bitsOf x.d 0 16) &&& m == 0

/-- The filter matches a frame that arrives at a port (R375). -/
def Filter.matches (x : Filter) (port : LinePort) (f : Frame) : Bool :=
  let portOk := match port with | .plc => bitOf x.ctl 3 | .pair => bitOf x.ctl 4
  let fmt := if !f.iso then 0 else if f.xtd then 2 else 1
  x.on && portOk && bitsOf x.ctl 5 2 == fmt && x.idTest f && (!bitOf x.ctl 7 || x.dataTest f)

/-- One millisecond in ticks, longer than the eight bits from a frame's evaluation to its validity point at any rate. -/
def pastSpan : Nat := 200000

/-- The entries replaced within the last millisecond, once the one in effect is replaced at `now`. -/
def Filter.pastAt (x : Filter) (now : Nat) : List FilterWas :=
  ⟨x.ctl, x.a, x.b, x.d, now⟩ :: x.past.filter fun w => decide (centred ((now : Int) - (w.till : Int)) ≤ (pastSpan : Int))

/-- The entry as it stood at the instant `t`; an application in the very cycle of an evaluation comes after it (R389, R390). -/
def Filter.asOf (x : Filter) (t : Nat) : Filter :=
  match (x.past.filter fun w => decide (centred ((t : Int) - (w.till : Int)) ≤ 0)).getLast? with
  | some w => { x with ctl := w.ctl, a := w.a, b := w.b, d := w.d }
  | none => x


/-- The evaluation of a frame, in ticks of tide time: the end of its CRC delimiter (R377). An ISO frame's is taken with the largest stuff
count (DESIGN CHOICE, log 79). -/
def State.evalAt (s : State) (port : LinePort) (f : Frame) (sof : Instant) : Nat :=
  (instantOf ((sof.ticks + (if f.iso then s.longestIso f - 12 * s.ta port else s.nominalE port f - 2 * s.ta port) / 5 : Nat) : Int)).ticks

/-- The winner of pan `n` among the entries as they stood at `t`: its lowest-numbered matching filter (R378). -/
def State.winner (s : State) (n : Fin 4) (port : LinePort) (f : Frame) (t : Nat) : Option (Fin 128) :=
  ((s.panFilters n).map (idx 128)).find? fun k => (s.flt[k].asOf t).matches port f

/-- The winners of every pan, with the pan (R379); a pan that resets takes nothing (R319). -/
def State.winners (s : State) (port : LinePort) (f : Frame) (t : Nat) : List (Fin 4 × Fin 128) :=
  [0, 1, 2, 3].filterMap fun n =>
    if s.panEn n && !s.pans[n].rstBusy then (s.winner n port f t).map fun k => (n, k) else none

/-- A 16-bit count that saturates. -/
def satInc16 (b : BitVec 16) : BitVec 16 := if b = 0xFFFF then b else b + 1

def State.hitFilter (s : State) (k : Fin 128) : State := s.updFlt k fun x => { x with hit := satInc16 x.hit }
def State.dropFilter (s : State) (k : Fin 128) : State := s.updFlt k fun x => { x with drop := satInc16 x.drop }

/-! ### Writing an entry (R384, R385) -/

/-- FLTn_A, FLTn_B, FLTn_D: into the shadow. -/
def Filter.writeWord (x : Filter) (w : Nat) (v : Word) : Filter :=
  match w with
  | 1 => { x with aSh := some v }
  | 2 => { x with bSh := some v }
  | _ => { x with dSh := some v }

/-- FLTn_CTL: the four shadow words become pending together; `who` is the writing party. -/
def Filter.writeCtl (x : Filter) (who : Option (Fin 8)) (v : Word) : Filter :=
  { x with ctlSh := some v, ready := true, writer := who }

/-- The entry with its shadow words in effect. -/
def Filter.taken (x : Filter) : Filter :=
  ({ x with ctl := putBit (x.ctlSh.getD x.ctl) 30 false, a := x.aSh.getD x.a, b := x.bSh.getD x.b, d := x.dSh.getD x.d }).clearShadow

/-- The form checks of R384. -/
def Filter.badForm (x : Filter) : Bool :=
  bitsOf x.ctl 1 2 == 3 || bitsOf x.ctl 5 2 == 3 || bitsOf x.ctl 10 6 != 0 || bitsOf x.ctl 27 3 != 0 ||
    bitOf x.ctl 31 ||
    bitsOf x.a 29 3 != 0 || bitsOf x.b 29 3 != 0 ||
    (match x.dest with
      | 1 => 4 ≤ x.tgt
      | 2 => false
      | _ => x.tgt != 0)

/-- The writing party holds slot `g`. -/
def State.writerHolds (s : State) (n : Fin 4) (who : Option (Fin 8)) (g : Nat) : Bool :=
  match who with
  | none => s.slotOwner g == n && s.slotOwn g == ownHost
  | some t => s.slotHeldBy g t

/-- The mailbox check of R384. -/
def State.badMailbox (s : State) (n : Fin 4) (x : Filter) : Bool :=
  x.dest == 2 &&
    match s.slotGlobal n x.tgt with
    | none => true
    | some g => !(s.writerHolds n x.writer g || s.mailboxOf g)

/-- A slot that no applied filter names any longer passes to HOST (R341, R386). -/
def State.freeMailbox (s : State) (o : Option Nat) : State :=
  match o with
  | some g => if s.mailboxOf g then s else s.passSlot g ownHost 0
  | none => s

/-- A slot newly named as a mailbox passes to LINE with SEEN = 1 (R341, R359). -/
def State.takeMailbox (s : State) (o : Option Nat) (named : Bool) : State :=
  match o with
  | some g => if named then s else
      let s1 := s.passSlot g ownLine 0
      s1.putSlotWord g 2 (putBit (s1.slotWord g 2) 9 true)
  | none => s

/-- A pending entry is checked and applied as one whole, or refused (R384). -/
def State.applyFilter (s : State) (k : Fin 128) : State :=
  let s := s.weedAll [.flt k 0, .flt k 1, .flt k 2, .flt k 3]
  let x := s.flt[k]
  let n := s.fltOwner k
  if !x.ready then s
  else
    let y := x.taken
    let bridge := y.dest == 3 && !s.hasCap n .bridge
    if y.badForm || s.badMailbox n y || bridge then
      let s1 := s.updFlt k fun x => { x.clearShadow with cfgErr := true }
      if bridge then s1.panFault n fltCap else s1
    else
      let old := s.fltMailbox k
      let new := if y.dest = 2 then s.slotGlobal n y.tgt else none
      let named := (new.map s.mailboxOf).getD false
      let s1 := s.updFlt k fun _ => { y with cfgErr := false, past := x.pastAt s.now.ticks }
      (s1.takeMailbox new named).freeMailbox old

/-- FLTn_CTL as it reads: the value in effect with CFGERR. -/
def Filter.ctlWord (x : Filter) : Word := putBit x.ctl 30 x.cfgErr

/-- FLTn_CNT, an RC register (R387). -/
def Filter.cntWord (x : Filter) : Word := field 0 x.hit.toNat ||| field 16 x.drop.toNat

/-- PAN_PEND.FLT and FLTLOW (R653): a pending shadow word of a filter of the pan, the lowest-numbered such filter. -/
def Filter.pending (x : Filter) : Bool := x.ctlSh.isSome || x.aSh.isSome || x.bSh.isSome || x.dSh.isSome

end Sys2Proof.Machine
end

