-- ==== Sys2Proof/Machine/Engine.lean ====
section
/-! DEFINITION. Threads: issue, faults, start and halt, fork and join, waits, locks (chapters 11, 12). -/

namespace Sys2Proof.Machine

/-- The fault codes of Table 12-4. -/
def fcIllegal : Nat := 1
def fcForeign : Nat := 2
def fcLockOrder : Nat := 3
def fcMisaligned : Nat := 4
def fcQuota : Nat := 5
def fcCapability : Nat := 6

/-- The result codes of Table 14-1. -/
def resTimeout : Word := 0xFFFFFF01
def resNotChild : Word := 0xFFFFFF02
def resNone : Word := 0xFFFFFF03
def resBusy : Word := 0xFFFFFF04
def resNotHeld : Word := 0xFFFFFF05
def resEmpty : Word := 0xFFFFFF06
def resPanRst : Word := 0xFFFFFF07
def resFault (c : BitVec 4) : Word := 0xFFFFFE00 + c.setWidth 32

/-- The pan of thread `t`. -/
abbrev State.thrPan (s : State) (t : Fin 8) : Fin 4 := s.thrOwner t.val

/-! ### Locks (R408, R409, R456) -/

/-- The locks a thread holds. -/
def State.locksOf (s : State) (t : Fin 8) : List (Fin 32) := (List.finRange 32).filter fun l => s.eng.locks[l] == some t

/-- The threads that wait for a lock. -/
def State.waiters (s : State) (l : Fin 32) : List (Fin 8) :=
  (List.finRange 8).filter fun t =>
    s.eng.thr[t].state == .waiting && (match s.eng.thr[t].waitOn with | some (.lock _ k) => k == l | _ => false)

/-- The waiter of the highest priority, ties to the lower thread number (R409). -/
def bestWaiter (s : State) : List (Fin 8) → Option (Fin 8)
  | [] => none
  | t :: ts =>
    match bestWaiter s ts with
    | none => some t
    | some u => if s.eng.thr[t].prio < s.eng.thr[u].prio then some u else some t

def State.setLock (s : State) (l : Fin 32) (o : Option (Fin 8)) : State :=
  { s with eng := { s.eng with locks := s.eng.locks.set l.val o l.isLt } }

/-- The register a wait for a lock answers in. -/
def Thread.waitRd (th : Thread) : Fin 16 :=
  match th.waitOn with
  | some (.events rd) => rd
  | some (.lock rd _) => rd
  | some (.join rd _) => rd
  | none => 0

/-- A lock is released: it passes at once to the best waiter, whose wait ends ACQUIRED (R409). -/
def State.releaseLock (s : State) (l : Fin 32) : State :=
  match bestWaiter s (s.waiters l) with
  | none => s.setLock l none
  | some t => (s.setLock l (some t)).endWait t s.eng.thr[t].waitRd 0

/-! ### Halting (R442) -/

/-- An item the thread is filling as PROD is discarded (R442). -/
def State.dropItemOf (s : State) (t : Fin 8) : State :=
  let n := s.thrPan t
  s.updPan n fun p =>
    { p with tq := tabMap p.tq fun q => if q.prod = s.thrCode t ∧ q.opened.isSome then q.incTrunc.dropOpen else q }

/-- Every slot the thread holds passes to HOST. -/
def State.freeSlotsOf (s : State) (t : Fin 8) : State :=
  let gs := ((s.panUnits (s.thrPan t)).flatMap fun u => (List.range 32).map (32 * u + ·)).filter fun g => s.slotHeldBy g t
  s.passSlots gs ownHost 0

/-- Its unjoined children lose their parent link (R442, R472). -/
def State.orphan (s : State) (t : Fin 8) : State :=
  { s with eng := { s.eng with thr := tabMap s.eng.thr fun th => if th.parent = some t then { th with parent := none } else th } }

/-- The result of a join on a halted child (R446). -/
def Thread.joinResult (th : Thread) : Word :=
  if th.panRst then resPanRst else if th.fcause != 0 then resFault th.fcause else th.exitCode.setWidth 32

/-- A halted child's parent: its CHILD event, and the end of its join; after a join that returns a result the child is back in
the pool (R446, R448). -/
def State.tellParent (s : State) (c : Fin 8) : State :=
  match s.eng.thr[c].parent with
  | none => s
  | some p =>
    let s1 := s.setEvent p evChild
    match s1.eng.thr[p].state, s1.eng.thr[p].waitOn with
    | .waiting, some (.join rd x) =>
      if x = c then (s1.endWait p rd s1.eng.thr[c].joinResult).updThr c fun th => { th with parent := none } else s1
    | _, _ => s1

/-- What every halt does to the thread itself. -/
def Thread.stop (th : Thread) : Thread :=
  { th with state := .halted, waitOn := none, wakeArmed := false, wakeHit := false, stepping := false, bpMet := false }

/-- A halt, whatever its cause (R442, R557); `f` writes what the cause leaves in the thread. -/
def State.haltThread (s : State) (t : Fin 8) (f : Thread → Thread) : State :=
  let s1 := (s.updThr t fun th => f th.stop)
  let s2 := (s1.locksOf t).foldl State.releaseLock s1
  let s3 := ((s2.dropItemOf t).freeSlotsOf t).orphan t
  (s3.engComplete t).tellParent t

/-- A fault: the thread halts before its instruction acts (R459). -/
def State.threadFault (s : State) (t : Fin 8) (c : Nat) : State :=
  let n := s.thrPan t
  let s1 := s.haltThread t fun th => { th with fcause := BitVec.ofNat 4 c, panRst := false }
  let s2 := if c = fcCapability then s1.updPan n fun p => { p with fault := putBit p.fault fltCap true } else s1
  s2.panFault n (8 + s.thrLocal t)

/-! ### Issue (R431, R466, R493, R494) -/

/-- The thread may issue: RUNNING, or stepped out of DEBUG. -/
def Thread.issues (th : Thread) : Bool := th.state == .running || (th.state == .debug && th.stepping)

/-- A location is within reach of a pan (R493). -/
def State.inReach (s : State) (n : Fin 4) (pc : BitVec 15) : Bool :=
  if bitOf pc 14 then bitsOf pc 0 14 < 4096 else bitsOf pc 0 14 < (s.iramRegion n).2 / 4

/-- The location `off` instructions on, in the same space (R493, R495). -/
def pcAdd (pc : BitVec 15) (off : Int) : BitVec 15 :=
  putBits pc 0 14 (((bitsOf pc 0 14 : Int) + off) % 16384).toNat

/-- An issued instruction's thread goes on at the next location; a step ends in DEBUG. -/
def State.advance (s : State) (t : Fin 8) : State :=
  s.updThr t fun th =>
    { th with pc := pcAdd th.pc 1, state := if th.stepping then .debug else th.state, stepping := false, bpMet := false }

/-- The same with a new PC. -/
def State.jump (s : State) (t : Fin 8) (pc : BitVec 15) : State :=
  s.updThr t fun th => { th with pc := pc, state := if th.stepping then .debug else th.state, stepping := false, bpMet := false }

/-- A comparator matches the thread's next instruction, and the thread does not stand in DEBUG for it already (R467; that the
instruction issues at the resume is DEDUCED, log 21). -/
def State.atBreakpoint (s : State) (t : Fin 8) : Bool :=
  !s.eng.thr[t].bpMet && s.eng.bp.toList.any fun b =>
    match b with
    | some b => b.pan == s.thrPan t && b.pc == s.eng.thr[t].pc && bitOf b.mask (s.thrLocal t)
    | none => false

/-- A thread meets its breakpoint: it enters DEBUG, and its pan's fault source is raised (R467). -/
def State.meetBreak (s : State) (t : Fin 8) : State :=
  (s.updThr t fun th => { th with state := .debug, stepping := false, bpMet := true }).panFault (s.thrPan t) fltBrk

/-- Thread `t` issues an instruction whose effect is `k`: nothing issues unless the thread may issue; at a breakpoint it enters DEBUG
instead (R467); a location outside reach is ILLEGAL (R494). -/
def State.issue (s : State) (t : Fin 8) (k : State → State) : State :=
  if !(s.coreRuns && s.eng.thr[t].issues) then s
  else if s.atBreakpoint t then s.meetBreak t
  else if !s.inReach (s.thrPan t) s.eng.thr[t].pc then s.threadFault t fcIllegal
  else k s

/-- An instruction that only writes a register and goes on. -/
def State.issueReg (s : State) (t : Fin 8) (rd : Reg) (v : Word) : State := s.issue t fun s => (s.putReg t rd v).advance t

/-! ### Starting (R441, R443, R444) -/

/-- A thread that a start acts on: HALTED and not awaiting its join (R441). -/
def Thread.startable (th : Thread) : Bool := th.state == .halted && th.parent.isNone

/-- A thread started at a location (R441). -/
def Thread.begin (th : Thread) (pc : BitVec 15) (ready : BitVec 64) : Thread :=
  { th with pc := pc, g := .replicate 16 0, wakeArmed := false, wakeHit := false, evm := 0, ev := 0, fcause := 0
            exitCode := 0, panRst := false, state := .running, waitOn := none, stepping := false, bpMet := false, readyAt := ready }

/-- A start that does nothing unless the thread is startable and the controller locked (R331); it answers whether it started. The
thread is RUNNING from the next cycle (R441). -/
def State.startThread (s : State) (t : Fin 8) (pc : BitVec 15) : Bool × State :=
  if s.sys.panLock && s.eng.thr[t].startable then (true, s.updThr t fun th => th.begin pc (s.eng.tnow + 1)) else (false, s)

/-- fork's child: the lowest-numbered thread of the pan's pool (R444). -/
def State.poolThread (s : State) (n : Fin 4) : Option (Fin 8) :=
  ((s.panThreads n).map (idx 8)).find? fun t => s.eng.thr[t].startable

/-- The first thread of a pan starts at GO: at instruction 0 of ROM, whose stock image it runs, or of the pan's region (R443, R463). -/
def State.goThread (s : State) (n : Fin 4) (t : Fin 8) : State :=
  if bitOf s.eng.romPan n then
    let r := s.startThread t 0x4000
    if r.1 then r.2.updEng fun e => { e with stock := e.stock.set n.val { Stock.reset with run := .starting, thr := t } n.isLt } else r.2
  else (s.startThread t 0).2

/-- GO takes effect: the lowest thread of each enabled pan that owns threads starts (R443). -/
def State.goNow (s : State) : State :=
  let s1 := { s with eng := { s.eng with go := true, started := true, auth := false } }
  ([0, 1, 2, 3] : List (Fin 4)).foldl (fun s n =>
    if s.panEn n then
      match (s.panThreads n).head? with
      | some t => s.goThread n (idx 8 t)
      | none => s
    else s) s1

/-! ### Waiting (R411, R447, R449) -/

/-- An instruction that waits: TIMEOUT at once without an armed wake compare, else WAITING (R411). PC is already past it. -/
def State.beginWait (s : State) (t : Fin 8) (rd : Fin 16) (w : WaitOn) : State :=
  if s.eng.thr[t].wakeArmed then
    s.updThr t fun th => { th with pc := pcAdd th.pc 1, state := .waiting, waitOn := some w, bpMet := false }
  else (s.putG t rd resTimeout).advance t

/-- WAKE is reached: it disarms and ends any wait with TIMEOUT; in DEBUG the end comes at the resume (R447, R466). -/
def State.wakeReached (s : State) (t : Fin 8) : State :=
  let th := s.eng.thr[t]
  if !th.wakeArmed then s
  else
    let s1 := s.updThr t fun th => { th with wakeArmed := false }
    match th.state, th.waitOn with
    | .waiting, some _ =>
      let s2 := s1.checkWait t
      if s2.eng.thr[t].state == .waiting then s2.endWait t th.waitRd resTimeout else s2
    | .debug, some _ => s1.updThr t fun th => { th with wakeHit := true }
    | _, _ => s1

/-- A WAKE value at or before TNOW is reached in the next cycle and disarms (R499). -/
def State.armWake (s : State) (t : Fin 8) (v : BitVec 64) : State :=
  s.updThr t fun th => { th with wake := v, wakeArmed := decide (s.eng.tnow < v), wakeHi := v.extractLsb' 32 32 }

end Sys2Proof.Machine
end

