-- ==== Sys2Proof/Machine/Alu.lean ====
section
/-! DEFINITION. Tirerex register, immediate, bit-field, branch and call instructions (chapter 13). -/

namespace Sys2Proof.Machine

/-! ### The functions of Tables 13-3 and 13-4 -/

/-- The comparison result: all ones, 0 or 1. -/
def cmpSigned (a b : Word) : Word := if a.slt b then 0xFFFFFFFF else if a = b then 0 else 1
def cmpUnsigned (a b : Word) : Word := if a < b then 0xFFFFFFFF else if a = b then 0 else 1

/-- A shift amount: the low five bits (R483). -/
def shamt (b : Word) : Nat := bitsOf b 0 5

def mulHigh (a b : Word) : Word := BitVec.ofNat 32 (a.toNat * b.toNat / 2 ^ 32)
def mulHighSigned (a b : Word) : Word := BitVec.ofInt 32 (a.toInt * b.toInt / 2 ^ 32)

/-- Leading zero bits, 32 for zero. -/
def clzWord (a : Word) : Word := if a = 0 then 32 else BitVec.ofNat 32 (31 - Nat.log2 a.toNat)

/-- One bits. -/
def popcWord (a : Word) : Word := BitVec.ofNat 32 ((List.range 32).filter fun i => bitOf a i).length

/-- Bytes reversed. -/
def bswapWord (a : Word) : Word :=
  a.extractLsb' 0 8 ++ a.extractLsb' 8 8 ++ a.extractLsb' 16 8 ++ a.extractLsb' 24 8

/-- A bit field zero-extended, sign-extended, and replaced (R485). -/
def bextWord (a : Word) (p w : Nat) : Word := BitVec.ofNat 32 (bitsOf a p w)
def bextsWord (a : Word) (p w : Nat) : Word := if bitOf a (p + w - 1) then bextWord a p w - BitVec.ofNat 32 (2 ^ w) else bextWord a p w
def binsWord (d a : Word) (p w : Nat) : Word := putBits d p w (bitsOf a 0 w)

def sext16 (i : BitVec 16) : Word := i.signExtend 32
def zext16 (i : BitVec 16) : Word := i.setWidth 32

/-! ### Register arithmetic and logic (R483) -/

/-- `add` (R483): rd becomes ra + rb. -/
def execAdd (t : Fin 8) (rd ra rb : Reg) (s : State) : Out :=
  let a := s.reg t ra
  let b := s.reg t rb
  .next (s.issueReg t rd (a + b))

/-- `sub` (R483): rd becomes ra - rb. -/
def execSub (t : Fin 8) (rd ra rb : Reg) (s : State) : Out :=
  let a := s.reg t ra
  let b := s.reg t rb
  .next (s.issueReg t rd (a - b))

/-- `and` (R483): rd becomes ra and rb. -/
def execAnd (t : Fin 8) (rd ra rb : Reg) (s : State) : Out :=
  let a := s.reg t ra
  let b := s.reg t rb
  .next (s.issueReg t rd (a &&& b))

/-- `or` (R483): rd becomes ra or rb. -/
def execOr (t : Fin 8) (rd ra rb : Reg) (s : State) : Out :=
  let a := s.reg t ra
  let b := s.reg t rb
  .next (s.issueReg t rd (a ||| b))

/-- `xor` (R483): rd becomes ra xor rb. -/
def execXor (t : Fin 8) (rd ra rb : Reg) (s : State) : Out :=
  let a := s.reg t ra
  let b := s.reg t rb
  .next (s.issueReg t rd (a ^^^ b))

/-- `andn` (R483): rd becomes ra and not rb. -/
def execAndn (t : Fin 8) (rd ra rb : Reg) (s : State) : Out :=
  let a := s.reg t ra
  let b := s.reg t rb
  .next (s.issueReg t rd (a &&& ~~~ b))

/-- `shl` (R483): rd becomes ra shifted left by rb[4:0]. -/
def execShl (t : Fin 8) (rd ra rb : Reg) (s : State) : Out :=
  let a := s.reg t ra
  let b := s.reg t rb
  .next (s.issueReg t rd (a <<< shamt b))

/-- `shr` (R483): rd becomes ra shifted right by rb[4:0], zeros in. -/
def execShr (t : Fin 8) (rd ra rb : Reg) (s : State) : Out :=
  let a := s.reg t ra
  let b := s.reg t rb
  .next (s.issueReg t rd (a >>> shamt b))

/-- `sar` (R483): rd becomes ra shifted right by rb[4:0], copies of bit 31 in. -/
def execSar (t : Fin 8) (rd ra rb : Reg) (s : State) : Out :=
  let a := s.reg t ra
  let b := s.reg t rb
  .next (s.issueReg t rd (a.sshiftRight (shamt b)))

/-- `mul` (R483): rd becomes the low 32 bits of the product. -/
def execMul (t : Fin 8) (rd ra rb : Reg) (s : State) : Out :=
  let a := s.reg t ra
  let b := s.reg t rb
  .next (s.issueReg t rd (a * b))

/-- `mulhu` (R483): rd becomes the high 32 bits of the unsigned product. -/
def execMulhu (t : Fin 8) (rd ra rb : Reg) (s : State) : Out :=
  let a := s.reg t ra
  let b := s.reg t rb
  .next (s.issueReg t rd (mulHigh a b))

/-- `mulhs` (R483): rd becomes the high 32 bits of the signed product. -/
def execMulhs (t : Fin 8) (rd ra rb : Reg) (s : State) : Out :=
  let a := s.reg t ra
  let b := s.reg t rb
  .next (s.issueReg t rd (mulHighSigned a b))

/-- `cmp` (R483): rd becomes the signed comparison. -/
def execCmp (t : Fin 8) (rd ra rb : Reg) (s : State) : Out :=
  let a := s.reg t ra
  let b := s.reg t rb
  .next (s.issueReg t rd (cmpSigned a b))

/-- `cmpu` (R483): rd becomes the unsigned comparison. -/
def execCmpu (t : Fin 8) (rd ra rb : Reg) (s : State) : Out :=
  let a := s.reg t ra
  let b := s.reg t rb
  .next (s.issueReg t rd (cmpUnsigned a b))

/-- `min` (R483): rd becomes the signed lesser. -/
def execMin (t : Fin 8) (rd ra rb : Reg) (s : State) : Out :=
  let a := s.reg t ra
  let b := s.reg t rb
  .next (s.issueReg t rd (if a.slt b then a else b))

/-- `max` (R483): rd becomes the signed greater. -/
def execMax (t : Fin 8) (rd ra rb : Reg) (s : State) : Out :=
  let a := s.reg t ra
  let b := s.reg t rb
  .next (s.issueReg t rd (if a.slt b then b else a))

/-- `minu` (R483): rd becomes the unsigned lesser. -/
def execMinu (t : Fin 8) (rd ra rb : Reg) (s : State) : Out :=
  let a := s.reg t ra
  let b := s.reg t rb
  .next (s.issueReg t rd (if a < b then a else b))

/-- `maxu` (R483): rd becomes the unsigned greater. -/
def execMaxu (t : Fin 8) (rd ra rb : Reg) (s : State) : Out :=
  let a := s.reg t ra
  let b := s.reg t rb
  .next (s.issueReg t rd (if a < b then b else a))

/-- `clz` (R483): rd becomes the leading zero bits of ra. -/
def execClz (t : Fin 8) (rd ra : Reg) (s : State) : Out := .next (s.issueReg t rd (clzWord (s.reg t ra)))

/-- `popc` (R483): rd becomes the one bits of ra. -/
def execPopc (t : Fin 8) (rd ra : Reg) (s : State) : Out := .next (s.issueReg t rd (popcWord (s.reg t ra)))

/-- `bswap` (R483): rd becomes ra with its bytes reversed. -/
def execBswap (t : Fin 8) (rd ra : Reg) (s : State) : Out := .next (s.issueReg t rd (bswapWord (s.reg t ra)))

/-! ### Immediates (R484) -/

/-- add with an immediate (R484): rd becomes ra plus the signed immediate. -/
def execAddImm (t : Fin 8) (rd ra : Reg) (imm : BitVec 16) (s : State) : Out :=
  .next (s.issueReg t rd (s.reg t ra + sext16 imm))

/-- and with an immediate (R484): rd becomes ra and the zero-extended immediate. -/
def execAndImm (t : Fin 8) (rd ra : Reg) (imm : BitVec 16) (s : State) : Out :=
  .next (s.issueReg t rd (s.reg t ra &&& zext16 imm))

/-- or with an immediate (R484): rd becomes ra or the zero-extended immediate. -/
def execOrImm (t : Fin 8) (rd ra : Reg) (imm : BitVec 16) (s : State) : Out :=
  .next (s.issueReg t rd (s.reg t ra ||| zext16 imm))

/-- xor with an immediate (R484): rd becomes ra xor the zero-extended immediate. -/
def execXorImm (t : Fin 8) (rd ra : Reg) (imm : BitVec 16) (s : State) : Out :=
  .next (s.issueReg t rd (s.reg t ra ^^^ zext16 imm))

/-- mul with an immediate (R484): rd becomes the low 32 bits of ra times the signed immediate. -/
def execMulImm (t : Fin 8) (rd ra : Reg) (imm : BitVec 16) (s : State) : Out :=
  .next (s.issueReg t rd (s.reg t ra * sext16 imm))

/-- cmp with an immediate (R484): rd becomes the signed comparison with the immediate. -/
def execCmpImm (t : Fin 8) (rd ra : Reg) (imm : BitVec 16) (s : State) : Out :=
  .next (s.issueReg t rd (cmpSigned (s.reg t ra) (sext16 imm)))

/-- cmpu with an immediate (R484): rd becomes the unsigned comparison with the immediate. -/
def execCmpuImm (t : Fin 8) (rd ra : Reg) (imm : BitVec 16) (s : State) : Out :=
  .next (s.issueReg t rd (cmpUnsigned (s.reg t ra) (zext16 imm)))

/-- shl by an immediate amount (R484). -/
def execShlImm (t : Fin 8) (rd ra : Reg) (n : BitVec 5) (s : State) : Out := .next (s.issueReg t rd (s.reg t ra <<< n.toNat))

/-- shr by an immediate amount (R484). -/
def execShrImm (t : Fin 8) (rd ra : Reg) (n : BitVec 5) (s : State) : Out := .next (s.issueReg t rd (s.reg t ra >>> n.toNat))

/-- sar by an immediate amount (R484). -/
def execSarImm (t : Fin 8) (rd ra : Reg) (n : BitVec 5) (s : State) : Out := .next (s.issueReg t rd ((s.reg t ra).sshiftRight n.toNat))

/-- `lui` (R484): rd becomes the immediate shifted left by 16. -/
def execLui (t : Fin 8) (rd : Reg) (imm : BitVec 16) (s : State) : Out := .next (s.issueReg t rd (zext16 imm <<< 16))

/-! ### Bit fields (R485): P + W above 32 is ILLEGAL -/

/-- A bit-field instruction: ILLEGAL when the field leaves the word, else `v` in rd. -/
def State.bitField (s : State) (t : Fin 8) (rd : Reg) (pos wid : BitVec 5) (v : Word) : State :=
  if 32 < pos.toNat + (wid.toNat + 1) then s.issue t fun s => s.threadFault t fcIllegal else s.issueReg t rd v

/-- `bext` (R485); the width is `wid` + 1. -/
def execBext (t : Fin 8) (rd ra : Reg) (pos wid : BitVec 5) (s : State) : Out :=
  .next (s.bitField t rd pos wid (bextWord (s.reg t ra) pos.toNat (wid.toNat + 1)))

/-- `bexts` (R485); the width is `wid` + 1. -/
def execBexts (t : Fin 8) (rd ra : Reg) (pos wid : BitVec 5) (s : State) : Out :=
  .next (s.bitField t rd pos wid (bextsWord (s.reg t ra) pos.toNat (wid.toNat + 1)))

/-- `bins` (R485); the width is `wid` + 1. -/
def execBins (t : Fin 8) (rd ra : Reg) (pos wid : BitVec 5) (s : State) : Out :=
  .next (s.bitField t rd pos wid (binsWord (s.reg t rd) (s.reg t ra) pos.toNat (wid.toNat + 1)))

/-! ### Branches, calls and jumps (R495-R497) -/

/-- A branch: PC moves by the offset when the condition holds, else to the next instruction. -/
def State.branch (s : State) (t : Fin 8) (c : Bool) (off : BitVec 16) : State :=
  s.issue t fun s => if c then s.jump t (pcAdd s.eng.thr[t].pc off.toInt) else s.advance t

/-- `beq` (R495). -/
def execBeq (t : Fin 8) (ra rb : Reg) (off : BitVec 16) (s : State) : Out :=
  .next (s.branch t (s.reg t ra == s.reg t rb) off)

/-- `bne` (R495). -/
def execBne (t : Fin 8) (ra rb : Reg) (off : BitVec 16) (s : State) : Out :=
  .next (s.branch t (s.reg t ra != s.reg t rb) off)

/-- `blt` (R495). -/
def execBlt (t : Fin 8) (ra rb : Reg) (off : BitVec 16) (s : State) : Out :=
  .next (s.branch t ((s.reg t ra).slt (s.reg t rb)) off)

/-- `bge` (R495). -/
def execBge (t : Fin 8) (ra rb : Reg) (off : BitVec 16) (s : State) : Out :=
  .next (s.branch t (!(s.reg t ra).slt (s.reg t rb)) off)

/-- `bltu` (R495). -/
def execBltu (t : Fin 8) (ra rb : Reg) (off : BitVec 16) (s : State) : Out :=
  .next (s.branch t (decide (s.reg t ra < s.reg t rb)) off)

/-- `bgeu` (R495). -/
def execBgeu (t : Fin 8) (ra rb : Reg) (off : BitVec 16) (s : State) : Out :=
  .next (s.branch t (!decide (s.reg t ra < s.reg t rb)) off)

/-- The location of the next instruction as a register value (R496). -/
def State.returnLoc (s : State) (t : Fin 8) : Word := (pcAdd s.eng.thr[t].pc 1).setWidth 32

/-- `call` (R496): g15 takes the return location, PC moves as a taken branch. -/
def execCall (t : Fin 8) (off : BitVec 16) (s : State) : Out :=
  .next (s.issue t fun s => (s.putG t 15 (s.returnLoc t)).jump t (pcAdd s.eng.thr[t].pc off.toInt))

/-- A jump to `v`, ILLEGAL when bits [31:15] are not zero (R497). -/
def State.jumpTo (s : State) (t : Fin 8) (rd : Fin 16) (v : Word) : State :=
  s.issue t fun s =>
    if bitsOf v 15 17 = 0 then (s.putG t rd (s.returnLoc t)).jump t (v.setWidth 15) else s.threadFault t fcIllegal

/-- `jr` (R497). -/
def execJr (t : Fin 8) (ra : Fin 16) (s : State) : Out := .next (s.jumpTo t 0 (s.gReg t ra))

/-- `jalr` (R497): PC becomes the value of ra read at issue. -/
def execJalr (t : Fin 8) (rd ra : Fin 16) (s : State) : Out := .next (s.jumpTo t rd (s.gReg t ra))

end Sys2Proof.Machine
end

