-- ==== Sys2Proof/Machine/Flags.lean ====
section
/-! DEFINITION. The status the controller computes from the rest of its state: system fault flags, RUN (Table 6-5), the
lifecycle state (Tables 1-2 and 1-3), what a line port may do (Table 1-4). -/

namespace Sys2Proof.Machine

/-! ### SYS_FAULT (Table 20-3): source 1 arrives each time a flag changes from 0 to 1 -/

/-- SYS_FAULT.KEYFAIL (R660). -/
def State.keyFail (s : State) : State :=
  if s.sys.keyFail then s else (s.updSys fun y => { y with keyFail := true }).arrive 1
/-- SYS_FAULT.PLLERR (R788). -/
def State.setPllErr (s : State) : State :=
  if s.sys.pllErr then s else (s.updSys fun y => { y with pllErr := true }).arrive 1
/-- SYS_FAULT.LFERR (R690). -/
def State.setLfErr (s : State) : State :=
  if s.sys.lfErr then s else (s.updSys fun y => { y with lfErr := true }).arrive 1
/-- SYS_FAULT.OTPERR (R794). -/
def State.setOtpErr (s : State) : State :=
  if s.sys.otpErr then s else (s.updSys fun y => { y with otpErr := true }).arrive 1

/-! ### Ports (R10, R43) -/

/-- One port's state. -/
def State.port (s : State) : LinePort → PortState
  | .plc => s.line.plc
  | .pair => s.line.pair

/-- One port's state changed. -/
def State.updPort (s : State) (port : LinePort) (f : PortState → PortState) : State :=
  match port with
  | .plc => s.updLine fun l => { l with plc := f l.plc }
  | .pair => s.updLine fun l => { l with pair := f l.pair }

/-- The EN bit of a port. -/
def State.portEn (s : State) : LinePort → Bool
  | .plc => bitOf s.line.plcCtl 0
  | .pair => bitOf s.line.pairCtl 0

/-- The port works: enabled, or disabled with a frame still to end (R38). -/
def State.portOn (s : State) (port : LinePort) : Bool := s.portEn port || (s.port port).closing

/-- Ports off: PLC_CTL.EN and PAIR_CTL.EN are both 0 (R684). -/
def State.portsOff (s : State) : Bool := !s.portEn .plc && !s.portEn .pair

/-- The string port (R10). -/
def State.stringPort (s : State) : LinePort := if bitOf s.tide.ctl 0 then .pair else .plc

/-- The port is the pair port in ISO mode. -/
def State.portIso (s : State) (port : LinePort) : Bool := port == .pair && s.isoMode

/-- Bus-off: in quarantine or held there (Table 4-4). -/
def State.busOff (s : State) (port : LinePort) : Bool :=
  match (s.port port).conf with
  | .quarantine => true
  | .held => true
  | _ => false

/-! ### TIDE_RATE and TIDE_PERIOD (R200, R653, R704, R709, R744) -/

def rateOk (v : Word) : Bool := -20000 ≤ v.toInt && v.toInt ≤ 20000

/-- A refused tide value shows in the view it was written through: TIDE_STAT.CFGERR (R744). -/
def State.tideRefused (s : State) : Via → State
  | .sys => s.updTide fun t => { t with cfgErr := true }
  | .win n => s.updPan n fun p => { p with tideCfgErr := true }

/-- TIDE_RATE's pending value applies, or is refused. The loop does not hold the rate that software sets: RCLAMP clears (log 72). -/
def State.applyRate (s : State) : State :=
  let s := s.weed .rate
  match s.tide.rateSh with
  | none => s
  | some v =>
    if rateOk v then s.updTide fun t => { t with rate := v, rateSh := none, rclamp := false }
    else (s.updTide fun t => { t with rateSh := none }).tideRefused s.tide.rateVia

/-- TIDE_PERIOD's pending value applies, or is refused. -/
def State.applyPeriod (s : State) : State :=
  let s := s.weed .period
  match s.tide.periodSh with
  | none => s
  | some v =>
    if v.toNat < 10 then s.updTide fun t => { t with period := v, periodSh := none }
    else (s.updTide fun t => { t with periodSh := none }).tideRefused s.tide.periodVia

/-! ### RUN (R238) -/

/-- The level RUN takes by Table 6-5. -/
def State.runLevel (s : State) : Bool :=
  (s.pow.state == .run || s.pow.state == .listen) && !s.slu.safe && s.slu.fresh && !(s.sys.cfgPar && bitOf s.sys.ctl 0)

/-- RUN driven by Table 6-5; source 7 at each change (R237). -/
def State.updRun (s : State) : State :=
  if s.runLevel == s.slu.run then s else (s.updSlu fun u => { u with run := s.runLevel }).arrive 7

/-! ### Lifecycle (R16-R20) -/

/-- Delay and lock of a Synced controller; a main keeper that sends tide counts as LOCKED with delay zero to itself (R17). LOCKED fallen
back to ACQUIRE is no longer Synced: the controller reports Joining, for which Table 1-3 has no row (DEDUCED, log 74). -/
def State.synced (s : State) : Bool :=
  (s.tide.sending && bitsOf s.tide.keeperReg 0 2 == 1) ||
    (s.line.dlyMain.valid && (s.tide.sending || s.tide.lock == .locked || s.tide.lock == .holdover))

/-- The state beneath the Safe overlay (R17). -/
def State.lifeUnder (s : State) : Life :=
  if s.busOff s.stringPort then .quarantined
  else if !s.portOn s.stringPort || s.portIso s.stringPort then .dormant
  else if s.tide.listening then .listening
  else if s.synced then (if s.slu.run then .live else .synced)
  else if s.tide.heardAny then .joining
  else .listening

/-- The lifecycle state of Table 1-2. -/
def State.lifeNow (s : State) : Life := if s.slu.safe then .safe else s.lifeUnder

/-- SYS_STAT.LIFE and LIFEPREV; source 8 at each change (R20). -/
def State.updLife (s : State) : State :=
  if s.lifeNow == s.sys.life then s
  else (s.updSys fun y => { y with lifePrev := y.life, life := s.lifeNow }).arrive 8

/-- CAL_STAT.UNREL (R613). -/
def State.unrelNow (s : State) : Bool := !s.tide.sending && (s.tide.lock == .free || s.tide.lock == .acquire)

/-- A change of UNREL: source 19 when CAL_CTL.RELIE selects it (R606). -/
def State.updUnrel (s : State) : State :=
  if s.unrelNow == s.cal.unrel then s
  else
    let s1 := s.updCal fun c => { c with unrel := s.unrelNow }
    if bitOf s.cal.ctl 5 then s1.arrive 19 else s1

/-- The condition of the plan search: the PLC port enabled with SEARCH = 1 and the controller Listening (R57). -/
def State.searches (s : State) : Bool := s.portEn .plc && bitOf s.line.plcCtl 3 && s.lifeUnder == .listening

/-- The search starts on the plan in PLC_CHAN when its condition begins to hold, and ends when it no longer holds; source 28 at each
change of SEARCHING (Table 15-1). -/
def State.updSearch (s : State) : State :=
  if s.searches == s.line.searchOn then s
  else
    let s1 := s.updLine fun l =>
      { l with searchOn := s.searches, searching := s.searches, dwell := if s.searches then l.plan else l.dwell }
    if s.line.searching == s.searches then s1 else s1.arrive 28

/-- RUN, the lifecycle, UNREL and the plan search after an event: only the final state is reported (R19). -/
def State.settle (s : State) : State := s.updRun.updLife.updUnrel.updSearch

/-- The value of SYS_STAT.LIFE. -/
def Life.code : Life → Nat
  | .dormant => 0
  | .listening => 1
  | .joining => 2
  | .synced => 3
  | .live => 4
  | .quarantined => 5
  | .safe => 6

/-! ### What a port may do (Table 1-4, R21-R23, R818) -/

/-- The port receives and timestamps frames. -/
def State.receives (s : State) (port : LinePort) : Bool := s.portOn port

/-- The port offers queued frames: a Synced string port, any other enabled native port that is not bus-off, an ISO port that is
not restricted or monitoring. VDRV absent keeps the PLC driver off (R51). -/
def State.offers (s : State) (port : LinePort) : Bool :=
  s.coreRuns && s.portEn port && !s.busOff port && !(port == .plc && s.line.nodrv) &&
    (if s.portIso port then !(bitOf s.line.pairCtl 3 || bitOf s.line.pairCtl 4)
     else if port == s.stringPort then s.lifeUnder == .synced || s.lifeUnder == .live
     else true)

end Sys2Proof.Machine
end

