-- ==== Sys2Proof/Machine/Timers.lean ====
section
/-! DEFINITION. The eight 48-bit timers: writes, counting, capture, links, make-up (chapter 16). -/

namespace Sys2Proof.Machine

def Timer.en (x : Timer) : Bool := bitOf x.ctl 0
def Timer.srcSel (x : Timer) : Nat := bitsOf x.ctl 1 3
def Timer.selNo (x : Timer) : Nat := bitsOf x.ctl 4 3
def Timer.edge (x : Timer) : Nat := bitsOf x.ctl 7 2
def Timer.gate (x : Timer) : Nat := bitsOf x.ctl 9 3
def Timer.gsel (x : Timer) : Nat := bitsOf x.ctl 12 3
def Timer.glvl (x : Timer) : Bool := bitOf x.ctl 15
def Timer.mact (x : Timer) : Nat := bitsOf x.ctl 16 2
def Timer.wact (x : Timer) : Nat := bitsOf x.ctl 18 2
def Timer.mev (x : Timer) : Nat := bitsOf x.ctl 20 2
def Timer.mrst (x : Timer) : Bool := bitOf x.ctl 22
def Timer.lfRun (x : Timer) : Bool := bitOf x.ctl 23
def Timer.dbgRun (x : Timer) : Bool := bitOf x.ctl 24
def Timer.psc (x : Timer) : Nat := bitsOf x.ctl 25 7
def Timer.tpEdge (x : Timer) : Nat := bitsOf x.sel 0 2
def Timer.capE (x : Timer) : Nat := bitsOf x.sel 2 2
def Timer.iev (x : Timer) (k : Nat) : Bool := bitOf x.sel (4 + k)

/-- An edge that a two-bit selector selects: 1 rising, 2 falling, 3 both. -/
def edgeSel (e : Nat) (rising : Bool) : Bool := if rising then e.testBit 0 else e.testBit 1

/-- An edge that EDGE counts: 0 rising, 1 falling, 2 both (Table 16-1). -/
def edgeCounts (e : Nat) (rising : Bool) : Bool := e == 2 || (if rising then e == 0 else e == 1)

/-! ### Names of timers in the views (R569, R570): a number beyond the pan's stands for a timer it does not hold -/

/-- Timers by their numbers in pan `n`'s view: its own first. -/
def State.timView (s : State) (n : Fin 4) : List Nat :=
  s.panTimers n ++ (List.range 8).filter fun k => s.timOwner k != n

/-- A view number as a global one, and back. -/
def State.viewToGlobal (s : State) (n : Fin 4) (k : Nat) : Nat := ((s.timView n)[k]?).getD k
def State.globalToView (s : State) (n : Fin 4) (g : Nat) : Nat := (s.timView n).idxOf g

/-- TIMn_CTL with SEL and GSEL renumbered. -/
def renumber (f : Nat → Nat) (v : Word) : Word := putBits (putBits v 4 3 (f (bitsOf v 4 3))) 12 3 (f (bitsOf v 12 3))

/-! ### Legality (R570, R586, R587) -/

/-- A setting of timer `n` names a timer or pin of another pan. -/
def State.timForeign (s : State) (n : Fin 8) (x : Timer) : Bool :=
  let out := fun k => s.timOwner k != s.timOwner n
  ((x.srcSel == 3 || x.srcSel == 4 || x.mrst) && out x.selNo) || ((x.gate == 1 || x.gate == 2) && out x.gsel)

/-- A combination Table 16-3 refuses. -/
def Timer.illegal (n : Nat) (x : Timer) : Bool :=
  5 ≤ x.srcSel || 5 ≤ x.gate || x.edge == 3 || x.mev == 3 || (x.srcSel == 3 && x.mrst) ||
    ((x.srcSel == 4 || x.mrst) && n ≤ x.selNo) || (x.gate == 2 && n ≤ x.gsel) || (x.lfRun && 3 ≤ x.srcSel)

/-- The timer with its shadows in effect; EN as it stands. -/
def Timer.shadowed (x : Timer) : Timer :=
  { x with ctl := putBit (x.ctlSh.getD x.ctl) 0 x.en, reload := x.reloadSh.getD x.reload, mtch := x.mtchSh.getD x.mtch
           ctlSh := none, reloadSh := none, mtchSh := none }

/-- The pending shadows discarded. -/
def Timer.dropShadow (x : Timer) : Timer := { x with ctlSh := none, reloadSh := none, mtchSh := none }

/-- A buffered write awaits application (PEND). -/
def Timer.pendingShadow (x : Timer) : Bool := x.ctlSh.isSome || x.reloadSh.isSome || x.mtchSh.isSome

/-- An application of the shadows, checked (R589). -/
def State.timApply (s : State) (n : Fin 8) : State :=
  let s := s.weedAll [.timer n 0, .timer n 1, .timer n 2]
  let x := s.tim.tim[n]
  let y := x.shadowed
  if s.timForeign n y then (s.updTim n fun x => { x.dropShadow with cfgErr := true }).panFault (s.timOwner n) fltAccess
  else if y.illegal n then s.updTim n fun x => { x.dropShadow with cfgErr := true }
  else s.updTim n fun _ => y

/-- TIMn_CTL written with the settings in global numbers (R588): buffered while the timer stays enabled, else at once. -/
def State.timWriteCtl (s : State) (n : Fin 8) (v : Word) : State :=
  let x := s.tim.tim[n]
  let s1 := s.updTim n fun x => { x with ctlSh := some v }
  if x.en && bitOf v 0 then s1
  else if x.en then ((s1.updTim n fun x => { x with ctl := putBit x.ctl 0 false }).timApply n)
  else
    let s2 := s1.timApply n
    let refused := s.timForeign n { x with ctl := v } || ({ x with ctl := v } : Timer).illegal n
    if bitOf v 0 && !refused then s2.updTim n fun x => { x with ctl := putBit x.ctl 0 true, resid := 0 } else s2

/-- TIMn_CTL written through a view (R569). -/
def State.timCtl (s : State) (n : Fin 8) (via : Via) (v : Word) : State :=
  match via with
  | .sys => s.timWriteCtl n v
  | .win w => s.timWriteCtl n (renumber (s.viewToGlobal w) v)

/-- TIMn_CTL as a view reads it. -/
def State.timCtlRead (s : State) (n : Fin 8) (via : Via) : Word :=
  match via with
  | .sys => s.tim.tim[n].ctl
  | .win w => renumber (s.globalToView w) s.tim.tim[n].ctl

/-! ### Events (R571-R575, R584, R585) -/

/-- An event of timer `n` at its source, if IEV selects the kind and the source is its pan's (R584). -/
def State.timSource (s : State) (n : Fin 8) (kind : Nat) : State :=
  if s.tim.tim[n].iev kind && s.srcOwner (32 + n) == s.timOwner n then s.arrive (32 + n) else s

/-- OUT after an action: 0 none, 1 set, 2 clear, 3 toggle. -/
def actOn (act : Nat) (out : Bool) : Bool := match act with | 1 => true | 2 => false | 3 => !out | _ => out

/-- The timer is frozen: a thread of its pan is in DEBUG and DBG = FREEZE (R595). -/
def State.timFrozen (s : State) (n : Fin 8) : Bool :=
  !s.tim.tim[n].dbgRun && (s.panThreads (s.timOwner n)).any fun t => s.eng.thr[idx 8 t].state == .debug

/-- The level at pin TPn: OUT while it is driven, else what the pin sees (R579); a pulse that outlived a pan reset drives it high
(R280). -/
def Timer.level (x : Timer) : Bool := x.tail || if x.oe then x.out else x.pin

/-- The gate is open (R573). -/
def State.gateOpen (s : State) (n : Fin 8) : Bool :=
  let x := s.tim.tim[n]
  match x.gate with
  | 0 => true
  | 1 => s.tim.tim[idx 8 x.gsel].level == x.glvl
  | 2 => s.tim.tim[idx 8 x.gsel].out == x.glvl
  | 3 => s.slu.run == x.glvl
  | _ => s.slu.safe == x.glvl

/-- TIMn_STAT.RUNNING. -/
def State.timRunning (s : State) (n : Fin 8) : Bool := s.tim.tim[n].en && s.gateOpen n && !s.timFrozen n

/-- What a tick of the count comes to: whether it wraps, whether it matches (R574-R576). -/
def Timer.next (x : Timer) : BitVec 48 × Bool × Bool :=
  let wrap := x.cnt == x.reload || x.cnt == BitVec.allOnes 48
  let c := if wrap then 0 else x.cnt + 1
  (c, wrap, c == x.mtch && x.mtch ≤ x.reload)

/-- An event of timer `n` that its MEV selects goes to its slaves, which it reaches in the next core cycle (R585); a frozen timer gives
none (R595). -/
def State.timMaster (s : State) (n : Fin 8) (kind : Nat) : State :=
  if s.tim.tim[n].mev != kind || s.timFrozen n then s else { s with tim := { s.tim with links := s.tim.links ++ [n] } }

/-- The level OUT takes at a wrap, then at a match (R597); a PIN action of the same core cycle applies last (R278, R598). -/
def Timer.acted (x : Timer) (now : BitVec 64) (wrap hit : Bool) : Bool :=
  let out1 := if wrap then actOn x.wact x.out else x.out
  if x.pinAt = some now then x.out else if hit then actOn x.mact out1 else out1

/-- OUT after a write of `b`: before the timer's actions and the PIN action of the same core cycle (R598). -/
def Timer.putOut (x : Timer) (now : BitVec 64) (b : Bool) : Bool :=
  if x.pinAt = some now then x.out
  else match x.actAt with
  | some (t, wrap, hit) => if t = now then ({ x with out := b } : Timer).acted now wrap hit else b
  | none => b

/-- One tick of the count: wrap and match with their actions, flags, sources, slaves and shadows (R574, R575); a match that would wake
the controller ends a pending request (R777, Table 23-4). -/
def State.timTick (s : State) (n : Fin 8) : State :=
  let x := s.tim.tim[n]
  let (c, wrap, hit) := x.next
  let s1 := s.updTim n fun x =>
    { x with cnt := c, out := x.acted s.eng.tnow wrap hit, wrapF := x.wrapF || wrap, matchF := x.matchF || hit
             actAt := if wrap || hit then some (s.eng.tnow, wrap, hit) else x.actAt }
  let s2 := if wrap then (s1.timSource n 0).timMaster n 0 else s1
  let s3 := if hit then (s2.timSource n 1).timMaster n 1 else s2
  let s4 := if hit && x.lfRun && x.iev 1 then s3.endRequest false else s3
  if wrap && x.pendingShadow then s4.timApply n else s4

/-- A source event of timer `n` that its gate lets through, at the prescaler (R572). -/
def State.timEvent (s : State) (n : Fin 8) : State :=
  let x := s.tim.tim[n]
  if x.resid < x.psc then s.updTim n fun x => { x with resid := x.resid + 1 } else (s.updTim n fun x => { x with resid := 0 }).timTick n

/-- `k` source events of timer `n` in one core cycle. -/
def State.timEvents (s : State) (n : Fin 8) : Nat → State
  | 0 => s
  | k + 1 => (s.timEvent n).timEvents n k

/-- The source events and the reset that one core cycle brings timer `n` (R571, R585): `ticks` whole ticks of tide time, `lf` cycles of the
32.768 kHz clock, `links` the events of masters in the cycle before. A reset wins over a tick (R597). `g` is the state before the cycle,
whose gates decide (R573, R597); a frozen timer holds its count (R595). -/
def State.timCycle (s g : State) (ticks lf : Nat) (links : List (Fin 8)) (n : Fin 8) : State :=
  let x := s.tim.tim[n]
  let k := (links.filter fun m => m.val == x.selNo).length
  if x.mrst && k != 0 then if g.timFrozen n then s else s.updTim n fun x => { x with cnt := 0, resid := 0 }
  else if !g.timRunning n then s
  else s.timEvents n (match x.srcSel with | 0 => 1 | 1 => ticks | 2 => lf | 4 => k | _ => 0)

/-- The latches of one party for one timer changed. -/
def State.updLatch (s : State) (p : Party) (n : Fin 8) (f : TimLatch → TimLatch) : State :=
  { s with tim := { s.tim with latch := tabUpd s.tim.latch p.ix (fun l => tabUpd l n f) } }

/-! ### Capture (R581-R583) -/

/-- The triggers of a capture (R581). -/
def trigEdge : Nat := 0
def trigSched : Nat := 1
def trigNow : Nat := 2

/-- A capture: pushed, or dropped with CAPOVF when the queue holds four. Triggers of different kinds in one core cycle are one capture
(R597). -/
def State.timCapture (s : State) (n : Fin 8) (trig : Nat) : State :=
  let x := s.tim.tim[n]
  let same := x.capBy != 0 && x.capAt == s.eng.tnow && !bitOf x.capBy trig
  let s1 := s.updTim n fun x =>
    { x with capAt := s.eng.tnow, capBy := if same then putBit x.capBy trig true else putBit 0 trig true }
  if same then s1
  else if x.capq.length < 4 then
    ((s1.updTim n fun x => { x with capq := x.capq ++ [x.cnt], capF := true }).timSource n 2).timMaster n 2
  else (s1.updTim n fun x => { x with capOvf := true }).timSource n 3

/-- TIMn_CAPQ_LO: the oldest entry is removed and its high bits latched for the reader (R583). -/
def State.capqRead (s : State) (p : Party) (n : Fin 8) : Word × State :=
  let e := s.tim.tim[n].capq.headD 0
  let s1 := s.updTim n fun x => { x with capq := x.capq.drop 1 }
  (e.setWidth 32, s1.updLatch p n fun y => { y with capq := e.extractLsb' 32 16 })

/-! ### 48-bit reads and writes (R577, R578) -/

def State.timPair (s : State) (n : Fin 8) : TimPair → BitVec 48
  | .cnt => s.tim.tim[n].cnt
  | .reload => s.tim.tim[n].reload
  | .mtch => s.tim.tim[n].mtch

def TimLatch.put (l : TimLatch) (x : TimPair) (v : BitVec 16) : TimLatch :=
  match x with
  | .cnt => { l with cnt := v }
  | .reload => { l with reload := v }
  | .mtch => { l with mtch := v }

def TimLatch.get (l : TimLatch) : TimPair → BitVec 16
  | .cnt => l.cnt
  | .reload => l.reload
  | .mtch => l.mtch

/-- A read of a _LO register: the low bits, the high ones latched for the reader. -/
def State.timLo (s : State) (p : Party) (n : Fin 8) (x : TimPair) : Word × State :=
  let v := s.timPair n x
  (v.setWidth 32, s.updLatch p n fun y => y.put x (v.extractLsb' 32 16))

/-- A read of a _HI register: the reader's latch. -/
def State.timHi (s : State) (p : Party) (n : Fin 8) (x : TimPair) : Word := (s.tim.latch[p.ix][n].get x).setWidth 32

/-- A write of a _HI register: into the writer's hold. -/
def State.timPutHi (s : State) (p : Party) (n : Fin 8) (x : TimPair) (v : Word) : State :=
  { s with tim := { s.tim with hold := tabUpd s.tim.hold p.ix (fun l => tabUpd l n (fun y => y.put x (v.setWidth 16))) } }

/-- A write of a _LO register: hold and value together; CNT only while EN = 0, RELOAD and MATCH buffered while EN = 1. -/
def State.timPutLo (s : State) (p : Party) (n : Fin 8) (x : TimPair) (v : Word) : State :=
  let w : BitVec 48 := s.tim.hold[p.ix][n].get x ++ v
  let en := s.tim.tim[n].en
  match x with
  | .cnt => s.updTim n fun t => if en then { t with cfgErr := true } else { t with cnt := w }
  | .reload => s.updTim n fun t => if en then { t with reloadSh := some w } else { t with reload := w }
  | .mtch => s.updTim n fun t => if en then { t with mtchSh := some w } else { t with mtch := w }

/-! ### TIMn_STAT (Table 16-2) -/

def State.timStat (s : State) (n : Fin 8) : Word :=
  let x := s.tim.tim[n]
  flag 0 x.oe ||| flag 1 x.out ||| flag 2 x.level ||| field 4 x.sel.toNat ||| field 16 x.capq.length ||| flag 19 x.capOvf |||
    flag 20 x.wrapF ||| flag 21 x.matchF ||| flag 22 x.capF ||| flag 24 x.pendingShadow ||| flag 25 (s.timRunning n) |||
    flag 26 x.cfgErr ||| flag 27 x.mkup

/-- A write of TIMn_STAT: OE, OUT and the selectors set, the flags written 1 cleared, CAPNOW captures. -/
def State.timPutStat (s : State) (n : Fin 8) (v : Word) : State :=
  let s1 := s.updTim n fun x =>
    { x with oe := bitOf v 0, out := x.putOut s.eng.tnow (bitOf v 1), sel := BitVec.ofNat 8 (bitsOf v 4 8)
             capOvf := x.capOvf && !bitOf v 19, wrapF := x.wrapF && !bitOf v 20, matchF := x.matchF && !bitOf v 21
             capF := x.capF && !bitOf v 22, cfgErr := x.cfgErr && !bitOf v 26, mkup := x.mkup && !bitOf v 27 }
  if bitOf v 12 then s1.timCapture n trigNow else s1

/-! ### Pin edges (R579, R584) -/

/-- An edge that reaches timer logic from TPn: the timers that count it, by their gates as they stood (R597); then its source, and its
capture, which takes the count that the tick of that cycle produces (R599). -/
def State.tpEdge (s : State) (n : Fin 8) (rising : Bool) : State :=
  let s1 := ((List.finRange 8).filter fun k => s.tim.tim[k].srcSel == 3 && s.tim.tim[k].selNo == n.val &&
    edgeCounts s.tim.tim[k].edge rising && s.timRunning k).foldl (fun s k => s.timEvent k) s
  let s2 := s1.updTim n fun x => { x with pin := rising }
  let x := s.tim.tim[n]
  let s3 := if edgeSel x.tpEdge rising && s.srcOwner (40 + n) == s.timOwner n then s2.arrive (40 + n) else s2
  if edgeSel x.capE rising then s3.timCapture n trigEdge else s3

/-! ### LISTEN and SLEEP (R590-R593) -/

/-- The count after `a` ticks, with whether a wrap and whether a match was crossed (R574-R576). -/
def Timer.advance (x : Timer) (a : Nat) : Nat × Bool × Bool :=
  let period := x.reload.toNat + 1
  let inRange := x.mtch ≤ x.reload
  let fromRange := fun (c a : Nat) =>
    let k := (x.mtch.toNat + period - c % period - 1) % period + 1
    ((c + a) % period, decide (period ≤ c + a), inRange && decide (k ≤ a))
  if x.cnt ≤ x.reload then fromRange x.cnt.toNat a
  else
    let toWrap := 2 ^ 48 - x.cnt.toNat
    if a < toWrap then (x.cnt.toNat + a, false, false)
    else
      let r := fromRange 0 (a - toWrap)
      (r.1, true, r.2.2 || x.mtch == 0)

/-- The make-up of one timer at wake: `iv` the interval, `tide` the whole ticks by which TIDE_TICK advanced (R591, R593). -/
def State.timMakeup (s : State) (n : Fin 8) (iv : Interval) (tide : Nat) : State :=
  let x := s.tim.tim[n]
  if !(x.en && x.gateFix) then s
  else
    let e := match x.srcSel with
      | 0 => (iv.lf * 6103515625 + 500000) / 1000000
      | 1 => tide
      | 2 => iv.lf
      | _ => 0
    let a := (x.resid + e) / (x.psc + 1)
    let (c, wrap, hit) := x.advance a
    let s1 := s.updTim n fun x =>
      { x with cnt := BitVec.ofNat 48 c, resid := (x.resid + e) % (x.psc + 1), wrapF := x.wrapF || wrap
               matchF := x.matchF || hit, mkup := x.mkup || wrap || hit }
    let s2 := if wrap then s1.timSource n 0 else s1
    let s3 := if hit then s2.timSource n 1 else s2
    if wrap && x.pendingShadow then s3.timApply n else s3

/-- At entry to LISTEN or SLEEP each enabled timer fixes its gate (R590); a frozen one stands (R595). -/
def State.fixGates (s : State) : State :=
  { s with tim := { s.tim with tim := tabMapIdx s.tim.tim fun k x => { x with gateFix := s.gateOpen (idx 8 k) && !s.timFrozen (idx 8 k) } } }

end Sys2Proof.Machine
end

