-- ==== Sys2Proof/Machine/Sched.lean ====
section
/-! DEFINITION. Schedule entries: arming and its checks, past instants, actions, outcomes (chapter 7). -/

namespace Sys2Proof

open Machine

namespace Machine

def SchEntry.act (x : SchEntry) : Nat := bitsOf x.ctl 0 4
def SchEntry.latePol (x : SchEntry) : Nat := bitsOf x.ctl 4 2
def SchEntry.evt (x : SchEntry) : Bool := bitOf x.ctl 8

/-- RESULT values (Table 7-3). -/
def rsNone : Nat := 0
def rsOntime : Nat := 1
def rsMissed : Nat := 2
def rsLate : Nat := 3
def rsCancelled : Nat := 4
def rsBadarg : Nat := 5
def rsRefused : Nat := 6

/-- SCHn_STAT. -/
def SchEntry.stat (x : SchEntry) : Word :=
  field 0 (match x.state with | .idle => 0 | .armed => 1 | .committed => 2) ||| field 4 x.result.toNat ||| flag 8 x.unsync |||
    flag 9 x.wrej

/-- SCHn_CTL: ARM reads 1 while ARMED or COMMITTED. -/
def SchEntry.ctlWord (x : SchEntry) : Word := field 0 (x.ctl.toNat &&& 0x13F) ||| flag 31 (x.state != .idle)

/-- The pan-local number of entry `e`. -/
def State.schLocal (s : State) (e : Fin 32) : Nat := localNo s.schOwner e

/-- The entry's event: its bit of PAN_SCHEV, and the pan's schedule source (R271). -/
def State.schEvent (s : State) (e : Fin 32) : State :=
  let n := s.schOwner e
  (s.updPan n fun p => { p with schev := putBit p.schev (s.schLocal e) true }).arrive (20 + n)

/-- A completion of the entry: RESULT, IDLE, and the event where R271 raises it. -/
def State.schComplete (s : State) (e : Fin 32) (r : Nat) : State :=
  let x := s.sched.ent[e]
  let s1 := s.updSch e fun x => { x with state := .idle, result := BitVec.ofNat 4 r, slot := none, armedBy := none }
  if r = rsMissed ∨ r = rsLate ∨ r = rsBadarg ∨ r = rsRefused ∨ (r = rsOntime ∧ x.evt) then s1.schEvent e else s1

/-! ### Instants (R262) -/

/-- dt of R262: how far the instant lies ahead, modulo the range. -/
def State.ahead (s : State) (i : Instant) : Nat :=
  (((i.ticks : Int) - (s.now.ticks : Int)) % (tideRange : Int)).toNat

/-- The instant is past (R262). -/
def State.isPast (s : State) (i : Instant) : Bool := s.ahead i < 40 || 2147483648 * ticksPerSec < s.ahead i

/-- An instant has been reached: it is now, or earlier by less than half the range. -/
def State.reached (s : State) (i : Instant) : Bool := s.ahead i == 0 || 2147483648 * ticksPerSec < s.ahead i

def SchEntry.instant (x : SchEntry) : Instant := ⟨x.sec, x.tick⟩

/-- SCHn_LATE: now less the instant, saturating; an instant up to 200 ns ahead counts as past too, and the spec gives no lateness
for an instant that lies ahead (a free value, log 10). -/
def State.putLate (s : State) (e : Fin 32) : State :=
  let d := s.ahead s.sched.ent[e].instant
  if d = 0 then s.updSch e fun x => { x with late := 0 }
  else if d ≤ 2147483648 * ticksPerSec then (s.updSch e fun x => { x with late := Config.freeWord s.free }).takeFree
  else s.updSch e fun x => { x with late := BitVec.ofNat 32 (min 0xFFFFFFFF (tideRange - d)) }

/-! ### The frame of a TX entry (R265, R353) -/

/-- A slot returned to the holder that armed it (R341). -/
def State.giveBack (s : State) (g : Nat) (who : Option (Fin 8)) : State :=
  match who with
  | none => s.passSlot g ownHost 0
  | some t => s.passSlot g ownThread (s.thrLocal t)

/-- What a completed TX frame reports through the queue that stands for it: counts, source, CPL event. -/
def State.reportTx (s : State) (n q : Fin 4) (code : Nat) : State :=
  let tq := s.tq n q
  let cnt := if code = stExpired then incCnt tq.cnt 2
    else if code = stRetry ∨ code = stUnacked then incCnt tq.cnt 3 else tq.cnt
  let s1 := s.updTq n q fun tq => { tq with cnt := cnt }
  if tq.keeps code then (s1.arriveOwn n tq.src).cplEvent n tq else s1

/-- The completion of a TX frame in its own slot. -/
def State.finishTx (s : State) (n q : Fin 4) (g code : Nat) (who : Option (Fin 8)) (r : Record) : State :=
  ((s.writeStatus g code r).giveBack g who).reportTx n q code

/-- A fired frame completes; one of an earlier generation of its pan is discarded (R318, R353). -/
def State.completeFired (s : State) (x : FiredTx) (code : Nat) (r : Record) : State :=
  let s1 := { s with sched := { s.sched with fired := s.sched.fired.filter fun y => y.slot != x.slot || y.gen != x.gen } }
  if x.gen = s.pans[x.pan].gen then s1.finishTx x.pan x.q x.slot code x.armedBy r else s1

/-- The queue operand of a TX entry. -/
def SchEntry.txq (x : SchEntry) : Fin 4 := idx 4 (bitsOf x.opnd 12 2)

/-- An armed TX entry gives its slot up with a status (R260, R263). -/
def State.dropTx (s : State) (e : Fin 32) (code : Nat) : State :=
  let x := s.sched.ent[e]
  let n := s.schOwner e
  match x.slot with
  | none => s
  | some g => s.finishTx n x.txq g code x.armedBy (.waiting (s.tq n x.txq).port none)

/-- The deadline a slot holds. -/
def State.slotDeadline (s : State) (g : Nat) : Option Instant :=
  if bitOf (s.slotWord g 5) 31 then some ⟨s.slotWord g 6, BitVec.ofNat 28 (bitsOf (s.slotWord g 5) 0 28)⟩ else none

/-- The slot's deadline has passed. -/
def State.deadlinePassed (s : State) (g : Nat) : Bool := ((s.slotDeadline g).map s.reached).getD false

/-! ### Arming (R258-R260, R264) -/

/-- What a check at arming finds: nothing, a bad operand, another pan's resource, a missing capability. -/
inductive ArmCheck where
  | ok | bad | access | cap
  deriving DecidableEq, Repr

/-- The pan holds CHANNEL or is the owner pan. -/
def State.mayChannel (s : State) (n : Fin 4) : Bool := n == 0 || s.hasCap n .channel

/-- A plan of PLC_POLICY.MASK. -/
def State.planAllowed (s : State) (p : Nat) : Bool := 1 ≤ p && p ≤ 6 && bitOf s.line.policy (7 + p)

/-- The plan a CHANNEL operand asks for: its own, or the pending one. -/
def State.planOf (s : State) (opnd : Word) : Option Nat :=
  if bitsOf opnd 0 3 = 0 then s.line.planSh.map BitVec.toNat else some (bitsOf opnd 0 3)

/-- The slot a TX operand names is held by the arming party. -/
def State.armHolds (s : State) (who : Option (Fin 8)) (g : Nat) : Bool :=
  match who with
  | none => s.slotOwn g == ownHost
  | some t => s.slotHeldBy g t

/-- TX: the slot is the pan's and held by the arming party; the item passes R108. -/
def State.checkTx (s : State) (n : Fin 4) (who : Option (Fin 8)) (o : Word) : ArmCheck :=
  if merge 0x37FF 0 o != o then .bad
  else match s.slotGlobal n (bitsOf o 0 11) with
  | none => .bad
  | some g =>
    if !s.armHolds who g then .bad
    else if s.lacksRight n (s.slotFrame g) then .cap
    else if 64 < bitsOf (s.slotWord g 1) 0 7 || s.badForm (s.slotFrame g) then .bad
    else .ok

/-- PIN: a pan-local TP pin (R737), or SYNC_OUT of its owner; WIDTH at least 1 for PULSE. -/
def State.checkPin (s : State) (n : Fin 4) (o : Word) : ArmCheck :=
  let pin := bitsOf o 0 4
  if merge 0x00FFFF3F 0 o != o || 9 ≤ pin || (bitsOf o 4 2 == 3 && bitsOf o 8 16 == 0) then .bad
  else if pin = 8 then (if s.syncOwner = n then .ok else .access)
  else if pin < (s.panTimers n).length then .ok else .bad

/-- The checks of Table 7-4. -/
def State.checkArm (s : State) (n : Fin 4) (who : Option (Fin 8)) (act : Nat) (o : Word) : ArmCheck :=
  match act with
  | 1 => s.checkTx n who o
  | 2 => s.checkPin n o
  | 3 => if merge 0xFF 0 o == o && o.toNat < 2 ^ (s.panTimers n).length then .ok else .bad
  | 4 =>
    if merge 0x00073FFF 0 o == o && bitsOf o 16 3 < (s.panThreads n).length && 4 * bitsOf o 0 14 < (s.iramRegion n).2 then .ok
    else .bad
  | 5 =>
    if merge 0x7F 0 o != o || !srcExists (bitsOf o 0 7) then .bad
    else if s.srcOwner (bitsOf o 0 7) = n then .ok else .access
  | 6 =>
    if !s.mayChannel n then .cap
    else if merge 7 0 o == o && ((s.planOf o).map s.planAllowed).getD false then .ok else .bad
  | _ => .bad

end Machine

/-- The holder that a party arms for. -/
def Party.holder : Party → Option (Fin 8)
  | .host _ => none
  | .thread t => some t

namespace Machine

/-- The plan takes effect (R270): the pending shadow is used up, the port waits for ten recessive bits. -/
def State.changePlan (s : State) (plan : BitVec 3) : State :=
  let s := s.weed .chan
  let bad := match s.line.planSh with | some p => p == 0 || p == 7 | none => false
  s.updLine fun l =>
    { l with plan := plan, planSh := none, cfgErr := l.cfgErr || bad
             plc := { l.plc with use := if bitOf l.plcCtl 0 then .waitTen else l.plc.use } }

/-- A CHANNEL action changes the plan and its entry completes (R270). -/
def State.channelDone (s : State) (e : Fin 32) (plan : BitVec 3) (late : Bool) : State :=
  let s1 := (s.changePlan plan).putLate e
  s1.schComplete e (if late then rsLate else rsOntime)

/-- CHANNEL at its firing (R270): at once on an idle or disabled port, else at the bus idle. -/
def State.fireChannel (s : State) (e : Fin 32) (late : Bool) : State :=
  match s.planOf s.sched.ent[e].opnd with
  | none => s.schComplete e rsRefused
  | some p =>
    if !s.planAllowed p then s.schComplete e rsRefused
    else if s.portEn .plc && s.line.plc.use != .idle && s.line.plc.use != .waitTen && s.line.plc.use != .suspended then
      (s.updSch e fun x => { x with state := .committed }).updLine fun l =>
        { l with chanPend := l.chanPend ++ [(e, BitVec.ofNat 3 p, late)] }
    else if late then s.channelDone e (BitVec.ofNat 3 p) true
    else ((s.changePlan (BitVec.ofNat 3 p)).updSch e fun x => { x with late := 0 }).schComplete e rsOntime

/-- A level driven by MODE: 0 SET, 1 CLEAR, 2 TOGGLE, 3 PULSE (R266). -/
def pinLevel (mode : Nat) (old : Bool) : Bool := match mode with | 1 => false | 2 => !old | _ => true

/-- PIN (R266, R278): the end of a pulse in progress is cancelled. -/
def State.firePin (s : State) (e : Fin 32) : Nat × State :=
  let o := s.sched.ent[e].opnd
  let mode := bitsOf o 4 2
  if bitsOf o 0 4 = 8 then
    (rsOntime, { s with sched := { s.sched with syncOut := pinLevel mode s.sched.syncOut, syncPulse := mode == 3 } })
  else
    match (s.panTimers (s.schOwner e))[bitsOf o 0 4]? with
    | none => (rsRefused, s)
    | some k =>
      if s.tim.tim[idx 8 k].oe then
        (rsOntime, s.updTim (idx 8 k) fun x =>
          { x with out := pinLevel mode x.out, pulse := mode == 3, tail := false, pinAt := some s.eng.tnow })
      else (rsRefused, s)

/-- CAPTURE (R267): every selected timer of the pan, all of them for a zero MASK. No capture changes another timer's count in this core
cycle (R585), so the counts are those of one cycle. -/
def State.fireCapture (s : State) (e : Fin 32) : State :=
  let m := s.sched.ent[e].opnd
  let ts := s.panTimers (s.schOwner e)
  (ts.zipIdx.filter fun p => m == 0 || bitOf m p.2).foldl (fun s p => s.timCapture (idx 8 p.1) trigSched) s

/-- THREAD (R268, R441). -/
def State.fireThread (s : State) (e : Fin 32) : Nat × State :=
  let o := s.sched.ent[e].opnd
  match (s.panThreads (s.schOwner e))[bitsOf o 16 3]? with
  | none => (rsRefused, s)
  | some t =>
    let r := s.startThread (idx 8 t) (BitVec.ofNat 15 (bitsOf o 0 14))
    (if r.1 then rsOntime else rsRefused, r.2)

/-- TX at its firing (R265, R283): a candidate of its pan, unless its deadline has passed. -/
def State.fireTx (s : State) (e : Fin 32) : State :=
  let x := s.sched.ent[e]
  let n := s.schOwner e
  match x.slot with
  | none => s
  | some g =>
    let f : FiredTx := ⟨e, n, x.txq, g, x.armedBy, s.offers (s.tq n x.txq).port, s.pans[n].gen, none⟩
    let s1 := { s with sched := { s.sched with fired := s.sched.fired ++ [f] } }
    if s.deadlinePassed g then s1.completeFired f stExpired (.waiting (s.tq n x.txq).port none) else s1

/-- The entry fires, on time or late (R261, R263, R272). -/
def State.schFire (s : State) (e : Fin 32) (late : Bool) : State :=
  let s1 := s.updSch e fun x => { x with unsync := s.tide.lock != .locked }
  let s2 := if late then s1.putLate e else s1
  let done := fun (r : Nat × State) => r.2.schComplete e (if r.1 = rsOntime ∧ late then rsLate else r.1)
  match s.sched.ent[e].act with
  | 1 => done (rsOntime, s2.fireTx e)
  | 2 => done (s2.firePin e)
  | 3 => done (rsOntime, s2.fireCapture e)
  | 4 => done (s2.fireThread e)
  | 5 => done (rsOntime, s2.arrive (bitsOf s.sched.ent[e].opnd 0 7))
  | _ => s2.fireChannel e late

/-- An entry whose instant is past completes under its late policy (R263, Table 7-5). -/
def State.schLate (s : State) (e : Fin 32) : State :=
  let x := s.sched.ent[e]
  let skip := if x.latePol = 0 then x.act = 2 ∨ x.act = 3 ∨ x.act = 6 else x.latePol = 1
  if skip then (s.dropTx e stMissed).schComplete e rsMissed else s.schFire e true

/-- The TX slot passes to LINE with the node's address as SOURCE, its counts and status clear (R91, R265, R341). -/
def State.takeTx (s : State) (e : Fin 32) (who : Option (Fin 8)) (g : Nat) : State :=
  let w0 := s.slotWord g 0
  let w0 := if bitOf w0 31 then w0 else putBits w0 0 6 s.line.addr.toNat
  let w1 := putBits (s.slotWord g 1) 20 12 0
  let w2 := field 14 ownLine ||| field 16 s.pans[s.schOwner e].gen.toNat
  (((s.putSlotWord g 0 w0).putSlotWord g 1 w1).putSlotWord g 2 w2).updSch e fun x => { x with slot := some g, armedBy := who }

/-- A write of SCHn_CTL with ARM = 1 (R258-R260, R263). -/
def State.schArm (s : State) (p : Party) (e : Fin 32) (v : Word) : State :=
  let x := s.sched.ent[e]
  let n := s.schOwner e
  if x.state != .idle then s.updSch e fun x => { x with wrej := true }
  else
    let s1 := s.updSch e fun x => { x with ctl := BitVec.ofNat 9 (v.toNat &&& 0x13F) }
    let act := bitsOf v 0 4
    let c := if act = 0 ∨ 6 < act ∨ bitsOf v 4 2 = 3 then .bad else s.checkArm n p.holder act x.opnd
    let s2 := match c with
      | .access => s1.panFault n fltAccess
      | .cap => s1.panFault n fltCap
      | _ => s1
    if c != .ok || 200000000 ≤ x.tick.toNat || !s.sys.panLock then s2.schComplete e rsBadarg
    else
      let s3 := s2.updSch e fun x => { x with state := .armed }
      let s4 := if act = 1 then
          match s.slotGlobal n (bitsOf x.opnd 0 11) with
          | some g => s3.takeTx e p.holder g
          | none => s3
        else s3
      if s.isPast x.instant then s4.schLate e else s4

/-- The COMMITTED transition of an armed entry has come: 40 ticks or less to its instant (R261). -/
def State.commitDue (s : State) (e : Fin 32) : Bool :=
  s.ahead s.sched.ent[e].instant ≤ 40 || s.reached s.sched.ent[e].instant

/-- A write of SCHn_CTL with ARM = 0 (R260): ACT, LATE and EVT of an entry that is not COMMITTED change; an ARMED entry is disarmed,
unless its COMMITTED transition has come (R279). -/
def State.schDisarm (s : State) (e : Fin 32) (v : Word) : State :=
  let put := fun (s : State) => s.updSch e fun x => { x with ctl := BitVec.ofNat 9 (v.toNat &&& 0x13F) }
  match s.sched.ent[e].state with
  | .idle => put s
  | .armed =>
    if s.commitDue e then s.updSch e fun x => { x with state := .committed, wrej := true }
    else put ((s.dropTx e stAborted).schComplete e rsCancelled)
  | .committed => s.updSch e fun x => { x with wrej := true }

/-- A write of SCHn_CTL. -/
def State.schCtl (s : State) (p : Party) (e : Fin 32) (v : Word) : State :=
  if bitOf v 31 then s.schArm p e v else s.schDisarm e v

/-- A write of SCHn_TICK, SCHn_SEC or SCHn_OPND: ignored with WREJ unless IDLE (R260). -/
def State.schWrite (s : State) (e : Fin 32) (f : SchEntry → SchEntry) : State :=
  s.updSch e fun x => if x.state == .idle then f x else { x with wrej := true }

/-- A forward move of tide time over armed and committed entries (R210, R263, R281). -/
def State.schMoved (s : State) : State :=
  (List.finRange 32).foldl (fun s e =>
    match s.sched.ent[e].state with
    | .armed => if s.isPast s.sched.ent[e].instant then s.schLate e else s
    | .committed =>
      if s.reached s.sched.ent[e].instant && !(s.line.chanPend.any fun c => c.1 == e) then s.schFire e false else s
    | .idle => s) s

end Machine

end Sys2Proof
end

