-- ==== Sys2Proof/Machine/Attempt.lean ====
section
/-! DEFINITION. The life of a transmission attempt: where its frame comes from, what each end does to it, the error counts and
confinement states of a port (chapters 4, 9, 11, 24). -/

namespace Sys2Proof.Machine

/-! ### The bridge queues (R305, R828, R829) -/

/-- The pan the bridge traffic is charged to: the lowest-numbered that holds BRIDGE (R305). -/
def State.bridgePan (s : State) : Option (Fin 4) := ([0, 1, 2, 3] : List (Fin 4)).find? fun n => s.hasCap n .bridge

/-- The bridge queue that leaves on a port. -/
def State.bridgeQ (s : State) : LinePort → List Forward
  | .pair => s.line.bridgePA
  | .plc => s.line.bridgeAP

def State.setBridgeQ (s : State) (port : LinePort) (q : List Forward) : State :=
  match port with
  | .pair => s.updLine fun l => { l with bridgePA := q }
  | .plc => s.updLine fun l => { l with bridgeAP := q }

/-- A forward toward `port` is lost: PDROP or ADROP, modulo 256, and source 13 (R708, R828). -/
def State.bridgeDrop (s : State) (port : LinePort) : State :=
  let lo := match port with | .pair => 16 | .plc => 24
  (s.updLine fun l => { l with bridge := putBits l.bridge lo 8 (bitsOf l.bridge lo 8 + 1) }).arrive 13

/-! ### Slot header counts -/

/-- RCNT and LOSTARB of a slot (Table 9-2). -/
def State.rcnt (s : State) (g : Nat) : Nat := bitsOf (s.slotWord g 1) 20 4
def State.rlim (s : State) (g : Nat) : Nat := bitsOf (s.slotWord g 1) 16 4
def State.bumpRcnt (s : State) (g : Nat) : State := s.putSlotWord g 1 (putBits (s.slotWord g 1) 20 4 (min 15 (s.rcnt g + 1)))
def State.bumpLost (s : State) (g : Nat) : State :=
  s.putSlotWord g 1 (putBits (s.slotWord g 1) 24 8 (min 255 (bitsOf (s.slotWord g 1) 24 8 + 1)))

/-! ### Ends of an attempt -/

/-- The pan a frame belongs to or is charged to. -/
def State.srcPan (s : State) : TxSource → Option (Fin 4)
  | .queue n _ _ => some n
  | .fired g => some (s.slotOwner g)
  | .bridge => s.bridgePan
  | .gasp _ => some 0
  | .tide => none
  | .sound => none

/-- The attempt's frame still belongs to the pan's present generation (R318). -/
def State.alive (s : State) (a : TxAttempt) : Bool :=
  match s.srcPan a.src with
  | some n => s.pans[n].gen == a.gen
  | none => a.src == .tide || a.src == .sound

/-- A queue's item leaves the wire and waits again, with what the attempt left. -/
def State.unwire (s : State) (n q : Fin 4) (g : Nat) (last : Instant × Bool) : State :=
  s.updTq n q fun tq =>
    { tq with items := tq.items.map fun i => if i.slot = g then { i with st := .queued, last := some last } else i }

/-- A queue's item was flushed while on the wire (R354). -/
def State.wasFlushed (s : State) (n q : Fin 4) (g : Nat) : Bool := (s.tq n q).items.any fun i => i.slot == g && i.flushed

/-- The head of the bridge queue of a port is the forward of attempt `a`. -/
def State.bridgeHead (s : State) (port : LinePort) (a : TxAttempt) : Option Forward :=
  match s.bridgeQ port with
  | h :: _ => if h.gen = a.gen then some h else none
  | [] => none

/-- The frame completes with a status (R351, R265, R829, R318); a boundary that passed while a tide frame was on the wire stays due
(R178). -/
def State.finish (s : State) (port : LinePort) (a : TxAttempt) (code : Nat) (r : Record) : State :=
  let good := code = stSent
  let queue := fun (n q : Fin 4) (g : Nat) =>
    if s.alive a then s.completeItem n q g (if s.wasFlushed n q g && !good then stFlushed else code) r else s
  match a.src with
  | .queue n q g => queue n q g
  | .gasp g => queue 0 3 g
  | .fired g =>
    match s.sched.fired.find? (fun x => x.slot == g && x.gen == a.gen) with
    | some x =>
      if good && !x.first then s.completeFired x stSentLate (if a.frame.isSoundReq then { r with words := none } else r)
      else s.completeFired x code r
    | none => s
  | .tide =>
    match r.words with
    | some w => if good then s.updTide fun t => { t with rollMap := w.2 ++ w.1, rollErr := r.rollErr } else s
    | none => s
  | .sound => s
  | .bridge =>
    match s.bridgeHead port a with
    | some _ =>
      let s1 := s.setBridgeQ port ((s.bridgeQ port).drop 1)
      if good then s1 else s1.bridgeDrop port
    | none => s

/-- The frame goes back to wait for a later opportunity; `ack`: the attempt's ACK slot was dominant. -/
def State.requeue (s : State) (port : LinePort) (a : TxAttempt) (ack : Bool) (f : Forward → Forward) : State :=
  match a.src with
  | .queue n q g => if s.alive a then s.unwire n q g (a.sof, ack) else s
  | .gasp g => if s.alive a then s.unwire 0 3 g (a.sof, ack) else s
  | .fired g =>
    { s with sched := { s.sched with fired := s.sched.fired.map fun x =>
        if x.slot = g && x.gen = a.gen then { x with first := false, last := some (a.sof, ack) } else x } }
  | .tide => s.updTide fun t => { t with due := true }
  | .sound => s.updLine fun l => { l with soundOut := some (l.soundOut.getD a.frame) }
  | .bridge =>
    match s.bridgeHead port a with
    | some h => s.setBridgeQ port (f h :: (s.bridgeQ port).drop 1)
    | none => s

/-- The slot of an attempt's frame. -/
def TxSource.slot : TxSource → Option Nat
  | .queue _ _ g => some g
  | .fired g => some g
  | .gasp g => some g
  | _ => none

/-- What a failed attempt leaves: the port, the SOF, the ACK slot, no bitmap. -/
def TxAttempt.failRecord (a : TxAttempt) (port : LinePort) (ack : Bool) : Record := .waiting port (some (a.sof, ack))

/-- An attempt fails: a retry, or the completion under R157, R158, R354 and R366. `unack`: in an ACK error; `ack`: its ACK slot had
been dominant. -/
def State.failed (s : State) (port : LinePort) (a : TxAttempt) (unack ack : Bool) : State :=
  let last := if unack then stUnacked else stRetry
  let r := a.failRecord port ack
  match a.src with
  | .tide => s.requeue port a ack id
  | .sound => s.requeue port a ack id
  | .bridge =>
    match s.bridgeHead port a with
    | some h => if 3 ≤ h.rcnt then s.finish port a last r else s.requeue port a ack fun h => { h with rcnt := h.rcnt + 1 }
    | none => s
  | src =>
    match src.slot with
    | none => s
    | some g =>
      if !s.alive a then (s.finish port a stAborted r)
      else
        let flushed := match src with | .queue n q g => s.wasFlushed n q g | .gasp g => s.wasFlushed 0 3 g | _ => false
        if flushed then s.finish port a stFlushed r
        else if s.rlim g ≤ s.rcnt g then s.finish port a last r
        else if s.deadlinePassed g then s.finish port a stExpired r
        else (s.bumpRcnt g).requeue port a ack id

/-- An attempt that used no retry goes back: arbitration lost, the driver or the port taken away. -/
def State.putOff (s : State) (port : LinePort) (a : TxAttempt) (lost : Bool) : State :=
  let bump := fun (h : Forward) => if lost then { h with lost := min 255 (h.lost + 1) } else h
  match a.src.slot with
  | none => s.requeue port a false bump
  | some g =>
    if !s.alive a then s.finish port a stAborted (a.failRecord port false)
    else
      let s1 := if lost then s.bumpLost g else s
      let flushed := match a.src with | .queue n q g => s.wasFlushed n q g | .gasp g => s.wasFlushed 0 3 g | _ => false
      if flushed then s1.finish port a stFlushed (a.failRecord port false)
      else if s.deadlinePassed g then s1.finish port a stExpired (a.failRecord port false)
      else s1.requeue port a false bump

/-! ### The line after a frame (R150, R38) -/

/-- A slew ends (R201). -/
def Tide.endSlew (t : Tide) : Tide := { t with slewing := false, slewLeft := 0, slewRate := 0 }

/-- The controller no longer sends tide: what waited for its next frame is withdrawn, a slew ends with its role (DESIGN CHOICE,
log 61). -/
def Tide.silent (t : Tide) : Tide := { t.endSlew with sending := false, due := false, early := false, takeover := false, epochNext := none }

/-- The string port goes down, or another port becomes the string port: the lock falls to FREE, a keeper stops sending (Tables 1-3,
5-2). -/
def State.leaveString (s : State) : State :=
  let s1 := s.updTide fun t =>
    { t.silent with lock := .free, heardAny := false, listening := false, lastTracked := none, heard := none
                    untracked := if t.lastTracked.isSome then some s.now.ticks else t.untracked }
  let s2 := s1.applyRate.applyPeriod
  if s.tide.lock = .free then s2 else s2.arrive 16

/-- A port goes down. -/
def State.portDown (s : State) (port : LinePort) : State :=
  let s1 := s.updPort port fun x => { x with use := .idle, closing := false, waitNext := false, sofHold := none, justSent := false }
  if port != s.stringPort then s1 else s1.leaveString

/-- The line is idle again after a frame: a port that has just sent as passive waits its suspension, a port being disabled
closes. -/
def State.lineIdle (s : State) (port : LinePort) : State :=
  let x := s.port port
  if x.closing then s.portDown port
  else s.updPort port fun x =>
    { x with use := if x.waitNext then .waitTen else if x.justSent && x.conf == .passive then .suspended else .idle
             waitNext := false, justSent := false }

/-- The frame of this controller is off the wire. -/
def State.dropTxOn (s : State) (port : LinePort) : State := s.updPort port fun x => { x with tx := none }

/-- A sluice burst destroys the frame this controller has on the wire: SLUICED, no retry (R126, R224, R245); the port then waits
for ten recessive bits (R167). -/
def State.sluiceFrame (s : State) (port : LinePort) : State :=
  let s1 := match (s.port port).tx with
    | none => s
    | some a => (s.dropTxOn port).finish port a stSluiced (a.failRecord port false)
  if (s.port port).closing then s1.portDown port
  else if s.portEn port then s1.updPort port fun x => { x with use := .waitTen, waitNext := false, justSent := false } else s1

/-! ### Error counts (R144-R148, R820, R823) -/

/-- The source of a port's state changes (R154). -/
def estateSource : LinePort → Nat
  | .plc => 10
  | .pair => 11

/-- A port's confinement state changed (R154). -/
def State.setConf (s : State) (port : LinePort) (c : Confinement) : State :=
  if (s.port port).conf = c then s else (s.updPort port fun x => { x with conf := c }).arrive (estateSource port)

/-- 60 s in microseconds. -/
def guardSpan : Nat := 60000000

/-- Bus-off entry for the guard (R153): the history, and whether the guard trips now. -/
def PortState.guardEntry (x : PortState) (now : Nat) : PortState × Bool :=
  let h := (now :: x.history).take 4
  let trip := !x.guard && h.length == 4 && decide (now ≤ h.getLastD now + guardSpan)
  ({ x with history := h, guard := x.guard || trip }, trip)

/-- The port enters Quarantine (R146, R151, R153, R165, R166). -/
def State.enterQuarantine (s : State) (port : LinePort) (now : Nat) : State :=
  let s1 := s.updPort port fun x => { (x.guardEntry now).1 with qcnt := 0, rejoin := false, commits := [], justSent := false }
  let s2 := if ((s.port port).guardEntry now).2 then s1.arrive 12 else s1
  let s3 := match (s.port port).tx with
    | some a => ((s2.dropTxOn port).putOff port a false).updPort port fun x => { x with use := .receiving }
    | none => s2
  let s4 := if port = s.stringPort && s.tide.sending then (s3.updTide Tide.silent).applyRate.applyPeriod else s3
  s4.setConf port .quarantine

/-- The counts after one change, within their bounds (R147). -/
def PortState.counted (x : PortState) (c : CountChange) : PortState :=
  { x with tecCnt := (min 256 (max 0 ((x.tecCnt : Int) + c.dTec))).toNat, recCnt := (min 511 (max 0 ((x.recCnt : Int) + c.dRec))).toNat }

/-- The count at which a port becomes passive (R148, R820). -/
def State.passiveAt (s : State) (port : LinePort) : Nat := if s.portIso port then 128 else 96

/-- The confinement state follows the committed counts (R148, R164). -/
def State.follow (s : State) (port : LinePort) (now : Nat) : State :=
  let x := s.port port
  if s.busOff port then s
  else if 256 ≤ x.tecCnt then s.enterQuarantine port now
  else if s.passiveAt port ≤ x.tecCnt ∨ s.passiveAt port ≤ x.recCnt then s.setConf port .passive
  else s.setConf port .active

/-- The always-on clock in microseconds. -/
def State.aonUs (s : State) : Nat := s.pow.aon / 200

/-- A command brings the always-on clock to `us` microseconds; it never runs backward (DESIGN CHOICE, log 60). -/
def State.bringAon (s : State) (us : Nat) : State := s.updPow fun p => { p with aon := max p.aon (200 * us) }

/-- A count change: none while bus-off, restricted or monitoring; at once in ISO mode without pair sluice; else it waits (R146,
R818, R823). -/
def State.addCount (s : State) (port : LinePort) (dTec dRec : Int) : State :=
  if s.busOff port || (dTec == 0 && dRec == 0) then s
  else if s.portIso port then
    if bitOf s.line.pairCtl 3 || bitOf s.line.pairCtl 4 then s
    else if bitOf s.slu.ctl 2 then s.updPort port fun x => { x with commits := x.commits ++ [⟨dTec, dRec⟩] }
    else (s.updPort port fun x => x.counted ⟨dTec, dRec⟩).follow port s.aonUs
  else s.updPort port fun x => { x with commits := x.commits ++ [⟨dTec, dRec⟩] }

/-- `n` count changes of the same size. -/
def State.addCounts (s : State) (port : LinePort) (dTec dRec : Int) : Nat → State
  | 0 => s
  | n + 1 => (s.addCount port dTec dRec).addCounts port dTec dRec n

/-- The oldest waiting change commits. -/
def State.commitCount (s : State) (port : LinePort) (now : Nat) : State :=
  match (s.port port).commits with
  | [] => s
  | c :: cs => (s.updPort port fun x => { x.counted c with commits := cs }).follow port now

/-- The port goes back to Active with its counts at zero (R151, R152, Table 4-3); a main keeper listens again (R166). -/
def State.rejoinPort (s : State) (port : LinePort) : State :=
  let s1 := s.updPort port fun x => { x with tecCnt := 0, recCnt := 0, qcnt := 0, rejoin := false }
  let s2 := s1.setConf port .active
  if port = s.stringPort && bitsOf s.tide.keeperReg 0 2 == 1 && s.portEn port && !s.portIso port then
    s2.updTide fun t => { t.silent with listening := true, heard := none }
  else s2

/-- How many recessive sequences end a quarantine, and the largest count shown (R151, R821). -/
def State.quarantineLen (s : State) (port : LinePort) : Nat × Nat := if s.portIso port then (128, 127) else (64, 64)

/-- One more recessive sequence in Quarantine (R151). -/
def State.quarantineStep (s : State) (port : LinePort) : State :=
  let x := s.port port
  if x.conf != .quarantine then s
  else if x.qcnt + 1 < (s.quarantineLen port).1 then s.updPort port fun x => { x with qcnt := x.qcnt + 1 }
  else if x.rejoin || (bitOf s.line.ctl 0 && !x.guard) then s.rejoinPort port
  else (s.updPort port fun x => { x with qcnt := (s.quarantineLen port).2 }).setConf port .held

/-- An accepted rejoin write (R152, R153). It clears the guard and the history in every state: "no effect" in Active and Passive is
read as no effect on the state of the port (DEDUCED, log 62). -/
def State.rejoinWrite (s : State) (port : LinePort) : State :=
  let s1 := s.updPort port fun x => { x with guard := false, history := [] }
  match (s.port port).conf with
  | .held => s1.rejoinPort port
  | .quarantine => s1.updPort port fun x => { x with rejoin := true }
  | _ => s1

end Sys2Proof.Machine
end

