-- ==== Sys2Proof/Machine/Sluice.lean ====
section
/-! DEFINITION. The shutdown path: requests and bursts, the SAFE latch, its release, the keep-alive (chapter 6). -/

namespace Sys2Proof.Machine

/-! ### Bursts (R223-R225) -/

/-- The pair port carries sluice (R223). -/
def State.pairSluice (s : State) : Bool := s.portEn .pair && bitOf s.slu.ctl 2

/-- The PLC port can send a tone. -/
def State.plcSluice (s : State) : Bool := s.portEn .plc && !s.line.nodrv

/-- A burst is requested: none while the own one runs, TXNONE when no port carries it; an own frame is cut (R223-R225). -/
def State.emitBurst (s : State) : State :=
  if s.slu.burst != 0 then s
  else if !s.plcSluice && !s.pairSluice then s.updSlu fun u => { u with txNone := true }
  else
    let s1 := s.updSlu fun u => { u with burst := putBit (putBit u.burst 0 s.plcSluice) 1 s.pairSluice }
    let s2 := if s.plcSluice then s1.sluiceFrame .plc else s1
    if s.pairSluice then s2.sluiceFrame .pair else s2

/-! ### The latch (R228, R231) -/

/-- The CAUSE bits of Table 6-1. -/
def causePin : Nat := 0
def causeCmd : Nat := 1
def causePlc : Nat := 2
def causePair : Nat := 3
def causeParity : Nat := 4

/-- The steps a release needs: tide, local (Table 6-3). -/
def State.stepsNeeded (s : State) : Bool × Bool :=
  match s.slu.waive with
  | 1 => (false, true)
  | 2 => (true, false)
  | _ => (true, true)

/-- Every step that is needed has occurred. -/
def State.stepsMet (s : State) : Bool :=
  (s.slu.tideOk || !s.stepsNeeded.1) && (s.slu.localOk || !s.stepsNeeded.2)

/-- SLU_STAT.BLOCK: a release waits for SAFE_IN or a detected burst (R232). -/
def State.blocked (s : State) : Bool := s.slu.safe && s.stepsMet && (s.slu.safeIn || s.slu.det != 0)

/-- SAFE is released when both steps stand and nothing blocks; source 6 (R231, R232, R234, R693). -/
def State.tryRelease (s : State) : State :=
  if s.slu.safe && s.stepsMet && !s.blocked then
    (s.updSlu fun u => { u with safe := false, cause := 0, tideOk := false, localOk := false }).arrive 6
  else s

/-- TIDEOK becomes 1 (R234). -/
def State.tideStep (s : State) : State :=
  if s.slu.tideOk then s else ((s.updSlu fun u => { u with tideOk := true }).arrive 6).tryRelease

/-- The tide step on a controller that sends tide: PERMIT = 1 and RELCNT other than RELLAT (Table 6-2). -/
def State.keeperStep (s : State) : State :=
  if s.slu.safe && s.tide.sending && bitOf s.tide.keeperReg 4 && bitsOf s.tide.keeperReg 16 8 != s.slu.relLat.toNat then s.tideStep
  else s

/-- A latching event with its CAUSE bit (R228, R231): both steps cleared, RELLAT taken, source 6, at the latch as at each later
latching event (DEDUCED, log 63). The release steps act from the next event on (R247). -/
def State.safeLatch (s : State) (cause : Nat) : State :=
  let s1 := s.updSlu fun u =>
    { u with safe := true, cause := putBit u.cause cause true, tideOk := false, localOk := false
             relVal := u.lastRel.isSome, relLat := u.lastRel.getD u.relLat }
  (s1.arrive 6).settle

/-- A request by a command (R220). -/
def State.sluiceRequest (s : State) : State := (s.safeLatch causeCmd).emitBurst.settle

/-- The local release step (R231, R250). -/
def State.localStep (s : State) : State :=
  if !s.slu.safe || s.slu.localOk then s
  else (((s.updSlu fun u => { u with localOk := true }).arrive 6).tryRelease).settle

/-! ### The keep-alive (R236, R237, R27) -/

/-- A refreshing tide frame's effect on freshness and on the count that RELLAT takes. -/
def State.keepAlive (s : State) (permit : Bool) (rel : Byte) : State :=
  s.updSlu fun u => { u with fresh := permit, lastRel := some rel }

/-- The tide step on a node (Table 6-2): the first such frame gives RELLAT when there was none, a different count satisfies it. -/
def State.nodeStep (s : State) (permit : Bool) (rel : Byte) : State :=
  if !s.slu.safe || !permit then s
  else if !s.slu.relVal then s.updSlu fun u => { u with relVal := true, relLat := rel }
  else if rel != s.slu.relLat then s.tideStep
  else s

/-- A received tide frame refreshes the keep-alive. -/
def State.refresh (s : State) (permit : Bool) (rel : Byte) : State :=
  let s1 := s.keepAlive permit rel
  (if s.tide.sending then s1 else s1.nodeStep permit rel).settle

/-- An own tide frame that completes SENT refreshes the keep-alive (R27). -/
def State.refreshOwn (s : State) (permit : Bool) (rel : Byte) : State := (s.keepAlive permit rel).settle

/-- The keep-alive lapses (R236). -/
def State.lapse (s : State) : State := (s.updSlu fun u => { u with fresh := false }).settle

/-! ### Settings (R235, R709) -/

/-- The pair arbitration rate is 1 Mbit/s. -/
def State.pairAtMega (s : State) : Bool := pairTa s.line.pairBt == 1000

/-- A keyed write of SLU_CTL but for FIRE, and whether it was taken: DETPLC outside 6-16 refuses the whole write (R709), and so
does PAIREN where R235 does not allow it. -/
def State.sluCtlWrite (s : State) (v : Word) : Bool × State :=
  let det := bitsOf v 8 5
  if det < 6 || 16 < det then (false, s.updSlu fun u => { u with cfgErr := true })
  else if bitOf v 2 && !(s.pairAtMega && (!s.isoMode || bitOf v 3)) then (false, s.updSlu fun u => { u with pairBad := true })
  else (true, s.updSlu fun u => { u with ctl := merge (0x1F0E : Word) u.ctl v })

end Sys2Proof.Machine
end

