-- ==== Sys2Proof/Machine/Cal.lean ====
section
/-! DEFINITION. Moves of tide time and the calendar view of TIDE_SEC (chapters 5 and 17). -/

namespace Sys2Proof.Machine

/-! ### Conversion (R605) -/

/-- A leap year. -/
def leap (y : Nat) : Bool := (y % 4 == 0 && y % 100 != 0) || y % 400 == 0

/-- Days of a year, and of a month of it. -/
def yearDays (y : Nat) : Nat := if leap y then 366 else 365
def monthDays (y m : Nat) : Nat :=
  match m with
  | 2 => if leap y then 29 else 28
  | 4 => 30
  | 6 => 30
  | 9 => 30
  | 11 => 30
  | _ => 31

/-- The year a day count falls in, counted from year `y`, with the days left over. -/
def yearFrom (fuel y days : Nat) : Nat × Nat :=
  match fuel with
  | 0 => (y, days)
  | f + 1 => if days < yearDays y then (y, days) else yearFrom f (y + 1) (days - yearDays y)

/-- The month a day of year `y` falls in, counted from month `m`, and its day counted from 1. -/
def monthFrom (fuel y m days : Nat) : Nat × Nat :=
  match fuel with
  | 0 => (m, days + 1)
  | f + 1 => if days < monthDays y m then (m, days + 1) else monthFrom f y (m + 1) (days - monthDays y m)

/-- CAL_DATE of a TIDE_SEC value (Table 17-1). -/
def dateOf (sec : Nat) : Word :=
  let days := sec / 86400
  let y := yearFrom 140 2000 days
  let m := monthFrom 11 y.1 1 y.2
  field 0 m.2 ||| field 8 m.1 ||| field 16 y.1 ||| field 28 ((days + 5) % 7 + 1)

/-- CAL_TIME of a TIDE_SEC value (Table 17-2). -/
def timeOf (sec : Nat) : Word :=
  let s := sec % 86400
  field 0 (s % 60) ||| field 8 (s % 3600 / 60) ||| field 16 (s / 3600)

/-- Days from 2000-01-01 to the first day of year `2000 + n`. -/
def daysToYear : Nat → Nat
  | 0 => 0
  | n + 1 => daysToYear n + yearDays (2000 + n)

/-- Days from the first of January to the first day of month `m + 1`. -/
def daysToMonth (y : Nat) : Nat → Nat
  | 0 => 0
  | m + 1 => daysToMonth y m + monthDays y (m + 1)

/-- A written date and time is valid (R609): `d` the hold, `t` the written CAL_TIME. -/
def calValid (d t : Word) : Bool :=
  let y := bitsOf d 16 12
  let m := bitsOf d 8 4
  2000 ≤ y && y ≤ 2135 && 1 ≤ m && m ≤ 12 && 1 ≤ bitsOf d 0 5 && bitsOf d 0 5 ≤ monthDays y m && bitsOf t 16 5 < 24 &&
    bitsOf t 8 6 < 60 && bitsOf t 0 6 < 60 && merge 0x8FFF0F1F 0 d == merge 0x8FFFFFFF 0 d && bitOf d 31 == false &&
    merge 0x001F3F3F 0 t == t

/-- The TIDE_SEC of a valid date and time. -/
def secOf (d t : Word) : Nat :=
  let y := bitsOf d 16 12
  (daysToYear (y - 2000) + daysToMonth y (bitsOf d 8 4 - 1) + bitsOf d 0 5 - 1) * 86400 + bitsOf t 16 5 * 3600 +
    bitsOf t 8 6 * 60 + bitsOf t 0 6

/-! ### Arrivals and flags (R606, R615) -/

/-- A calendar arrival that bit `k` of CAL_CTL enables. -/
def State.calArrive (s : State) (k : Nat) : State := if bitOf s.cal.ctl k then s.arrive 19 else s

/-- RANGE and WRAP as TIDE_SEC goes from `old` to the present value. -/
def State.calFlags (s : State) (old : Word) (wrapped : Bool) : State :=
  let range := old < 0xFFCEDD80 && 0xFFCEDD80 ≤ s.tide.sec
  if range || wrapped then (s.updCal fun c => { c with range := c.range || range, wrap := c.wrap || wrapped }).calArrive 4 else s

/-- The periodic arrival of PER as TIDE_SEC passes to its present value (R606). -/
def State.calPeriodic (s : State) : State :=
  let t := s.tide.sec.toNat
  let due := match bitsOf s.cal.ctl 0 2 with
    | 1 => true
    | 2 => t % 60 == 0
    | 3 => t % 86400 % 3600 == 0
    | _ => false
  if due then s.arrive 19 else s

/-! ### The clock -/

/-- An instant of the local clock that the controller has kept, after a move of that clock by `d`: it names the same moment. -/
def shiftTicks (d : Int) (k : Nat) : Nat := (instantOf ((k : Int) + d)).ticks
def shiftInstant (d : Int) (i : Instant) : Instant := instantOf ((i.ticks : Int) + d)

/-- What the tide block keeps of its local clock: when it last heard its keeper, lost it, heard the last frame of a listen. -/
def Tide.shifted (t : Tide) (d : Int) : Tide :=
  { t with lastTracked := t.lastTracked.map (shiftTicks d), untracked := t.untracked.map (shiftTicks d)
           heard := t.heard.map fun h => { h with arrival := shiftTicks d h.arrival } }

/-- The local instants kept elsewhere: the end of a sounding's IFS at a port (R73), the beginning of a pan's reset (R319), the replacement
of a filter entry (R390). -/
def State.shiftKept (s : State) (d : Int) : State :=
  let hold := fun (x : PortState) => { x with sofHold := x.sofHold.map (shiftInstant d) }
  { (s.updTide fun t => t.shifted d).updLine fun l => { l with plc := hold l.plc, pair := hold l.pair } with
      pans := tabMap s.pans fun p => { p with rstAt := p.rstAt.map (shiftInstant d) }
      flt := tabMap s.flt fun x => { x with past := x.past.map fun w => { w with till := shiftTicks d w.till } } }

/-- Tide time moved by `d` ticks as one move: schedule entries it passes over complete (R209, R210). -/
def State.moveClock (s : State) (d : Int) : State :=
  let t := (s.now.ticks : Int) + d
  let i := instantOf t
  let s1 := ((s.shiftKept d).updTide fun x => { x with sec := i.sec, tick := i.tick }).calFlags s.tide.sec (decide ((tideRange : Int) ≤ t))
  if 0 < d then s1.schMoved else s1

/-- What a step by software does beside moving the clock: source 17, the epoch, the end of a slew and of FEST (R180, R186, R200, R611).
Each of several steps before one tide frame adds one to its epoch (DESIGN CHOICE, log 70). -/
def State.softStep (s : State) : State :=
  (s.updTide fun t =>
    { t.endSlew with fest := false, stepStamp := none
                     epochNext := if t.sending then some ((t.epochNext.getD t.epoch) + 1) else t.epochNext }).arrive 17

/-- A LOCKED node whose delay adjustment exceeds 1 µs goes to ACQUIRE (R184, Table 5-2). -/
def State.adjustLock (s : State) (d : Int) : State :=
  if s.tide.lock = .locked && !s.tide.sending && 200 < d.natAbs then
    (s.updTide fun t => { t with lock := .acquire, nearRun := 0, farRun := 0 }).arrive 16
  else s

/-- The step still pending after a calendar move of `d`: a step from a used tide frame makes up for it, so that the keeper's time
stands (R616). -/
def Tide.stepAfter (t : Tide) (d : Int) : Int :=
  match t.stepPend with
  | some e => if t.stepSoft then e else e - d
  | none => 0

/-- The pending steps and the pending delay adjustment take effect together (R209); a calendar step applies first (R616). -/
def State.applyMoves (s : State) : State :=
  let t := s.tide
  let s1 := match s.cal.pend with
    | some d =>
      (((s.updCal fun c => { c with pend := none }).updTide fun t => { t with steps := t.steps + 1 }).softStep).moveClock d
    | none => s
  let s2 := s1.updTide fun t => { t with stepPend := none, stepSoft := false, adjPend := 0 }
  let s3 := (s2.moveClock (t.stepAfter (s.cal.pend.getD 0) + t.adjPend)).adjustLock t.adjPend
  if t.stepPend.isSome && t.stepSoft then s3.softStep else s3

/-- The string port is idle or disabled. -/
def State.busIdle (s : State) : Bool :=
  let x := s.port s.stringPort
  !s.portOn s.stringPort || !(x.use == .sending || x.use == .receiving || x.use == .signalling)

/-! ### Reads and writes (R607, R608, R610) -/

/-- CAL_TIME read: the time of day, and CAL_DATE latched for the reader. -/
def State.calTimeRead (s : State) (p : Party) : Word × State :=
  (timeOf s.tide.sec.toNat, s.updCal fun c => { c with latch := c.latch.set p.ix.val (dateOf s.tide.sec.toNat) p.ix.isLt })

/-- CAL_DATE written: into the writer's hold. -/
def State.calDate (s : State) (p : Party) (v : Word) : State :=
  s.updCal fun c => { c with hold := c.hold.set p.ix.val v p.ix.isLt }

/-- A refused or rejected CAL_TIME write shows in the view it came through, with an arrival only in the system block (R744). -/
def State.calFlag (s : State) (via : Via) (deny : Bool) : State :=
  match via with
  | .sys =>
    (s.updCal fun c => if deny then { c with deny := true } else { c with bad := true }).calArrive (if deny then 3 else 2)
  | .win n => s.updPan n fun p => if deny then { p with calDeny := true } else { p with calBad := true }

/-- CAL_TIME written by a party of pan `n` (R608). -/
def State.calTime (s : State) (p : Party) (n : Fin 4) (via : Via) (v : Word) : State :=
  let d := s.cal.hold[p.ix]
  if !s.hasCap n .calset then s.panFault n fltCap
  else if !s.tide.sending && s.tide.lock != .free then s.calFlag via true
  else if !calValid d v then s.calFlag via false
  else
    let target : Int := secOf d v * ticksPerSec
    let s1 := s.updCal fun c => { c with pend := some (target - (s.now.ticks : Int)) }
    if s.busIdle then (s1.applyMoves).settle else s1

/-- CAL_STAT (Table 17-3) as a view reads it. -/
def State.calStat (s : State) (via : Via) : Word :=
  let c := s.cal
  let (bad, deny) := match via with
    | .sys => (c.bad, c.deny)
    | .win n => (s.pans[n].calBad, s.pans[n].calDeny)
  flag 0 s.unrelNow ||| flag 1 (if s.tide.sending then bitOf s.tide.keeperReg 5 else s.tide.auth) ||| flag 2 c.pend.isSome |||
    flag 3 bad ||| flag 4 deny ||| flag 5 c.range ||| flag 6 c.wrap

end Sys2Proof.Machine
end

