-- ==== Sys2Proof/Machine/Tide.lean ====
section
/-! DEFINITION. Tide time: the frames a keeper sends and a node uses, the discipline loop, lock states, keeper roles (chapter 5). -/

namespace Sys2Proof.Machine

/-! ### Periods (Table 3-8) -/

/-- The period of a code, in ticks. -/
def periodTicks : Nat → Nat
  | 0 => 200000
  | 1 => 400000
  | 2 => 1000000
  | 3 => 2000000
  | 4 => 4000000
  | 5 => 10000000
  | 6 => 20000000
  | 7 => 40000000
  | 8 => 100000000
  | _ => 200000000

/-- A lock state entered; source 16 at each change (R189). -/
def State.setTideLock (s : State) (k : Lock) : State :=
  if s.tide.lock = k then s
  else (s.updTide fun t => { t with lock := k, nearRun := 0, farRun := 0 }).arrive 16

/-- The loop's integral as a rate in 0.01 ppm, rounded with halves upward and limited, and whether it stands at the limit (R187,
R216). -/
def rateOf (r : Rat) : Word × Bool :=
  let v := (r * 100000000 + 1 / 2).floor
  let w := max (-20000) (min 20000 v)
  (wordOfInt w, w.natAbs == 20000)

/-- TIDE_RATE set by the loop. RCLAMP says whether that rate stands at the limit, so it clears when the loop next sets a rate within it
(DESIGN CHOICE, log 72). -/
def Tide.setRate (t : Tide) (r : Rat) : Tide := { t with rate := (rateOf r).1, rclamp := (rateOf r).2 }

/-- TIDE_RATE at the integral (R188, R192). -/
def Tide.freeze (t : Tide) : Tide := t.setRate t.integ

/-- FREE: the lifecycle goes back to Listening, no keeper is tracked (R18). -/
def State.toFree (s : State) : State :=
  (s.setTideLock .free).updTide fun t =>
    { t with heardAny := false, lastTracked := none, stepStamp := none
             untracked := if t.lastTracked.isSome then some s.now.ticks else t.untracked }

/-- The controller starts sending tide: LOCKED, and an epoch for its first frame (R180, R189). -/
def State.startSending (s : State) : State :=
  ((s.setTideLock .locked).updTide fun t =>
    { t with sending := true, listening := false, missing := 0, defer := false
             epochNext := some ((t.epochRx.map (· + 1)).getD 0) }).keeperStep

/-- The controller stops sending tide; pending keeper shadows apply at once (R193, R704, R705). -/
def State.stopSending (s : State) : State :=
  (s.updTide Tide.silent).applyRate.applyPeriod

/-! ### The frame a keeper sends (R110, R117, R179) -/

/-- TIDE_KEEPER.MODE. -/
def State.keeperMode (s : State) : Nat := bitsOf s.tide.keeperReg 0 2

/-- The tide frame built at its SOF launch; the spec gives its SEQ no value (free, log 11). -/
def State.tideFrame (s : State) : Frame :=
  let k := s.tide.keeperReg
  let permit := bitOf k 4 && !s.slu.safe
  let flags := (if permit then 128 else 0) + (if s.keeperMode = 2 then 64 else 0) + (if bitOf k 5 then 32 else 0) +
    (if bitOf k 6 then 16 else 0)
  let data := beBytes s.tide.sec.toNat 4 ++ beBytes s.tide.tick.toNat 4 ++
    [BitVec.ofNat 8 flags, s.tide.period.setWidth 8] ++ beBytes s.tide.epoch.toNat 2 ++
    [BitVec.ofNat 8 (bitsOf k 16 8), 0, 0, 0]
  { id := s.line.addr.setWidth 29, xtd := false, rmt := false, iso := false, brs := true, esi := false
    seq := (Config.freeWord s.free).setWidth 4, roll := bitOf k 7, stamp := true, more := false, len := 16, data := data }

/-- What the launch of a tide frame sets: the epoch, the shown period, the main keeper's own delay (R17, R180). -/
def State.tideLaunched (s : State) : State :=
  let s1 := s.updTide fun t =>
    { t with epoch := t.epochNext.getD t.epoch, epochNext := none, due := false, early := t.early || !t.due, takeover := false, periodRx := t.period }
  if s.keeperMode = 1 then s1.updLine fun l => { l with dlyMain := ⟨0, true, false⟩ } else s1

/-- Every thread's TIDE event (Table 12-3). -/
def State.tideEvent (s : State) : State := (List.finRange 8).foldl (fun s t => s.setEvent t evTide) s

/-! ### A received tide frame (R130, R182-R193) -/

/-- A TIDE frame that the hardware ignores (R130). -/
def tideMalformed (f : Frame) : Bool :=
  f.len != 16 || !f.stamp || f.more || 9 < f.be 9 1 || 15 < f.be 4 1 || 199999999 < f.be 4 4

/-- A SOUND frame that the hardware ignores (R130). -/
def soundMalformed (f : Frame) : Bool :=
  f.roll || f.stamp || f.more || (if bitOf (f.data.headD 0) 6 then f.len != 3 else f.len != 1)

/-- A frame is a TIDE frame; a SOUND result. -/
def isTide (f : Frame) : Bool := !f.iso && f.cls == 0 && f.topic == 0

/-- The stamp of a frame in ticks. -/
def stampOf (f : Frame) : Nat := f.be 0 4 * ticksPerSec + f.be 4 4

/-- The delay register a frame names, as ticks and validity (R182, R183). -/
def State.delayFor (s : State) (backup : Bool) : Delay := if backup then s.line.dlyBackup else s.line.dlyMain

/-- Loop gains (Table 5-1): `acq` the ACQUIRE column, `code` the frame's period code. -/
def gains (acq : Bool) (code : Nat) : Rat × Rat :=
  if acq then (1 / 2, 1 / 4)
  else if code ≤ 6 then (1 / 4, 1 / 64)
  else if code = 7 then (1 / 4, 1 / 16)
  else if code = 8 then (1 / 2, 1 / 4)
  else (1 / 2, 1)

/-- The integral and the rate after one used frame (R187). -/
def Tide.loop (t : Tide) (e T : Int) (acq : Bool) (code : Nat) : Tide :=
  let g := gains acq code
  let u : Rat := (e : Rat) / (T : Rat)
  let i := t.integ + g.2 * u
  { t with integ := i }.setRate (i + g.1 * u)

/-- The frequency estimate (R186). -/
def Tide.estimate (t : Tide) (e T : Int) : Tide :=
  let i : Rat := (e : Rat) / (T : Rat)
  { t with integ := i, fest := true }.setRate i

/-- A step called for by a used frame (R185): applied at the next bus idle. -/
def State.stepFor (s : State) (e : Int) (stamp : Nat) : State :=
  ((s.updTide fun t =>
    { t with stepPend := some e, stepSoft := false, steps := t.steps + 1, fest := false, stepStamp := some stamp, lastUsed := some stamp
             nearRun := 0, farRun := 0 }).arrive 17).setTideLock .acquire

/-- TIDE_OFFS shows e; a value beyond 32 bits has no stated reading (free, log 12). -/
def State.putOffs (s : State) (e : Int) : State :=
  if -2147483648 ≤ e ∧ e < 2147483648 then s.updTide fun t => { t with offs := wordOfInt e }
  else (s.updTide fun t => { t with offs := Config.freeWord s.free }).takeFree

/-- The runs of small and large offsets (Table 5-2). Frames before the frequency estimate serve the step test alone (R186): the
estimating frame is the first that counts (DEDUCED, log 73). -/
def Tide.runs (t : Tide) (e : Int) (valid : Bool) : Tide :=
  { t with nearRun := if t.fest && valid && e.natAbs ≤ 200 then min 2 (t.nearRun + 1) else 0
           farRun := if 400 < e.natAbs then min 2 (t.farRun + 1) else 0 }

/-- The lock state after a used frame that does not step (Table 5-2). -/
def Tide.nextLock (t : Tide) (e : Int) (valid : Bool) : Lock :=
  match t.lock with
  | .acquire => if t.fest && valid && 2 ≤ t.nearRun then .locked else .acquire
  | .locked => if 2 ≤ t.farRun then .acquire else .locked
  | .holdover => if e.natAbs ≤ 400 then .locked else .acquire
  | .free => .acquire

/-- The rate part of a used frame that does not step (R186, R187); equal stamps leave T at zero and the rate unstated (free,
log 13). -/
def State.train (s : State) (e : Int) (stamp : Nat) (code : Nat) : State :=
  let t := s.tide
  if t.fest then
    let T := centred ((stamp : Int) - (t.lastUsed.getD stamp : Nat))
    if T = 0 then (s.updTide fun t => { t with rate := Config.freeWord s.free }).takeFree
    else
      let acq := t.lock == .acquire || (t.lock == .holdover && 400 < e.natAbs)
      s.updTide fun t => t.loop e T acq code
  else
    match t.stepStamp with
    | some s0 =>
      let T := centred ((stamp : Int) - (s0 : Int))
      if 4000000 ≤ T then s.updTide fun t => t.estimate e T else s
    | none => s

/-- The frame is used: LOCKED and HOLDOVER do not use one whose delay register is not VALID (R183). -/
def State.usable (s : State) (f : Frame) : Bool :=
  (s.delayFor (bitOf (f.data.getD 8 0) 6)).valid || !(s.tide.lock == .locked || s.tide.lock == .holdover)

/-- A used frame disciplines the clock (R182-R187, R189). -/
def State.discipline (s : State) (f : Frame) (arrival : Nat) : State :=
  let d := s.delayFor (bitOf (f.data.getD 8 0) 6)
  let stamp := stampOf f
  let e := centred ((stamp : Int) - ((arrival : Int) - (if d.valid then (d.val.toNat : Int) else 0)))
  let s1 := s.putOffs e
  if s.tide.lock = .free || 2000 < e.natAbs then s1.stepFor e stamp
  else
    let s2 := (s1.train e stamp (f.be 9 1)).updTide fun t => { t.runs e d.valid with lastUsed := some stamp }
    s2.setTideLock (s2.tide.nextLock e d.valid)

/-- TIDE_STAT's fields of the last used frame (R190). -/
def Tide.show (t : Tide) (f : Frame) : Tide :=
  let b := f.data.getD 8 0
  { t with backup := bitOf b 6, auth := bitOf b 5, hold := bitOf b 4, periodRx := BitVec.ofNat 4 (f.be 9 1)
           epoch := BitVec.ofNat 16 (f.be 10 2) }

/-- The frame's source becomes tracked, or is (R190). -/
def State.tracks (s : State) (f : Frame) (arrival : Nat) : Bool :=
  match s.tide.lastTracked with
  | none => true
  | some l =>
    let silent := 3 * (periodTicks s.tide.periodRx.toNat : Int) ≤ 2 * centred ((arrival : Int) - (l : Int))
    f.source == s.tide.keeper.toNat || f.source < s.tide.keeper.toNat || silent

/-- The tracked keeper and the epoch received; source 18 at a change of either (R190). A keeper tracked where none was is a change,
whatever its address (DESIGN CHOICE, log 71). -/
def State.track (s : State) (f : Frame) (arrival : Nat) : State :=
  let e := BitVec.ofNat 16 (f.be 10 2)
  let new := s.tide.lastTracked.isNone || s.tide.keeper.toNat != f.source || s.tide.epochRx != some e
  let s1 := s.updTide fun t => { t with keeper := BitVec.ofNat 6 f.source, lastTracked := some arrival, epochRx := some e }
  if new then s1.arrive 18 else s1

/-- The epoch of a tide frame that makes no source tracked: source 18 where it differs from the last received (R180, R190). -/
def State.noteEpoch (s : State) (f : Frame) : State :=
  let e := BitVec.ofNat 16 (f.be 10 2)
  if s.tide.epochRx = some e then s else (s.updTide fun t => { t with epochRx := some e }).arrive 18

/-- The tide frame this controller has on the wire is withdrawn: it completes ABORTED (R192, R193). -/
def State.withdrawTide (s : State) : State :=
  match (s.port s.stringPort).tx with
  | some a =>
    if a.src = .tide then
      (s.dropTxOn s.stringPort).updPort s.stringPort fun x => { x with use := if x.use == .sending then .receiving else x.use }
    else s
  | none => s

/-- A sending keeper that hears a lower source steps down (R193, R194). -/
def State.stepDown (s : State) (f : Frame) : State :=
  let defer := s.keeperMode = 1 && !bitOf (f.data.getD 8 0) 6
  (s.withdrawTide.stopSending).updTide fun t => { t with defer := t.defer || defer }

/-- The search ends on the plan the frame came in on (R57, R702); source 28 (Table 15-1). -/
def State.endSearch (s : State) : State :=
  if s.line.searching then (s.updLine fun l => { l with searching := false, plan := l.dwell }).arrive 28 else s

/-- A frame of the tracked keeper: it is heard in the listen, or used where R183 lets it; in every case it refreshes the keep-alive
(R182, R183, R196, R237). -/
def State.useTide (s : State) (f : Frame) (arrival : Nat) : State :=
  let b := f.data.getD 8 0
  let s1 := s.track f arrival
  let s2 := if s.tide.listening || !s.usable f then s1 else (((s1.updTide fun t => t.show f).discipline f arrival).tideEvent)
  s2.refresh (bitOf b 7) (f.data.getD 12 0)

/-- A tide frame received correctly on the string port (R130, R180, R190-R193, R196). -/
def State.hearTide (s : State) (f : Frame) (arrival : Nat) : State :=
  let stamp := stampOf f
  let s1 := s.updTide fun t =>
    { t with heardAny := true, lastRx := some stamp, missing := 0
             heard := if t.listening then some ⟨stamp, arrival, bitOf (f.data.getD 8 0) 6⟩ else t.heard }
  let s2 :=
    if s.tide.sending && s.tide.takeover then s1.withdrawTide.stopSending
    else if s.tide.sending && f.source < s.line.addr.toNat then s1.stepDown f
    else s1
  let b := f.data.getD 8 0
  let copies := s.tide.listening || (s.tide.sending && !s2.tide.sending)
  let s2 := s2.updTide fun t => { t with noted := some ⟨bitOf b 6, bitOf b 7, f.data.getD 12 0, copies⟩ }
  if s2.tide.sending then
    let e := BitVec.ofNat 16 (f.be 10 2)
    ((s2.noteEpoch f).updTide fun t =>
      { t with epochNext := if t.epochNext.getD t.epoch ≤ e then some (e + 1) else t.epochNext }).settle
  else if s2.tracks f arrival then (s2.useTide f arrival).settle
  else (s2.noteEpoch f).settle

/-! ### Sounded delays (R71, R77, R184) -/

/-- The delay register in use: that of the last used frame. -/
def State.delayInUse (s : State) (backup : Bool) : Bool := s.tide.backup == backup && s.tide.lock != .free

/-- A SOUND result takes effect: VALID, or RANGE above 1,400 ticks; a tracking node owes its clock the difference (R71, R184). -/
def State.putDelay (s : State) (kmark : Bool) (v : BitVec 16) : State :=
  let old := s.delayFor kmark
  let ok := v.toNat ≤ 1400
  let new : Delay := ⟨v, ok, !ok⟩
  let s1 := s.updLine fun l => if kmark then { l with dlyBackup := new } else { l with dlyMain := new }
  let move : Int := (if ok then (v.toNat : Int) else 0) - (if old.valid then (old.val.toNat : Int) else 0)
  if s.delayInUse kmark && !s.tide.sending then
    let s2 := s1.updTide fun t => { t with adjPend := t.adjPend + move }
    if old.valid && !ok && s.tide.lock = .locked then s2.setTideLock .acquire else s2
  else s1

/-- A SOUND result's delay waits for the bus idle, or takes effect at once (R77). -/
def State.soundResult (s : State) (f : Frame) : State :=
  let kmark := bitOf (f.data.headD 0) 7
  let v := BitVec.ofNat 16 (f.be 1 2)
  if s.busIdle then (s.putDelay kmark v).settle else s.updLine fun l => { l with dlyPend := some (kmark, v) }

/-! ### Seconds, boundaries, missing periods -/

/-- What a new second brings: calendar arrivals and flags, the pending TIDE_PERIOD (R175, R181, R606, R615). -/
def State.newSecond (s : State) (old : Word) : State :=
  (s.applyPeriod.calFlags old (old == 0xFFFFFFFF && s.tide.sec == 0)).calPeriodic

/-- TIDE_TICK wraps and TIDE_SEC increments. -/
def State.secondWrap (s : State) : State :=
  (s.updTide fun t => { t with tick := 0, sec := t.sec + 1 }).newSecond s.tide.sec

/-- A tide boundary on a sending keeper (R178, R200): its frame is due, unless it has gone out early. -/
def State.boundary (s : State) : State :=
  if !s.tide.sending then s
  else (s.updTide fun t =>
    if t.early then { t with early := false } else { t with tskip := if t.due then t.tskip + 1 else t.tskip, due := true }).applyRate

/-- A missed period instant (R191, R194, R218). -/
def State.missedPeriod (s : State) : State :=
  let counts := s.keeperMode = 2 || (s.keeperMode = 1 && s.tide.defer)
  if !counts || s.tide.sending || s.tide.lastRx.isNone || !s.portOn s.stringPort || s.portIso s.stringPort then s
  else
    let s1 := s.updTide fun t => { t with missing := min 15 (t.missing + 1) }
    if s1.tide.missing < bitsOf s.tide.keeperReg 8 4 || s.busOff s.stringPort then s1
    else
      let s2 := s1.startSending
      (if s.keeperMode = 2 then s2.updTide fun t => { t.freeze with due := true, takeover := true } else s2).settle

/-- The running time minus nothing: the time of the heard frame's SOF arrival in the running timescale (R197). -/
def State.runningAt (s : State) (h : Heard) : Nat :=
  if h.backup && s.line.dlyBackup.valid then h.stamp + s.line.dlyBackup.val.toNat
  else if s.stringPort = .plc && s.compensated then roundUp h.stamp 3200
  else h.stamp

/-- The end of a main keeper's listen (R196-R198). -/
def State.listenEnd (s : State) : State :=
  if !s.tide.listening || s.busOff s.stringPort then s
  else
    let s1 := s.startSending
    match s.tide.heard with
    | none => s1.settle
    | some h =>
      let d := centred ((h.arrival : Int) - (s.runningAt h : Int))
      let s2 := s1.moveClock (-d)
      let slew := bitOf s.tide.keeperReg 5 && s.tide.adoptLim.toNat * 200 < d.natAbs
      (s2.updTide fun t =>
        { t with heard := none, slewing := slew, slewLeft := if slew then d * 100000000 else 0, slewRate := 0 }).settle

/-- The rate offset of a slew for its next second, in ppm (R201): one more up to `lim`, the same, or one less, so that the ramp down
ends at what is still owed. One ppm over a second is 200 ticks, or 2 x 10^10 units of `left`. -/
def slewNext (lim r left : Nat) : Nat :=
  let need := fun (k : Nat) => (200 * k + 100 * (k - 1) * k) * 100000000
  if r < lim && need (r + 1) ≤ left then r + 1
  else if 0 < r && r ≤ lim && need r ≤ left then r
  else max 1 (r - 1)

/-- Each second of a slew the rate offset is set anew; it stands for the second that follows (DESIGN CHOICE, log 69), and ends when the
extra time that it has added comes to D (State.tideAdvance). -/
def State.slewSecond (s : State) : State :=
  if s.tide.slewing then s.updTide fun t => { t with slewRate := slewNext (bitsOf t.ctl 16 7) t.slewRate t.slewLeft.natAbs } else s

/-! ### The string port's role (R196, R705) -/

/-- A main keeper listens before it sends: MODE set to MAIN, or its port enabled. -/
def State.startListen (s : State) : State :=
  if s.keeperMode = 1 && s.portEn s.stringPort && !s.portIso s.stringPort && !s.tide.sending then
    s.updTide fun t => { t with listening := true, heard := none }
  else s

/-- TIDE_KEEPER written with values in range (R179, R705). -/
def State.keeperWrite (s : State) (v : Word) : State :=
  let mode := bitsOf v 0 2
  let old := s.keeperMode
  let s1 := s.updTide fun t => { t with keeperReg := merge (0x00FF0FF3 : Word) t.keeperReg v }
  let s2 :=
    if mode = 0 then (if s.tide.sending then s1.stopSending else s1).updTide fun t => { t with listening := false, defer := false, missing := 0 }
    else if mode = 1 && old != 1 && !s.tide.sending then s1.startListen
    else if mode = 2 && old != 2 then s1.updTide fun t => { t with listening := false, defer := false }
    else s1
  s2.keeperStep.settle

end Sys2Proof.Machine
end

