-- ==== Sys2Proof/Machine/Select.lean ====
section
/-! DEFINITION. Selection at a SOF opportunity, tokens and windows, the SOF launch (chapters 8, 9, 11). -/

namespace Sys2Proof.Machine

/-- A frame that could go out, with what the selection compares. -/
structure Candidate where
  src : TxSource
  frame : Frame
  /-- its place among equal identifiers of one pan (R400): fired entries in entry order, TQ0-TQ3, the bridge queue -/
  rank : Nat
  deriving DecidableEq, Repr

/-- What arbitration compares: the identifier as it goes on the wire; on an ISO bus the base bits first, a base frame before an
extended one, a data frame before a remote one (ISO 11898-1, R820). -/
def arbKey (f : Frame) : Nat :=
  if !f.iso then f.id.toNat
  else if f.xtd then (bitsOf f.id 18 11) * 2097152 + 1048576 + 2 * bitsOf f.id 0 18 + (if f.rmt then 1 else 0)
  else (bitsOf f.id 0 11) * 2097152 + (if f.rmt then 524288 else 0)

/-- The frame's format matches the port's mode (R819). -/
def State.formatOk (s : State) (port : LinePort) (f : Frame) : Bool :=
  f.iso == s.portIso port && (!f.fdf || bitOf s.line.pairCtl 2)

/-- A queue's offered head (R344): the oldest QUEUED item, or the lowest identifier of a SORTED queue. -/
def State.queueHead (s : State) (n q : Fin 4) : Option Nat :=
  let tq := s.tq n q
  let gs := (tq.items.filter fun i => i.st == .queued).map TxItem.slot
  if tq.sorted then
    gs.foldl (fun b g =>
      match b with
      | none => some g
      | some h => if arbKey (s.slotFrame g) < arbKey (s.slotFrame h) then some g else b) none
  else gs.head?

/-- An item in slot `g` is eligible on a port (R346, R401, R819). -/
def State.slotEligible (s : State) (port : LinePort) (g : Nat) : Bool :=
  !s.deadlinePassed g && s.formatOk port (s.slotFrame g)

/-- A frame as it goes out: SOURCE is this controller's own address (R91); the ESI of an ISO frame shows whether the pair port is
Passive (R814). -/
def State.wireFrame (s : State) (f : Frame) : Frame :=
  if f.iso then { f with esi := s.line.pair.conf == .passive } else { f with id := BitVec.ofNat 29 (f.id.toNat / 64 * 64 + s.line.addr.toNat) }

/-- Queue heads of pan `n` for a port; TQ3 with LGASP is held (R347). -/
def State.queueCands (s : State) (n : Fin 4) (port : LinePort) : List Candidate :=
  (List.finRange 4).filterMap fun q =>
    let tq := s.tq n q
    if tq.en && tq.port == port && !(n == 0 && q == 3 && tq.lgasp) then
      match s.queueHead n q with
      | some g => if s.slotEligible port g then some ⟨.queue n q g, s.wireFrame (s.slotFrame g), 32 + q⟩ else none
      | none => none
    else none

/-- The frame of a fired entry is on the wire. -/
def State.onWire (s : State) (g : Nat) : Bool :=
  ([s.line.plc.tx, s.line.pair.tx] : List (Option TxAttempt)).any fun a => (a.map fun a => a.src == .fired g).getD false

/-- Fired TX frames of pan `n` for a port. -/
def State.firedCands (s : State) (n : Fin 4) (port : LinePort) : List Candidate :=
  s.sched.fired.filterMap fun x =>
    if x.pan == n && x.gen == s.pans[n].gen && (s.tq n x.q).port == port && !s.onWire x.slot && s.slotEligible port x.slot then
      some ⟨.fired x.slot, s.wireFrame (s.slotFrame x.slot), x.entry⟩
    else none

/-- The head of the bridge queue of a port, for the pan it is charged to. -/
def State.bridgeCands (s : State) (n : Fin 4) (port : LinePort) : List Candidate :=
  if s.bridgePan == some n then
    match s.bridgeQ port with
    | h :: _ => if s.formatOk port h.frame then [⟨.bridge, s.wireFrame h.frame, 36⟩] else []
    | [] => []
  else []

/-- The better of two candidates: the lower identifier, then the place. -/
def better (a b : Candidate) : Candidate :=
  if arbKey b.frame < arbKey a.frame ∨ (arbKey b.frame = arbKey a.frame ∧ b.rank < a.rank) then b else a

/-- The best of a list. -/
def bestOf : List Candidate → Option Candidate
  | [] => none
  | c :: cs => some (cs.foldl better c)

/-- A pan's candidate for a port (R400). -/
def State.candidate (s : State) (n : Fin 4) (port : LinePort) : Option Candidate :=
  bestOf (s.firedCands n port ++ s.queueCands n port ++ s.bridgeCands n port)

/-! ### Budgets and windows (R402, R405, R309) -/

/-- The cost of an attempt in bytes. -/
def cost (f : Frame) : Nat := f.len + 8

def Pan.rate (p : Pan) : Nat := bitsOf p.budget 0 16
def Pan.burst (p : Pan) : Nat := bitsOf p.budget 16 16

/-- The pan has enough tokens for a frame (R405). -/
def Pan.affords (p : Pan) (f : Frame) : Bool := p.burst != 0 && min (cost f) p.burst ≤ p.token.toNat

/-- What is left of the open window, in nanoseconds. -/
def State.windowLeft (s : State) (n : Fin 4) : Nat := s.windowOf n - 5 * (s.eng.tnow - s.windowFrom).toNat

/-- The frame fits what is left of its pan's window (R309); always in open mode. -/
def State.fitsWindow (s : State) (n : Fin 4) (port : LinePort) (f : Frame) : Bool :=
  !s.sealed || s.longest port f ≤ s.windowLeft n

/-- The pan may offer at all (R399). -/
def State.mayOffer (s : State) (n : Fin 4) : Bool := s.panEn n && !s.pans[n].rstBusy && (!s.sealed || s.window == n)

def portIx : LinePort → Fin 2
  | .plc => 0
  | .pair => 1

/-- BUDHOLD and WINHOLD at an opportunity (R407). -/
def Pan.noteHeld (p : Pan) (i : Fin 2) (src : Option TxSource) (bud win : Bool) : Pan :=
  let b := if bud then src else none
  let w := if win then src else none
  { p with budHold := if bud && p.heldBud[i] != b then satInc8 p.budHold else p.budHold
           winHold := if win && p.heldWin[i] != w then satInc8 p.winHold else p.winHold
           heldBud := p.heldBud.set i.val b i.isLt, heldWin := p.heldWin.set i.val w i.isLt }

/-- The holds of every pan that may offer are noted; on a port that cannot offer no item is a candidate (R401). -/
def State.noteHolds (s : State) (port : LinePort) : State :=
  ([0, 1, 2, 3] : List (Fin 4)).foldl (fun t n =>
    if s.mayOffer n then
      let c := if s.offers port then s.candidate n port else none
      let bud := (c.map fun c => !s.pans[n].affords c.frame).getD false
      let win := (c.map fun c => !s.fitsWindow n port c.frame).getD false
      t.updPan n fun p => p.noteHeld (portIx port) (c.map Candidate.src) bud win
    else t) s

/-- The pans' candidates that may go out now, with their pans. -/
def State.ableCands (s : State) (port : LinePort) : List (Fin 4 × Candidate) :=
  ([0, 1, 2, 3] : List (Fin 4)).filterMap fun n =>
    if s.mayOffer n then
      match s.candidate n port with
      | some c => if s.pans[n].affords c.frame && s.fitsWindow n port c.frame then some (n, c) else none
      | none => none
    else none

/-- How far pan `n` comes after the last launching pan in round-robin order (R308). -/
def State.rrRank (s : State) (n : Fin 4) : Nat := (n.val + 3 - s.line.rrLast.val) % 4

/-- The pans' choice: the lowest identifier, ties in round-robin order (R308). -/
def State.panChoice (s : State) (port : LinePort) : Option (Fin 4 × Candidate) :=
  match s.ableCands port with
  | [] => none
  | x :: xs => some (xs.foldl (fun a b =>
      let ka := arbKey a.2.frame
      let kb := arbKey b.2.frame
      if kb < ka ∨ (kb = ka ∧ s.rrRank b.1 < s.rrRank a.1) then b else a) x)

/-! ### The SOF launch (R91, R110, R111, R405, R407) -/

/-- Bytes replaced by a stamp. -/
def stamped (s : State) (f : Frame) : Frame :=
  if f.stamp then { f with data := beBytes s.tide.sec.toNat 4 ++ beBytes s.tide.tick.toNat 4 ++ f.data.drop 8 } else f

/-- The slot takes the present address and the stamp of this attempt; its frame. -/
def State.prepare (s : State) (g : Nat) : Frame × State :=
  let w0 := s.slotWord g 0
  let s1 := if bitOf w0 31 then s else s.putSlotWord g 0 (putBits w0 0 6 s.line.addr.toNat)
  let f := stamped s (s.wireFrame (s1.slotFrame g))
  (f, if f.stamp then s1.putSlotWords g 8 (wordsOfBytes (f.data.take 8) 2) else s1)

/-- The attempt is on the wire. -/
def State.putOnWire (s : State) (port : LinePort) (src : TxSource) (f : Frame) (gen : BitVec 16) : State :=
  s.updPort port fun x => { x with tx := some ⟨src, f, s.now, gen⟩, use := .sending, justSent := true }

/-- A queue's item is ON_WIRE. -/
def State.wireItem (s : State) (n q : Fin 4) (g : Nat) : State :=
  s.updTq n q fun tq => { tq with items := tq.items.map fun i => if i.slot = g then { i with st := .onWire } else i }

/-- The pan pays for an attempt. -/
def State.pay (s : State) (n : Fin 4) (f : Frame) : State :=
  s.updPan n fun p => { p with token := BitVec.ofNat 16 (p.token.toNat - cost f) }

/-- Other pans that could have sent count XPAN. -/
def State.countXpan (s : State) (n : Fin 4) (able : List (Fin 4 × Candidate)) : State :=
  able.foldl (fun s c => if c.1 = n then s else s.updPan c.1 fun p => { p with xpan := satInc8 p.xpan }) s

/-- A pan's candidate is launched. -/
def State.launchCand (s : State) (port : LinePort) (n : Fin 4) (c : Candidate) : State :=
  let s1 := ((s.countXpan n (s.ableCands port)).pay n c.frame).updLine fun l => { l with rrLast := n }
  let gen := s.pans[n].gen
  match c.src with
  | .queue m q g =>
    let r := s1.prepare g
    (r.2.wireItem m q g).putOnWire port c.src r.1 gen
  | .fired g =>
    let r := s1.prepare g
    r.2.putOnWire port c.src r.1 gen
  | src => s1.putOnWire port src c.frame gen

/-- The oldest released last-gasp frame that is eligible, if its port is this one (R399, R416). -/
def State.gaspSlot (s : State) (port : LinePort) : Option Nat :=
  let tq := s.tq 0 3
  s.line.gasp.find? fun g =>
    tq.en && tq.port == port && (tq.items.any fun i => i.slot == g && i.st == .queued) && s.slotEligible port g

/-- At 62.5 kbit/s the frame of the coming boundary goes out early, once the boundary lies within LINE_DLY_MAIN (R63, R178). -/
def State.boundaryNear (s : State) : Bool :=
  let p := periodTicks s.tide.period.toNat
  s.compensated && !s.tide.early && s.line.dlyMain.valid && p - s.tide.tick.toNat % p ≤ s.line.dlyMain.val.toNat

/-- The tide generator's frame is due on this port. -/
def State.tideDue (s : State) (port : LinePort) : Bool :=
  s.tide.sending && port == s.stringPort && !s.portIso port && (s.tide.due || s.boundaryNear)

/-- The tide frame is launched (R178, R179, R310). -/
def State.launchTide (s : State) (port : LinePort) : State :=
  let s1 := s.tideLaunched
  (s1.putOnWire port .tide s1.tideFrame 0).takeFree

/-- The echo slot and the IFS of a SOUND request have passed (R73). -/
def State.heldBack (s : State) (port : LinePort) : Bool :=
  match (s.port port).sofHold with
  | some i => decide (centred ((s.now.ticks : Int) - (i.ticks : Int)) < 0)
  | none => false

/-- At 62.5 kbit/s a SOF is launched LINE_DLY_MAIN before a grid instant, whoever sends tide; a main keeper's delay is zero (R63,
R66). -/
def State.onGrid (s : State) (port : LinePort) : Bool :=
  !(port == .plc && s.compensated) ||
    (s.tide.tick.toNat + (if s.line.dlyMain.valid then s.line.dlyMain.val.toNat else 0)) % 3200 == 0

/-- A port can start a frame now: idle, with nothing of this controller on it, not held back by a sounding, and on the grid. -/
def State.canStart (s : State) (port : LinePort) : Bool :=
  (s.port port).use == .idle && (s.port port).tx.isNone && !s.heldBack port && s.onGrid port

/-- The port can drive the line at all: bus-off and an absent VDRV keep its driver off (R51, R149). -/
def State.canDrive (s : State) (port : LinePort) : Bool :=
  s.coreRuns && s.portOn port && !s.busOff port && !(port == .plc && s.line.nodrv)

/-- Fired frames not launched at this opportunity of their port will be late (R265). -/
def State.passFirst (s : State) (port : LinePort) : State :=
  { s with sched := { s.sched with fired := s.sched.fired.map fun x =>
      if (s.tq x.pan x.q).port == port && !s.onWire x.slot then { x with first := false } else x } }

/-- The released last-gasp frame is launched: a frame of P0 for XPAN and for the round robin (R308, R407), which pays nothing (R406). -/
def State.launchGasp (s : State) (port : LinePort) (g : Nat) : State :=
  let r := (s.countXpan 0 (s.ableCands port)).prepare g
  ((r.2.wireItem 0 3 g).putOnWire port (.gasp g) r.1 s.pans[(0 : Fin 4)].gen).updLine fun l => { l with rrLast := 0 }

/-- The SOUND result that waits, as it goes out on the string port. -/
def State.soundDue (s : State) (port : LinePort) : Option Frame :=
  if port == s.stringPort && s.offers port && !s.portIso port then s.line.soundOut.map s.wireFrame else none

/-- The SOUND result is launched. -/
def State.launchSound (s : State) (port : LinePort) (f : Frame) : State :=
  (s.updLine fun l => { l with soundOut := none }).putOnWire port .sound f 0

/-- A frame of the hardware's own that is due: the tide frame before a SOUND result, whose identifier is higher. -/
inductive Own where
  | tide
  | sound (f : Frame)
  deriving DecidableEq, Repr

/-- The hardware's own frame with its identifier. -/
def State.ownDue (s : State) (port : LinePort) : Option (Nat × Own) :=
  if s.tideDue port then some (s.line.addr.toNat, .tide) else (s.soundDue port).map fun f => (arbKey f, .sound f)

/-- The hardware's own frame is launched. -/
def State.launchOwn (s : State) (port : LinePort) : Own → State
  | .tide => s.launchTide port
  | .sound f => s.launchSound port f

/-- The frame that R399 puts first is launched. -/
def State.launchFirst (s : State) (port : LinePort) : State :=
  match (if s.offers port then s.gaspSlot port else none) with
  | some g => s.launchGasp port g
  | none =>
    match s.ownDue port, (if s.offers port then s.panChoice port else none) with
    | some (k, o), some (n, c) => if arbKey c.frame < k then s.launchCand port n c else s.launchOwn port o
    | some (_, o), none => s.launchOwn port o
    | none, some (n, c) => s.launchCand port n c
    | none, none => s

/-- A SOF opportunity on a port (R132, R399). -/
def State.opportunity (s : State) (port : LinePort) : State :=
  if !(s.coreRuns && s.portEn port) || !s.canStart port then s
  else
    let t := s.noteHolds port
    (if s.canDrive port then t.launchFirst port else t).passFirst port

/-- A pan gets an attempt's cost back (R405). -/
def State.refund (s : State) (n : Fin 4) (f : Frame) : State :=
  s.updPan n fun p => { p with token := BitVec.ofNat 16 (min p.burst (p.token.toNat + cost f)) }

/-! ### The end of an attempt -/

/-- The delay an echo gives: `x` is t3 - t0 - E in ticks, and must lie in the window (R70, R84). -/
def echoDelay (x : Int) : Option Nat := if 0 ≤ x ∧ x ≤ 2840 then some ((x.toNat + 1) / 2) else none

/-- The delay a SOUND request measures: of its first echo onset within the window (R70, R80). -/
def State.sounded (s : State) (port : LinePort) (a : TxAttempt) (onsets : List Instant) : Option Nat :=
  let e := s.nominalE port a.frame / 5
  onsets.findSome? fun t3 => echoDelay (centred ((t3.ticks : Int) - (a.sof.ticks : Int) - (e : Int)))

/-- One roll slot, from `lo` to `lo + s` nanoseconds after W: the slot bit and a roll-timing error (Table 3-5). -/
def rollSlot (keeper : Bool) (port : LinePort) (s lo : Nat) (act : List (Nat × Nat)) : Bool × Bool :=
  match port, keeper with
  | .plc, true =>
    let ps := (act.map Prod.fst).filter fun p => lo ≤ p && p < lo + s
    let near := fun p => lo + 500 ≤ p && p ≤ lo + 1500
    (ps.any near, ps.any fun p => !near p)
  | .plc, false =>
    let ps := (act.map Prod.fst).filter fun p => lo ≤ p && p < lo + s
    let late := fun p => lo + 1000 ≤ p
    (ps.any late, ps.any fun p => !late p)
  | .pair, true =>
    let c := lo + s / 2
    let edge := fun t => c ≤ t + 100 && t ≤ c + 100
    (act.any fun x => x.1 ≤ c && c < x.1 + x.2, act.any fun x => edge x.1 || edge (x.1 + x.2))
  | .pair, false =>
    (act.any fun x => lo < x.1 && x.1 + 200 ≤ min (x.1 + x.2) (lo + s), act.any fun x => x.1 ≤ lo && lo < x.1 + x.2)

/-- The roll bitmap and ROLLERR of a ROLL frame of this controller: a slot with a timing error reads 0 (R116). -/
def State.rollDecide (s : State) (port : LinePort) (act : List (Nat × Nat)) : BitVec 64 × Bool :=
  let ns := s.rollNs port
  let keeper := s.tide.sending && port == s.stringPort
  let slots := (List.range 64).map fun k => rollSlot keeper port ns (k * ns) act
  (slots.zipIdx.foldl (fun b (x : (Bool × Bool) × Nat) => putBit b x.2 (x.1.1 && !x.1.2)) 0, slots.any Prod.snd)

/-- The completion record of a valid frame (R338). -/
def State.validRecord (s : State) (port : LinePort) (a : TxAttempt) (ack : Bool) (act : List (Nat × Nat)) (onsets : List Instant) :
    Record :=
  let d := if a.frame.isSoundReq then s.sounded port a onsets else none
  let r := if a.frame.roll then s.rollDecide port act else (0, false)
  let words :=
    if a.frame.roll then some (r.1.extractLsb' 0 32, r.1.extractLsb' 32 32)
    else if a.frame.isSoundReq then some (BitVec.ofNat 32 (d.getD 0), 0)
    else none
  ⟨ack, d.isSome, r.2, port, some a.sof, words⟩

/-- The owner of a frame counts an ack error (R156, R822). -/
def State.countUnack (s : State) (a : TxAttempt) : State :=
  match s.srcPan a.src with
  | some n => if s.alive a then s.updPan n fun p => { p with unack := satInc16 p.unack } else s
  | none => s

/-- A valid SOUND request with ECHO = 1 puts the result in the sounding slot (step 6 of the exchange, R83): items cannot carry a
result (R108), so the hardware sends it (DEDUCED, log 68); its SEQ has no stated value (free, log 11). -/
def State.soundDone (s : State) (port : LinePort) (a : TxAttempt) (d : Option Nat) : State :=
  match d with
  | none => s
  | some d =>
    if port != s.stringPort || !a.frame.isSoundReq then s
    else
      let f := { a.frame with len := 3, seq := (Config.freeWord s.free).setWidth 4
                              data := putBit (a.frame.data.headD 0) 6 true :: beBytes d 2 }
      (s.updLine fun l => { l with soundOut := some f }).takeFree

/-- A SOUND request of P0's stock image is sent: SOUNDS counts it (Table 12-5). -/
def State.soundSent (s : State) (a : TxAttempt) : State :=
  if a.src == .sound && a.frame.isSoundReq && s.eng.stock[(0 : Fin 4)].run == .active then
    let i := (s.scratchRegion 0).1 + 0x4C
    { s with mem := memPutWord s.mem i (BitVec.ofNat 32 (min 0xFFFF (bitsOf (memWord s.mem i) 0 16 + 1))) }
  else s

/-- The tide generator's own frame is valid: it refreshes the keep-alive and sets the TIDE events (R27, Table 12-3). A TIDE item of a
queue is no frame that the controller sends as keeper (DEDUCED, log 66). -/
def State.tideSent (s : State) (a : TxAttempt) : State :=
  if a.src = .tide then
    (s.refreshOwn (bitOf (a.frame.data.getD 8 0) 7) (a.frame.data.getD 12 0)).tideEvent
  else s

/-- The port answers on the line (Tables 1-4 and 4-5): a Synced string port, another native port, an ISO port that is not
monitoring. -/
def State.answers (s : State) (port : LinePort) : Bool :=
  s.canDrive port &&
    (if s.portIso port then !bitOf s.line.pairCtl 4
     else if port == s.stringPort then s.lifeUnder == .synced || s.lifeUnder == .live
     else true)

/-- An error flag of the port is dominant (R138, R818). -/
def State.flags (s : State) (port : LinePort) : Bool :=
  s.answers port && (s.port port).conf == .active && !(s.portIso port && bitOf s.line.pairCtl 3)

/-- What this controller drives in answer, put on the port. -/
def State.putAnswer (s : State) (port : LinePort) (a : Answer) : State := s.updPort port fun x => { x with answer := a }

/-- The count events of Table 4-3 after an error: the error itself, then each own dominant flag with a bit read recessive, of which
there is at most one more than there are restarts (R145), the runs after it, the bits of its delimiter. -/
def State.errorCounts (s : State) (port : LinePort) (tx : Bool) (first delim : Nat) (sg : Signalling) : State :=
  let add := fun (s : State) (k : Nat) (m : Nat) => if tx then s.addCounts port k 0 m else s.addCounts port 0 k m
  let flags := if s.flags port then min sg.flags (sg.delim + 1) else 0
  add (add (add (add s first 1) 8 flags) 8 sg.runs) delim sg.delim

/-- A form error in IFS bit 1 or 2, after the frame was valid: its flag and its counts (R107, Table 4-3). -/
def State.ifsError (s : State) (port : LinePort) (tx : Bool) (after : Option Signalling) : State :=
  match after with
  | none => s
  | some sg =>
    (s.updPort port fun x => { x with answer := { x.answer with flag := s.flags port } }).errorCounts port tx
      (if tx then 8 else 1) (if tx then 8 else 1) sg

/-- The end of the attempt on a port (R134, R141, R157, R159, Table 4-3). -/
def State.attemptEnd (s : State) (port : LinePort) (e : TxEnd) : State :=
  match (s.port port).tx with
  | none => s
  | some a =>
    let t := s.dropTxOn port
    match e with
    | .valid ack act onsets after =>
      let t1 := (t.addCount port (-1) 0).finish port a stSent (s.validRecord port a ack act onsets)
      let t2 := ((t1.tideSent a).soundSent a).soundDone port a (s.sounded port a onsets)
      ((t2.ifsError port true after).lineIdle port).settle
    | .lost =>
      let t1 := t.putOff port a true
      let t2 := match s.srcPan a.src, a.src with
        | _, .gasp _ => t1
        | some n, _ => if s.alive a then t1.refund n a.frame else t1
        | none, _ => t1
      t2.updPort port fun x => { x with use := if x.waitNext then .waitTen else .receiving, waitNext := false }
    | .error ack sg =>
      (((t.putAnswer port ⟨false, s.flags port, none, none⟩).failed port a false ack).errorCounts port true 8 8 sg |>.lineIdle port).settle
    | .ackError heard =>
      if s.portIso port then
        let t1 := ((t.putAnswer port ⟨false, s.flags port, none, none⟩).countUnack a).failed port a true false
        let t2 := t1.lineIdle port
        (if heard || (s.port port).conf != .passive then t2.addCount port 8 0 else t2).settle
      else if a.frame.cls == 0 then s
      else if heard then
        (((t.putAnswer port ⟨false, false, none, none⟩).failed port a false false).addCount port 8 0 |>.lineIdle port).settle
      else ((((t.putAnswer port ⟨false, false, none, none⟩).countUnack a).failed port a true false).lineIdle port).settle
    | .cut => ((t.putOff port a false).lineIdle port).settle

end Sys2Proof.Machine
end

