-- ==== Sys2Proof/WellFormed.lean ====
section
/-! DEFINITION. Which commands describe something in the form in which it reaches the hardware: a frame has the data its LEN says and
an identifier of its format, a burst has 1 to 64 words, a BADCMD transaction a reserved command byte. No meaning stops where this
fails: a frame operand is read as the wire carries it (Frame.norm), a burst of no words ends before its first word. -/

namespace Sys2Proof

/-- A frame a port can see: as many data bytes as LEN (none on a remote frame), LEN at most 64, an identifier of its format. -/
def Frame.wf (f : Frame) : Bool :=
  f.len ≤ 64 && f.data.length == (if f.rmt then 0 else f.len) &&
    (if f.iso then f.xtd || decide (f.id.toNat < 2048) else !f.xtd && !f.rmt && decide (f.id.toNat < 65536))

/-- The data length codes of ISO 11898-1 (Table 24-1): the smallest that holds `n` bytes. -/
def fitLen (n : Nat) : Nat := (([0, 1, 2, 3, 4, 5, 6, 7, 8, 12, 16, 20, 24, 32, 48, 64] : List Nat).find? fun k => n ≤ k).getD 64

/-- The first `n` bytes of a list, zeros beyond its end. -/
def takeBytes (bs : List Byte) (n : Nat) : List Byte := (bs ++ List.replicate (n - bs.length) 0).take n

/-- A frame operand as a wire carries it: a native frame has no ISO fields, seven LEN bits and 16 identifier bits; an ISO frame has a
length that a data length code names, 11 identifier bits unless it is extended, and no data when it is remote. A native LEN of 65 to
127 stays (Table 3-14 makes it a form error); no more than 64 data bytes follow it. -/
def Frame.norm (f : Frame) : Frame :=
  if f.iso then
    let len := fitLen (if f.seq.getLsbD 0 then f.len else min f.len 8)
    { f with id := if f.xtd then f.id else BitVec.ofNat 29 (f.id.toNat % 2048), len := len
             roll := false, stamp := false, more := false, data := if f.rmt then [] else takeBytes f.data len }
  else
    { f with id := BitVec.ofNat 29 (f.id.toNat % 65536), xtd := false, rmt := false, esi := false, len := f.len % 128
             data := takeBytes f.data (min 64 (f.len % 128)) }

/-- A word count of a burst or a FETCH (R627, R636). -/
def wordsWf (n : Nat) : Bool := 1 ≤ n && n ≤ 64

/-- A command byte that R634 calls BADCMD: a reserved OP or a reserved bit that is not zero (Tables 18-2, 18-3). -/
def badCommand (op : Byte) : Bool := op.extractLsb' 4 3 != 0 || op.extractLsb' 0 4 == 0 || decide (0xB ≤ (op.extractLsb' 0 4).toNat)

/-- Commands whose operands describe something that can happen. -/
def Instr.wellFormed : Instr → Bool
  | .receiveFrame _ f _ _ _ => f.wf
  | .tideFrameRx _ f _ => f.wf
  | .soundRequestRx _ f _ => f.wf
  | .soundResultRx _ f => f.wf
  | .tqCplCollect _ _ _ k => wordsWf k
  | .rxfFetchRead _ _ _ k => wordsWf k
  | .hostReadBurst _ _ k => wordsWf k.words
  | .hostWriteBurst _ _ vs => wordsWf vs.length
  | .hostSubmit _ _ vs => wordsWf vs.length
  | .hostFetch _ _ k _ => wordsWf k.words
  | .badcmdTransaction _ op => badCommand op
  | _ => true

end Sys2Proof
end

