-- ==== Sys2Proof/Machine/Line.lean ====
section
/-! DEFINITION. What a port does with the frames it receives: acceptance, delivery, the bridge, counts, margin, answers
(chapters 2, 3, 4, 10, 24). -/

namespace Sys2Proof

open Machine

namespace Machine

/-! ### The bridge (R827-R835) -/

def otherPort : LinePort → LinePort
  | .plc => .pair
  | .pair => .plc

/-- LINE_BRIDGE.PREFIX. -/
def State.bridgePrefix (s : State) : Nat := bitsOf s.line.bridge 3 13

/-- LINE_BRIDGE enables the direction that leaves port `port` (R827). -/
def State.bridgeFrom (s : State) (port : LinePort) : Bool :=
  bitOf s.line.bridge 0 && bitOf s.line.bridge (match port with | .plc => 1 | .pair => 2)

/-- A forward as it leaves, or why it does not. -/
inductive Mapped where
  | ok (f : Frame)
  | drop
  | cap
  deriving DecidableEq, Repr

/-- The safety and tide rights of a native forward (R834). -/
def State.mapRight (s : State) (f : Frame) : Mapped :=
  let may := fun (c : Cap) => (s.bridgePan.map fun n => s.hasCap n c).getD false
  if f.cls == 0 && !may .keeper then .cap
  else if f.cls == 1 && f.topic < 16 && !may .sluice then .cap
  else .ok f

/-- SOURCE replaced by this controller's address (R91). -/
def State.ownSource (s : State) (id : Nat) : BitVec 29 := BitVec.ofNat 29 (id / 64 * 64 + s.line.addr.toNat)

/-- A frame that arrived on `port` as it leaves on the other one (R832, R833, R835). -/
def State.mapForward (s : State) (port : LinePort) (f : Frame) : Mapped :=
  match port, s.isoMode with
  | .plc, true =>
    let fd := bitOf s.line.pairCtl 2
    if !fd && 8 < f.len then .drop
    else
      let n := fitLen f.len
      .ok { id := BitVec.ofNat 29 (s.bridgePrefix * 65536 + bitsOf f.id 0 16), xtd := true, rmt := false, iso := true
            brs := fd && f.brs, esi := false, seq := if fd then 1 else 0, roll := false, stamp := false, more := false
            len := n, data := f.data ++ List.replicate (n - f.len) 0 }
  | .pair, true =>
    if f.xtd && !f.rmt && bitsOf f.id 16 13 == s.bridgePrefix then
      s.mapRight { id := s.ownSource (bitsOf f.id 0 16), xtd := false, rmt := false, iso := false, brs := true, esi := false
                   seq := 0, roll := false, stamp := false, more := false, len := f.len, data := f.data }
    else .drop
  | _, false => s.mapRight { f with id := s.ownSource (bitsOf f.id 0 16), roll := false, stamp := false }

/-- A received frame is forwarded at most once (R382, R383, R827, R828, R840); the answer says whether it was. -/
def State.forward (s : State) (port : LinePort) (f : Frame) : Bool × State :=
  let out := otherPort port
  match s.bridgePan with
  | none => (false, s)
  | some n =>
    if !(s.bridgeFrom port && s.portEn out && !s.busOff out) then (false, s)
    else match s.mapForward port f with
    | .drop => (false, s.bridgeDrop out)
    | .cap => (false, (s.panFault n fltCap).bridgeDrop out)
    | .ok g =>
      if 6 ≤ (s.bridgeQ out).length then (false, s.bridgeDrop out)
      else (true, s.setBridgeQ out (s.bridgeQ out ++ [⟨g, 0, 0, s.pans[n].gen⟩]))

/-! ### Delivery (R356, R359, R381-R387) -/

/-- The pan was reset after the frame began: the frame is not written into it (R319). -/
def Pan.missed (p : Pan) (sof : Instant) : Bool :=
  match p.rstAt with
  | some r => decide (centred ((sof.ticks : Int) - (r.ticks : Int)) < 0)
  | none => false

/-- One winner's copy. -/
def State.deliver (s : State) (port : LinePort) (f : Frame) (sof : Instant) (brg : Bool) (n : Fin 4) (k : Fin 128) : State :=
  let x := s.flt[k].asOf (s.evalAt port f sof)
  let d : Delivery := ⟨port, sof, localNo s.fltOwner k, brg⟩
  let s1 := s.hitFilter k
  match x.dest with
  | 1 =>
    let r := s1.deliverFifo n (idx 4 x.tgt) f d
    if r.1 then r.2 else r.2.dropFilter k
  | 2 =>
    match s.slotGlobal n x.tgt with
    | some g => s1.deliverMailbox n g f d
    | none => s1.dropFilter k
  | 3 => if brg then s1 else s1.dropFilter k
  | _ => s1

/-- The winners whose pans take the frame. -/
def State.takers (s : State) (port : LinePort) (f : Frame) (sof : Instant) : List (Fin 4 × Fin 128) :=
  (s.winners port f (s.evalAt port f sof)).filter fun w => !s.pans[w.1].missed sof

/-- The copies of a valid frame, and its forward. -/
def State.deliverAll (s : State) (port : LinePort) (f : Frame) (sof : Instant) : State :=
  let ws := s.takers port f sof
  let r := if ws.any fun w => (s.flt[w.2].asOf (s.evalAt port f sof)).dest == 3 then s.forward port f else (false, s)
  ws.foldl (fun s w => s.deliver port f sof r.1 w.1 w.2) r.2

/-! ### Link margin (R53, R54) -/

/-- The free choice of R54: the lowest level, which is the highest step, at which the prediction reaches the target. -/
def freeLevel (rx : Int) (tgt : Nat) : Nat :=
  ((List.range 8).reverse.find? fun (k : Nat) => decide ((2 * tgt : Int) ≤ rx - 6 * (k : Int))).getD 0

/-- PLC_MARGIN.PRED at the level in use; a sum outside its eight bits has no stated reading (free, log 14). -/
def State.putPred (s : State) : State :=
  let v : Int := s.line.marginRx.toInt - 6 * s.line.level.toNat
  if -128 ≤ v then s.updLine fun l => { l with marginPred := BitVec.ofInt 8 v }
  else (s.updLine fun l => { l with marginPred := (Config.freeWord s.free).setWidth 8 }).takeFree

/-- One step of the level towards the limited choice. -/
def stepLevel (cur want : Nat) : Nat := if cur < want then cur + 1 else if want < cur then cur - 1 else cur

/-- PLC_MARGIN and the level after a data-phase frame of the current keeper. -/
def State.putMargin (s : State) (rx : Byte) : State :=
  let free := freeLevel rx.toInt (bitsOf s.line.policy 16 4)
  let want := min (max free (bitsOf s.line.policy 0 3)) (bitsOf s.line.policy 4 3)
  (s.updLine fun l =>
    { l with marginRx := rx, clamp := want != free, level := BitVec.ofNat 3 (stepLevel l.level.toNat want) }).putPred

/-- A data-phase frame of the tracked keeper on the PLC port. -/
def State.keeperFrame (s : State) (port : LinePort) (f : Frame) : Bool :=
  port == .plc && f.brs && !s.tide.sending && s.tide.lastTracked.isSome && f.source == s.tide.keeper.toNat

/-! ### What the port drives (Tables 1-4 and 4-5) -/

/-- A keeper was tracked at the SOF of a frame (R128): it is now, or tracking ended after that SOF. -/
def State.trackedAt (s : State) (sof : Instant) : Bool :=
  s.tide.lastTracked.isSome || (s.tide.untracked.map fun u => decide (centred ((sof.ticks : Int) - (u : Int)) < 0)).getD false

/-- The roll slot and the advance of a responder: keeper roll for the tracked keeper, else open roll (R114); nothing for a
keeper's register that is not VALID. In 5 ns ticks. -/
def State.rollMode (s : State) (port : LinePort) (f : Frame) (sof : Instant) : Option (Nat × Nat) :=
  if port == s.stringPort && s.trackedAt sof && f.source == s.tide.keeper.toNat then
    let d := s.delayFor s.tide.backup
    if d.valid then some ((match port with | .plc => 400 | .pair => 80), d.val.toNat) else none
  else some (4 * (match port with | .plc => bitsOf s.line.rollSlot 0 11 | .pair => bitsOf s.line.rollSlot 16 11), 0)

/-- Some pan that wants roll response takes the frame (R112). -/
def State.rollWanted (s : State) (port : LinePort) (f : Frame) (sof : Instant) : Bool :=
  f.cls == 0 || (s.takers port f sof).any fun w => (s.flt[w.2].asOf (s.evalAt port f sof)).dest != 0 && s.pans[w.1].rollRsp

/-- The launch instant of the roll chip: W + k s - d (R112-R114). -/
def State.rollChip (s : State) (port : LinePort) (f : Frame) (sof : Instant) : Option Instant :=
  if f.iso || !f.roll || !s.answers port || !s.rollWanted port f sof then none
  else (s.rollMode port f sof).map fun m =>
    instantOf ((stampOf f + s.nominalE port f / 5 + s.line.addr.toNat * m.1 : Nat) - (m.2 : Int))

/-! ### A reception (R106, R109, R136, Table 4-3) -/

/-- The port is taking a frame. -/
def State.takes (s : State) (port : LinePort) : Bool :=
  s.coreRuns && s.portOn port && (s.port port).tx.isNone && (s.port port).use != .waitTen

/-- REC after a valid frame: less one; an ISO count above 127 falls to a value from 119 to 127 that ISO 11898-1 leaves to the
implementation (free, log 15). -/
def State.recValid (s : State) (port : LinePort) : State :=
  if s.portIso port && 127 < (s.port port).recCnt then
    let v : Int := 119 + ((Config.freeWord s.free).toNat % 9 : Nat)
    (s.addCount port 0 (v - (s.port port).recCnt)).takeFree
  else s.addCount port 0 (-1)

/-- LINE_STATE.DUPADDR (R39) and C0FMT (R130). -/
def State.frameFlags (s : State) (f : Frame) : State :=
  let bad := f.cls == 0 && ((f.topic == 0 && tideMalformed f) || (f.topic == 1 && soundMalformed f))
  if f.iso then s
  else
    let s1 := if bad then (s.updLine fun l => { l with c0fmt := true }).arrive 14 else s
    if f.source == s.line.addr.toNat then (s1.updLine fun l => { l with dupAddr := true }).arrive 9 else s1

/-- A frame received to its validity point. -/
def State.receiveValid (s : State) (port : LinePort) (f : Frame) (sof : Instant) (margin : Byte) (after : Option Signalling) : State :=
  let s1 := s.putAnswer port ⟨s.answers port, false, s.rollChip port f sof, none⟩
  let s2 := (s1.recValid port).deliverAll port f sof
  let s3 := s2.frameFlags f
  let s4 := if s.keeperFrame port f then s3.putMargin margin else s3
  ((s4.ifsError port false after).lineIdle port).settle

end Machine

/-- The error was found before the ACK slot, so the controller did not drive it (R103). -/
def RxErr.noAck : RxErr → Bool
  | .ackBit => false
  | .ackDelim => false
  | .eof => false
  | _ => true

/-- The size of the first count event of a reception (Table 4-3). -/
def RxErr.count : RxErr → Nat
  | .ackBit => 8
  | _ => 1

namespace Machine

/-- What the port drove of its answer in a frame that ends in an error: the ACK slot of a frame good up to the CRC delimiter (R103),
the chip of one good up to the ACK delimiter (R112), and the flag (R138). -/
def State.errorAnswer (s : State) (port : LinePort) (f : Frame) (sof : Instant) (e : RxErr) : Answer :=
  ⟨!e.noAck && s.answers port, s.flags port, if e = .eof then s.rollChip port f sof else none, none⟩

/-- A reception that ends in an error; ISO 11898-1 counts every kind by one (R820). -/
def State.receiveError (s : State) (port : LinePort) (f : Frame) (sof : Instant) (e : RxErr) (sg : Signalling) : State :=
  (((s.putAnswer port (s.errorAnswer port f sof e)).errorCounts port false (if s.portIso port then 1 else e.count) 1 sg).lineIdle
    port).settle

/-- The form error that a native frame's LEN and FLAGS make (Table 3-14), and an FD frame on an ISO port without FD (R813). -/
def State.formError (s : State) (f : Frame) : Option RxErr :=
  if f.iso then if f.fdf && !bitOf s.line.pairCtl 2 then some .formVer else none
  else if 64 < f.len then some .formLen
  else if (f.stamp && decide (f.len < 8)) || (f.roll && !f.stamp) then some .formFlags
  else none

/-- How a reception ends at this port: a frame whose fields break Table 3-14 ends there, unless an error before its control field
ended it. -/
def State.rxEnd (s : State) (f : Frame) (e : RxEnd) : RxEnd :=
  match s.formError f, e with
  | none, e => e
  | some x, .valid after => .error x (after.getD ⟨0, 0, 0⟩)
  | some x, .error y sg => if y = .stuff ∨ y = .formVer then .error y sg else .error x sg

/-- A reception. An ACK bit error is one of a port that drove its ACK slot (Table 4-1): on another port nothing happens (log 1). -/
def State.receive (s : State) (port : LinePort) (f : Frame) (sof : Instant) (margin : Byte) (e : RxEnd) : State :=
  if !s.takes port || f.iso != s.portIso port then s
  else match s.rxEnd f e with
  | .valid after => s.receiveValid port f sof margin after
  | .error .ackBit sg => if s.answers port then s.receiveError port f sof .ackBit sg else s
  | .error x sg => s.receiveError port f sof x sg

/-! ### Sounding (R69, R71) -/

/-- The end of the IFS of a SOUND request, until which only the keeper launches (R73). -/
def State.soundEnd (s : State) (port : LinePort) (f : Frame) (sof : Instant) : Instant :=
  instantOf ((sof.ticks + (s.nominalE port f + s.echoNs port f + 10 * s.ta port) / 5 : Nat) : Int)

/-- The addressee's echo at t1 + E; every controller but the keeper holds its own SOFs back. -/
def State.soundRequest (s : State) (port : LinePort) (f : Frame) (sof : Instant) : State :=
  let life := s.lifeUnder
  let may := port == s.stringPort && s.takes port && s.canDrive port && !s.portIso port && f.isSoundReq && !soundMalformed f &&
    bitsOf (f.data.headD 0) 0 6 == s.line.addr.toNat && s.tide.fest &&
    (life == .joining || life == .synced || life == .live)
  let echo := if may then some (instantOf ((sof.ticks + s.nominalE port f / 5 : Nat) : Int)) else none
  let hold := s.takes port && !s.portIso port && f.isSoundReq && !(port == s.stringPort && s.tide.sending)
  s.updPort port fun x =>
    { x with answer := { x.answer with echo := echo }, sofHold := if hold then some (s.soundEnd port f sof) else x.sofHold }

/-- A SOUND result for this address on the string port. -/
def State.hearResult (s : State) (port : LinePort) (f : Frame) : State :=
  if port == s.stringPort && s.takes port && !f.iso && f.cls == 0 && f.topic == 1 && bitOf (f.data.headD 0) 6 &&
      !soundMalformed f && bitsOf (f.data.headD 0) 0 6 == s.line.addr.toNat then s.soundResult f
  else s

/-- A TIDE frame on the string port. -/
def State.receiveTide (s : State) (port : LinePort) (f : Frame) (arrival : Instant) : State :=
  if !(s.takes port && isTide f && !tideMalformed f && (s.formError f).isNone) then s
  else if port == s.stringPort then (if port = .plc then s.endSearch else s).hearTide f arrival.ticks
  else if port = .plc then s.endSearch else s

/-! ### Idle lines -/

/-- The port has seen ten recessive bits (R131). -/
def State.idleSync (s : State) (port : LinePort) : State :=
  if s.coreRuns && (s.port port).use == .waitTen && s.portOn port then s.updPort port fun x => { x with use := .idle } else s

/-- Eight bits after IFS, a passive port that has just sent offers again (R150). -/
def State.suspensionEnd (s : State) (port : LinePort) : State :=
  if (s.port port).use == .suspended then s.updPort port fun x => { x with use := .idle } else s

/-- A delay that waited for the bus idle takes effect (R77). -/
def State.applyDelay (s : State) : State :=
  match s.line.dlyPend with
  | some (k, v) =>
    if s.busIdle then ((s.updLine fun l => { l with dlyPend := none }).putDelay k v).settle else s
  | none => s

/-- The pending move of the clock at the bus idle (R209). -/
def State.clockIdle (s : State) : State :=
  if s.busIdle && (s.tide.stepPend.isSome || s.cal.pend.isSome || s.tide.adjPend != 0) then s.applyMoves.settle else s

/-- The oldest CHANNEL action that waited for the bus idle (R270). -/
def State.channelIdle (s : State) : State :=
  let u := s.line.plc.use
  match s.line.chanPend with
  | (e, p, late) :: rest =>
    if s.portEn .plc && u != .idle && u != .waitTen && u != .suspended then s
    else (s.updLine fun l => { l with chanPend := rest }).channelDone e p late
  | [] => s

/-! ### Plan search and noise (R55, R57) -/

/-- The next plan of the search: the other allowed plans in ascending order, then the plan in PLC_CHAN again. -/
def State.nextDwell (s : State) : BitVec 3 :=
  let own := s.line.plan.toNat
  let others := ([1, 2, 3, 4, 5, 6] : List Nat).filter fun p => s.planAllowed p && p != own
  let next := if s.line.dwell == s.line.plan then others.head? else others.find? fun p => s.line.dwell.toNat < p
  BitVec.ofNat 3 (next.getD own)

/-- A dwell ends without a tide frame. The port then waits for ten recessive bits, also on the same plan (DESIGN CHOICE, log 75). -/
def State.dwellEnd (s : State) : State :=
  if s.line.searching && s.coreRuns then s.updLine fun l => { l with dwell := s.nextDwell, plc := { l.plc with use := .waitTen } } else s

/-- The noise measured in the band of plan `p`, in 0.5 dB. -/
def noiseOf (noise : Tab Int 6) (p : Nat) : Int := noise[idx 6 (p - 1)]

/-- PRED of the plan in effect with the level at CEIL, in 0.5 dB (R53, R55). -/
def State.predAtCeil (s : State) : Int := s.line.marginRx.toInt - 6 * (bitsOf s.line.policy 4 3 : Nat)

/-- The estimated margin of an allowed plan: PRED at CEIL, less what its noise exceeds that of the plan in effect by (R55). -/
def State.planEstimate (s : State) (noise : Tab Int 6) (p : Nat) : Int :=
  s.predAtCeil + noiseOf noise s.line.plan.toNat - noiseOf noise p

/-- The plans of a list by rising noise, equal noise by rising number (DESIGN CHOICE, log 49). -/
def rankPlans (noise : Tab Int 6) : List Nat → List Nat
  | [] => []
  | p :: ps =>
    let rec put (p : Nat) : List Nat → List Nat
      | [] => [p]
      | q :: qs => if noiseOf noise q < noiseOf noise p then q :: put p qs else p :: q :: qs
    put p (rankPlans noise ps)

/-- The noise of plans C1 to C6 in their order. -/
def noiseOfPlans (c12 c34 c56 : Int × Int) : Tab Int 6 := #v[c12.1, c12.2, c34.1, c34.2, c56.1, c56.2]

/-- A 1 s noise average (R55): RANK, BETTER, and LINK_MARGIN where no allowed plan has margin. -/
def State.noise (s : State) (noise : Tab Int 6) : State :=
  if !(s.portEn .plc && s.coreRuns) then s
  else
    let allowed := ([1, 2, 3, 4, 5, 6] : List Nat).filter fun p => s.planAllowed p
    let word := (rankPlans noise allowed).zipIdx.foldl (fun w (p : Nat × Nat) => putBits w (3 * p.2) 3 p.1) (0 : BitVec 18)
    let low := decide (s.predAtCeil < 0)
    let other := (allowed.filter fun p => p != s.line.plan.toNat).any fun p => decide (0 ≤ s.planEstimate noise p)
    let s1 := s.updLine fun l => { l with rank := word, better := low && other }
    let s2 := if s.line.better == (low && other) then s1 else s1.arrive 28
    if low && !other then s2.arrive 30 else s2

end Machine

end Sys2Proof
end

