-- ==== Sys2Proof/Machine/Pans.lean ====
section
/-! DEFINITION. PANLOCK with its checks and its scrub, and the reset of a pan (chapter 8). -/

namespace Sys2Proof.Machine

/-! ### The allocation as written (Table 8-3) -/

/-- The owner a packed word gives, whether or not PANLOCK is set. -/
def State.rawOwner (s : State) (base k : Nat) : Fin 4 := idx 4 (bitsOf (s.allocWord (base + k / 16)) (2 * (k % 16)) 2)

def State.rawUnit (s : State) (g : Nat) : Fin 4 := s.rawOwner 12 (g / 32)
def State.rawThread (s : State) (t : Nat) : Fin 4 := s.rawOwner 27 t
def State.rawTimer (s : State) (t : Nat) : Fin 4 := s.rawOwner 27 (8 + t)
def State.rawSource (s : State) (k : Nat) : Fin 4 := if 20 ≤ k ∧ k < 28 then s.srcOwner k else s.rawOwner 28 k

/-- The EN field of a pan's word; P0's reads 1. -/
def State.allocEn (s : State) (n : Fin 4) : Bool := n == 0 || bitOf (s.allocWord n) 0

/-- P0 to P3. -/
def allPans : List (Fin 4) := [0, 1, 2, 3]

/-- Two regions of one memory overlap; a region is base and size in KiB. -/
def overlap (a b : Nat × Nat) : Bool := a.2 != 0 && b.2 != 0 && a.1 < b.1 + b.2 && b.1 < a.1 + a.2

/-- Scratch and instruction RAM regions in KiB. -/
def State.scratchKib (s : State) (n : Fin 4) : Nat × Nat := (bitsOf (s.allocWord (4 + n)) 0 5, bitsOf (s.allocWord (4 + n)) 8 5)
def State.iramKib (s : State) (n : Fin 4) : Nat × Nat := (bitsOf (s.allocWord (4 + n)) 16 6, bitsOf (s.allocWord (4 + n)) 24 7)

/-- Check 1: regions inside their memories, none overlapping another. -/
def State.checkRegions (s : State) : Bool :=
  let ns := allPans.filter s.allocEn
  let inside := fun (r : Nat × Nat) (size : Nat) => r.2 == 0 || r.1 + r.2 ≤ size
  ns.all (fun n => inside (s.scratchKib n) 16 && inside (s.iramKib n) 64) &&
    ns.all fun n => ns.all fun m =>
      m ≤ n || !(overlap (s.scratchKib n) (s.scratchKib m) || overlap (s.iramKib n) (s.iramKib m))

/-- Every owner of a kind is an enabled pan. -/
def State.ownersOn (s : State) (base count : Nat) : Bool := (List.range count).all fun k => s.allocEn (s.rawOwner base k)

/-- Check 2: nothing belongs to a disabled pan (R700). -/
def State.checkOwners (s : State) : Bool :=
  s.ownersOn 12 42 && s.ownersOn 15 128 && s.ownersOn 23 32 && s.ownersOn 25 32 && s.ownersOn 27 16 && s.ownersOn 36 9 &&
    ((List.range 128).all fun k =>
      k == 0 || 120 ≤ k || (20 ≤ k && k < 28) || s.allocEn (s.rawOwner 28 k)) &&
    allPans.all fun n => s.allocEn n || ((s.scratchKib n).2 == 0 && (s.iramKib n).2 == 0)

/-- Check 3: a sealed cycle has a window. -/
def State.checkSeal (s : State) : Bool :=
  !bitOf (s.allocWord 36) 31 || allPans.any fun n => s.allocEn n && bitsOf (s.allocWord n) 16 16 != 0

/-- A producer or consumer code, or a completion source, that the allocation leaves with P0. -/
def State.codeStays (s : State) (c : Nat) : Bool := c < 8 || s.rawThread (c - 8) == 0
def State.srcStays (s : State) (k : Nat) : Bool := k == 0 || s.rawSource k == 0
def State.ringStays (s : State) (base depth : Nat) : Bool := (List.range depth).all fun k => s.rawUnit (base + k) == 0

/-- Check 4: no configuration of P0 in force names what leaves P0 (R874). -/
def State.checkConfig (s : State) : Bool :=
  let p := s.pans[(0 : Fin 4)]
  (p.tq.toList.all fun q => !q.en || (s.ringStays q.base q.depth && s.codeStays q.prod && s.srcStays q.src)) &&
    (p.rxf.toList.all fun q => !q.en || (s.ringStays q.base q.depth && s.codeStays q.cons && s.srcStays q.src)) &&
    (s.flt.toList.all fun x => x.dest != 2 || s.rawUnit x.tgt == 0) &&
    s.tim.tim.toList.all fun x => !x.en ||
      ((!(x.srcSel == 3 || x.srcSel == 4 || x.mrst) || s.rawTimer x.selNo == 0) &&
        (!(x.gate == 1 || x.gate == 2) || s.rawTimer x.gsel == 0))

/-- The first failing check, 0 for none. -/
def State.allocCheck (s : State) : Nat :=
  if !s.checkRegions then 1 else if !s.checkOwners then 2 else if !s.checkSeal then 3 else if !s.checkConfig then 4 else 0

/-! ### PANLOCK takes effect (R296, R393, R561, R601, R735, R874) -/

/-- A pan's budget ceiling. -/
def State.ceiling (s : State) (n : Fin 4) : Word := s.allocWord (8 + n)

/-- A pan at its reset values, with its budget at the ceiling and a full bucket. -/
def State.freshPan (s : State) (n : Fin 4) : Pan :=
  { Pan.reset with budget := s.ceiling n, token := BitVec.ofNat 16 (bitsOf (s.ceiling n) 16 16) }

/-- A timer at its reset values; the level at its pin is what it is, and a pulse goes on at the pin to its end although OE and OUT read 0
(R280, R600; DEDUCED, log 76). -/
def Timer.fresh (x : Timer) : Timer := { Timer.reset with pin := x.pin, tail := x.tail || (x.pulse && x.oe && x.out) }

/-- Both fields of a budget cut to a ceiling. -/
def cutBudget (b c : Word) : Word :=
  field 0 (min (bitsOf b 0 16) (bitsOf c 0 16)) ||| field 16 (min (bitsOf b 16 16) (bitsOf c 16 16))

/-- P0's budget, its shadow and its bucket cut to the locked ceiling (R323). -/
def Pan.cut (p : Pan) (c : Word) : Pan :=
  let b := cutBudget p.budget c
  { p with budget := b, budgetSh := p.budgetSh.map fun x => cutBudget x c
           token := BitVec.ofNat 16 (min p.token.toNat (bitsOf b 16 16)) }

/-- A global number as P0's new local one, where P0 keeps the resource; which fields are renumbered is DEDUCED (log 78). -/
def renum (owner : Nat → Fin 4) (k : Nat) : Nat := if owner k = 0 then localNo owner k else k

/-- A slot number as P0's new local one. -/
def State.renumSlot (s : State) (g : Nat) : Nat :=
  if s.rawUnit g = 0 then 32 * localNo (s.rawOwner 12) (g / 32) + g % 32 else g

/-- A producer or consumer code in P0's new numbering. -/
def State.renumCode (s : State) (c : Nat) : Nat := if c < 8 then c else 8 + renum s.rawThread (c - 8)

/-- A bit field over P0's resources in the new numbering: the bits of those it keeps. -/
def renumBits (owner : Nat → Fin 4) (count m : Nat) : Nat :=
  ((List.range count).filter fun k => owner k = 0 && m.testBit k).foldl (fun b k => b + 2 ^ localNo owner k) 0

/-- The slot, pin, timers or thread that an entry's operand names, by its action (Table 7-4), in the new numbering. -/
def State.renumOpnd (s : State) (e : SchEntry) : Word :=
  let o := e.opnd
  match bitsOf e.ctl 0 4 with
  | 1 => putBits o 0 11 (s.renumSlot (bitsOf o 0 11))
  | 2 => if bitsOf o 0 4 < 8 then putBits o 0 4 (renum s.rawTimer (bitsOf o 0 4)) else o
  | 3 => putBits o 0 8 (renumBits s.rawTimer 8 (bitsOf o 0 8))
  | 4 => putBits o 16 3 (renum s.rawThread (bitsOf o 16 3))
  | _ => o

/-- A breakpoint of P0 with its threads in the new numbering. -/
def State.renumBp (s : State) (b : Breakpoint) : Breakpoint :=
  if b.pan = 0 then { b with mask := BitVec.ofNat 8 (renumBits s.rawThread 8 b.mask.toNat) } else b

/-- P0's queues, FIFOs and selectors, and the bits of PAN_SCHEV, in the new numbering (R874). -/
def State.renumPan (s : State) (p : Pan) : Pan :=
  { p with
    schev := BitVec.ofNat 32 (renumBits (s.rawOwner 23) 32 p.schev.toNat)
    tq := tabMap p.tq fun q =>
      { q with ctl := putBits q.ctl 12 4 (s.renumCode q.prod), ring := putBits q.ring 0 11 (s.renumSlot q.base) }
    rxf := tabMap p.rxf fun q =>
      { q with ctl := putBits q.ctl 4 4 (s.renumCode q.cons), ring := putBits q.ring 0 11 (s.renumSlot q.base) } }

/-- A mailbox target in the new numbering. -/
def State.renumTgt (s : State) (w : Word) : Word :=
  if bitsOf w 8 2 = 2 then putBits w 16 11 (s.renumSlot (bitsOf w 16 11)) else w

/-- A hold-off group selector in the new numbering. -/
def State.renumSel (s : State) (w : Word) : Word := putBits w 8 3 (renum (s.rawOwner 36) (bitsOf w 8 3))

/-- One filter as PANLOCK leaves it. -/
def State.lockFilter (s : State) (k : Nat) (x : Filter) : Filter :=
  if s.rawOwner 15 k = 0 then { x with ctl := s.renumTgt x.ctl, ctlSh := x.ctlSh.map s.renumTgt } else .reset

/-- The slots of P0 that a thread holds: they keep their thread under its new number, or pass to HOST (R874). -/
def State.lockSlots (s : State) : State :=
  (List.range 1344).foldl (fun s g =>
    if s.rawUnit g = 0 ∧ s.slotOwn g = ownThread then
      if s.rawThread (s.slotThr g) = 0 then s.passSlot g ownThread (renum s.rawThread (s.slotThr g)) else s.passSlot g ownHost 0
    else s) s

/-- The mailbox slots that stay with P0 while the filters that name them leave it pass to HOST (R386). -/
def State.lockMailboxes (s : State) : State :=
  let keeps := fun (g : Nat) => (List.range 128).any fun k =>
    s.rawOwner 15 k == 0 && s.flt[idx 128 k].dest == 2 && s.flt[idx 128 k].tgt == g
  (List.range 128).foldl (fun t k =>
    let x := s.flt[idx 128 k]
    if s.rawOwner 15 k ≠ 0 ∧ x.dest = 2 ∧ !keeps x.tgt then t.passSlot x.tgt ownHost 0 else t) s

/-- The brine units and scratch of a pan are zeroed (R296, R317). -/
def State.scrubPan (s : State) (n : Fin 4) : State :=
  let m := ((List.range 42).filter fun u => s.unitOwner u == n).foldl (fun m u => memZero m (slotAddr (32 * u) 0) (slotAddr (32 * u + 32) 0)) s.mem
  let r := s.scratchRegion n
  { s with mem := memZero m r.1 (r.1 + r.2) }

/-- Sources and groups that pass return to their reset state (R561). -/
def State.lockIrq (s : State) (q : Irq) : Irq :=
  let q1 := ((List.finRange 128).filter fun (k : Fin 128) => s.rawSource k.val != 0 && srcExists k.val).foldl Irq.resetSource q
  let q2 := ((List.finRange 8).filter fun (g : Fin 8) => s.rawOwner 36 g.val != 0).foldl Irq.resetGroup q1
  { q2 with selHost := tabMap q2.selHost fun w => w.set 0 (s.renumSel w[0])
            selThr := tabMapIdx q2.selThr fun t w => if s.rawThread t = 0 then s.renumSel w else 0 }

/-- The first pan of the sealed cycle (R309). -/
def State.firstWindow (s : State) : Fin 4 :=
  (allPans.find? fun n => s.allocEn n && bitsOf (s.allocWord n) 16 16 != 0).getD 0

/-- The sealed cycle starts with its first window. -/
def State.startCycle (s : State) : State := { s with window := s.firstWindow, windowFrom := s.eng.tnow }

/-- What PANLOCK returns to its reset state or renumbers, in the scrubbed state `s2`, by the allocation of the state `s` before it
(R296, R393, R561, R601, R735, R874). -/
def State.lockRest (s s2 : State) : State :=
  { s2 with
    flt := tabMapIdx s.flt s.lockFilter
    irq := s.lockIrq s2.irq
    tim := { s2.tim with tim := tabMapIdx s2.tim.tim fun k x => if s.rawTimer k = 0 then x else x.fresh }
    sched := { s2.sched with ent := tabMapIdx s2.sched.ent (fun k e => if s.rawOwner 23 k = 0 then { e with opnd := s.renumOpnd e } else .reset)
                             latch := tabMap s2.sched.latch fun l => tabMapIdx l fun k v => if s.rawOwner 23 k = 0 then v else none }
    eng := { s2.eng with thr := tabMapIdx s2.eng.thr (fun k th => if s.rawThread k = 0 then th else .reset)
                         bp := tabMap s2.eng.bp fun o => o.map s.renumBp }
    pans := tabMapIdx s2.pans fun n p => if n = 0 then s.renumPan (p.cut (s.ceiling 0)) else s.freshPan (idx 4 n) }

/-- The allocation is frozen. -/
def State.lockNow (s : State) : State :=
  let s1 := s.lockMailboxes.lockSlots.updSys fun y => { y with panLock := true, scrub := true, allocErr := 0 }
  s.lockRest (([1, 2, 3] : List (Fin 4)).foldl State.scrubPan s1)

/-- A write of 1 to PANLOCK (R295). -/
def State.panLockWrite (s : State) : State :=
  if s.sys.panLock then s
  else if s.allocCheck = 0 then s.lockNow.startCycle
  else { s with sys := { s.sys with allocErr := BitVec.ofNat 3 s.allocCheck } }

/-! ### A pan reset (Table 8-8) -/

/-- What step 4 discards of the transmit side (R740, R839). -/
def State.txCount (s : State) (n : Fin 4) : Nat :=
  let tq := (s.pans[n].tq.toList.map fun q =>
    q.filling.toList.length + (q.items.filter fun i => i.st == .queued).length + q.done.length).sum
  let ent := (s.sched.ent.toList.zipIdx.filter fun e => s.schOwner e.2 == n && e.1.slot.isSome).length
  let fired := (s.sched.fired.filter fun x => x.pan == n && !s.onWire x.slot).length
  let wire := fun (p : LinePort) => if ((s.port p).tx.map fun a => a.src == .bridge).getD false then 1 else 0
  let fwd := if s.bridgePan == some n then s.line.bridgePA.length + s.line.bridgeAP.length - wire .pair - wire .plc else 0
  tq + ent + fired + fwd

/-- What step 4 discards of the receive side: frames, mailbox frames not yet taken, deliveries held (R360, R740). -/
def State.rxCount (s : State) (n : Fin 4) : Nat :=
  let fifo := (s.pans[n].rxf.toList.map fun q => q.frames.length).sum
  let slots := ((List.range 1344).filter fun g =>
    s.slotOwner g == n && s.slotOwn g == ownLine && !bitOf (s.slotWord g 2) 9 && s.mailboxOf g).length
  fifo + slots + (s.host.toList.map fun y => (y.held.filter fun h => h.pan == n).length).sum

/-- Threads, locks, breakpoints kept, of a pan at its reset (step 2). -/
def State.resetThreads (s : State) (n : Fin 4) : State :=
  let s1 := s.updEng fun e =>
    { e with thr := tabMapIdx e.thr fun t th => if s.thrOwner t = n then { Thread.reset with panRst := true } else th
             locks := tabMapIdx e.locks fun l o => if s.lockOwner l = n then none else o
             stock := e.stock.set n.val .reset n.isLt }
  s1.updIrq fun q => { q with eng := tabMapIdx q.eng fun t o => if s.thrOwner t = n then none else o }

/-- Sources and groups of a pan (step 5); IC_THLD_Hx and IC_STAT.ORD of its window's target (step 6, Table 22-5). -/
def State.resetSources (s : State) (n : Fin 4) : State :=
  s.updIrq fun q =>
    let q1 := ((List.finRange 128).filter fun (k : Fin 128) => s.panSrc n k.val).foldl Irq.resetSource q
    let q2 := ((List.finRange 8).filter fun (g : Fin 8) => s.hgOwner g.val == n).foldl Irq.resetGroup q1
    { q2 with thld := q2.thld.set (s.panPort n).ix.val 0 (s.panPort n).ix.isLt
              ord := q2.ord.set (s.panPort n).ix.val false (s.panPort n).ix.isLt
              selHost := tabMap q2.selHost fun w => w.set n.val 0 n.isLt
              selThr := tabMapIdx q2.selThr fun t w => if s.thrOwner t = n then 0 else w }

/-- Timers of a pan, with the holds and latches of its threads (R600). -/
def State.resetTimers (s : State) (n : Fin 4) : State :=
  let clear := fun (t : Tab (Tab TimLatch 8) 10) => tabMapIdx t fun p l => tabMapIdx l fun k y =>
    if s.timOwner k = n ∨ (2 ≤ p ∧ s.thrOwner (p - 2) = n) then ⟨0, 0, 0, 0⟩ else y
  { s with tim :=
    { s.tim with tim := tabMapIdx s.tim.tim (fun k x => if s.timOwner k = n then x.fresh else x)
                 latch := clear s.tim.latch
                 hold := clear s.tim.hold
                 links := s.tim.links.filter fun k => s.timOwner k != n } }

/-- Entries and fired frames of a pan (step 3, R280). -/
def State.resetEntries (s : State) (n : Fin 4) : State :=
  let s1 := { s with sched :=
    { s.sched with ent := tabMapIdx s.sched.ent (fun k e => if s.schOwner k = n then .reset else e)
                   fired := s.sched.fired.filter fun x => x.pan != n
                   latch := tabMapIdx s.sched.latch fun p l => tabMapIdx l fun k v =>
                     if s.schOwner k = n ∨ (2 ≤ p ∧ s.thrOwner (p - 2) = n) then none else v } }
  s1.updLine fun l => { l with chanPend := l.chanPend.filter fun c => s.schOwner c.1 != n }

/-- The bridge queues charged to a pan, and P0's last-gasp frame. -/
def State.resetBridge (s : State) (n : Fin 4) : State :=
  let s1 := if s.bridgePan == some n then s.updLine fun l => { l with bridgePA := [], bridgeAP := [] } else s
  if n = 0 then s1.updLine fun l => { l with gasp := [] } else s1

/-- A saturating 16-bit number. -/
def sat16 (k : Nat) : Nat := min 65535 k

/-- The pan's own registers (step 6); a queue remembers that an item was open at the reset (R320, R349). -/
def State.resetPanRegs (s : State) (n : Fin 4) (tx rx : Nat) : State :=
  let s1 := s.updPan n fun p =>
    { s.freshPan n with gen := p.gen + 1, rstBusy := true, rstAt := some s.now, sreg := p.sreg
                        rstLog := field 0 (sat16 tx) ||| field 16 (sat16 rx)
                        tq := tabMap p.tq fun q => { TxQueue.reset with preReset := q.opened.isSome || q.preReset } }
  let s2 := { s1 with flt := tabMapIdx s1.flt fun k x => if s.fltOwner k = n then .reset else x }
  (s2.updSys fun y => { y with keys := y.keys.set (n.val + 1) 0 (by omega) }).mapHosts fun y =>
    { y.dropFetch fun f => f.pan == n with held := y.held.filter fun h => h.pan != n }

/-- A pan reset: steps 1 to 7 (R316, R317). A disabled or resetting pan ignores the request. -/
def State.panReset (s : State) (n : Fin 4) : State :=
  if !s.panEn n || s.pans[n].rstBusy then s
  else
    let tx := s.txCount n
    let rx := s.rxCount n
    let s1 := ((((s.resetBridge n).resetThreads n).resetEntries n).resetSources n).resetTimers n
    (((s1.resetPanRegs n tx rx).scrubPan n).settleWaits)

/-- Step 8. -/
def State.panResetDone (s : State) (n : Fin 4) : State :=
  if s.pans[n].rstBusy then (s.updPan n fun p => { p with rstBusy := false }).panFault n fltRst else s

end Sys2Proof.Machine
end

