-- ==== Sys2Proof/Machine/Power.lean ====
section
/-! DEFINITION. Resets, start-up, supply and clock events, power states, the test access port and the OTP (chapters 12, 23, 25). -/

namespace Sys2Proof.Machine

/-! ### Resets (R789, Table 23-6) -/

/-- The bits of SYS_RSTCAUSE. -/
def rcPor : Nat := 0
def rcPin : Nat := 1
def rcSup : Nat := 2
def rcSw : Nat := 3
def rcPar : Nat := 4
def rcWdog : Nat := 5

/-- What a reset keeps of the shutdown path: SAFE and its release state across PIN, SW, PAR and WDOG (R254). -/
def Sluice.afterReset (u : Sluice) (keep : Bool) : Sluice :=
  let r := { Sluice.reset with safeIn := u.safeIn }
  if keep then { r with safe := u.safe, cause := u.cause, relVal := u.relVal, relLat := u.relLat, tideOk := u.tideOk, localOk := u.localOk }
  else r

/-- What a reset keeps of a port: the guard and the bus-off history across the same causes (R173). -/
def PortState.afterReset (x : PortState) (keep : Bool) : PortState :=
  if keep then { PortState.reset with guard := x.guard, history := x.history } else .reset

/-- SYS_RSTCAUSE after a reset with a cause: the causes active at it (R688), PIN among them while a TAP instruction holds the controller in
reset (R862); a power-on reset, which also resets the TAP (R861), sets POR alone. -/
def State.rstCauses (s : State) (cause : Nat) : BitVec 6 :=
  putBit (BitVec.ofNat 6 (1 <<< cause)) rcPin (cause == rcPin || (cause != rcPor && s.pow.tapHold))

/-- A reset with a cause: everything at its reset value but what the cause keeps, what is sampled at pins, the OTP words and the
model's own fields. -/
def State.resetWith (s : State) (cause : Nat) : State :=
  let keep := cause != rcPor && cause != rcSup
  { State.reset with
    sys := { Sys.reset with rstCause := s.rstCauses cause, pshad := keep && s.sys.pshad
                            ploc := if keep then s.sys.ploc else 0 }
    pow := { Power.reset with aon := if keep then s.pow.aon else 0, below := s.pow.below || cause == rcSup, vdrvOk := s.pow.vdrvOk, vioOk := s.pow.vioOk
                              lfxOk := s.pow.lfxOk, tapHold := cause != rcPor && s.pow.tapHold }
    slu := s.slu.afterReset keep
    line := { Line.reset with nodrv := s.line.nodrv, plc := s.line.plc.afterReset keep, pair := s.line.pair.afterReset keep }
    tim := { Timers.reset with tim := tabMap s.tim.tim fun x => { Timer.reset with pin := x.pin } }
    otp := { Otp.reset with words := s.otp.words, shift := s.otp.shift }
    out := s.out
    free := s.free
    pending := s.pending }

/-! ### Start-up (R792, R794) -/

/-- The OTP as ROM initialisation reads it; `bad` the words that fail their check. -/
def Otp.read (o : Otp) (bad : BitVec 16) : Otp :=
  let w := o.words[0]
  let b0 := bitOf bad 0
  { o with addr := if b0 then 0 else BitVec.ofNat 6 (bitsOf w 0 6), waive := if b0 then 0 else BitVec.ofNat 2 (bitsOf w 6 2)
           authReq := b0 || bitOf w 8, dbgOff := b0 || bitOf w 9, romOnly := b0 || bitOf w 10
           key := #v[o.words[6], o.words[7], o.words[8], o.words[9]], keyBad := bitsOf bad 6 4 != 0 }

/-- HPI_READY: ROM initialisation is done and the core runs; arrivals that waited take place. SAFE_IN, ignored in RESET, is active
again: asserted, it latches (R222, Table 6-6; DEDUCED, log 64); else a release that waited for a block takes effect (R232). SYS_STAT
shows Dormant until here, so a kept SAFE is then a change of LIFE, with LIFEPREV Dormant and source 8 (DEDUCED, log 65). -/
def State.startUp (s : State) (bad : BitVec 16) : State :=
  if s.pow.state != .reset || s.pow.tapHold then s
  else
    let o := s.otp.read bad
    let s1 := { s with otp := o, mem := [], pow := { s.pow with state := .run, ready := true, pllLock := true }
                       line := { s.line with addr := o.addr }, slu := { s.slu with waive := o.waive } }
    let s2 := (if bad = 0 then s1 else s1.setOtpErr).flushDeferred
    (if s.slu.safeIn then s2.safeLatch causePin else s2.tryRelease).settle

/-! ### Supply (R771, R772, R415, R416) -/

/-- The warning releases the last-gasp frame, or notes that there is none. -/
def State.releaseGasp (s : State) : State :=
  if !bitOf s.pow.supCtl 0 then s
  else
    match (if (s.tq 0 3).lgasp && (s.tq 0 3).en then s.queueHead 0 3 else none) with
    | some g => s.updLine fun l => { l with gasp := if l.gasp.contains g then l.gasp else l.gasp ++ [g] }
    | none => s.updPow fun p => { p with lgNone := true }

/-- What a warning does besides BELOW. -/
def State.warn (s : State) : State :=
  if s.pow.state = .reset then s.arrive 2 else (s.arrive 2).releaseGasp

/-- VSUP below the warning threshold. -/
def State.supplyWarning (s : State) : State :=
  if s.pow.below then s
  else
    let s1 := s.updPow fun p => { p with below := true }
    match s.pow.state with
    | .listen => s1.updPow fun p => { p with latWarn := some true }
    | .sleep => s1.updPow fun p => { p with latWarn := some true }
    | _ => s1.warn

/-- VSUP above it again. -/
def State.supplyGood (s : State) : State :=
  if !s.pow.below then s
  else
    let s1 := s.updPow fun p => { p with below := false }
    match s.pow.state with
    | .listen => s1.updPow fun p => { p with latWarn := some false }
    | .sleep => s1.updPow fun p => { p with latWarn := some false }
    | .reset => s1
    | .run => s1.arrive 3

/-- NODRV as VDRV gives it; source 28 at each change (Table 15-1). -/
def State.setNodrv (s : State) (b : Bool) : State :=
  let s1 := (s.updLine fun l => { l with nodrv := b }).updPow fun p => { p with vdrvOk := !b }
  if s.line.nodrv == b || s.pow.state == .reset then s1 else s1.arrive 28

/-- NODRV sets: a frame and a tone being sent are cut (R51, R85). -/
def State.loseVdrv (s : State) : State :=
  ((s.setNodrv true).updSlu fun u => { u with burst := putBit u.burst 0 false }).attemptEnd .plc .cut

/-- NODRV clears. -/
def State.gainVdrv (s : State) : State := s.setNodrv false

/-! ### Pins -/

/-- The core clock is stopped by LISTEN, SLEEP or the PLL: the wake latches watch the pins (R562, R788). -/
def State.latching (s : State) : Bool := !s.coreRuns && s.pow.state != .reset

/-- An active edge caught by latch `k` (0 WAKE, 1 SAFE_IN, 2 + n TPn). -/
def State.catchEdge (s : State) (k : Nat) : State :=
  s.updIrq fun q => if bitOf q.latch k then { q with wextra := putBit q.wextra k true } else { q with latch := putBit q.latch k true }

/-- SAFE_IN asserted (R220, R222, R805): with PINTX it also emits the burst, from LISTEN after the wake, in SLEEP none (Table 6-6);
while the PLL is out of lock the drivers are off and none goes out either (R788; DEDUCED, log 44). -/
def State.safeInFalls (s : State) : State :=
  if s.pow.state = .reset then s.updSlu fun u => { u with safeIn := true }
  else
    let again := s.latching && bitOf s.irq.latch 1
    let s1 := (s.updSlu fun u => { u with safeIn := true }).endRequest false
    let s2 := if s.latching then s1.catchEdge 1 else s1
    if again then s2
    else
      let s3 := s2.safeLatch causePin
      if !bitOf s.slu.ctl 1 then s3
      else if s.coreRuns then s3.emitBurst.settle
      else if s.pow.state == .listen then s3.updSlu fun u => { u with burstPend := true }
      else s3

/-- An edge at WAKE (R562). -/
def State.wakeEdge (s : State) (rising : Bool) : State :=
  if s.pow.state = .reset || !edgeSel (bitsOf s.pow.slpWake 0 2) rising then s
  else if s.latching then s.catchEdge 0
  else (s.endRequest false).arrive 15

/-- An edge at TPn (R562, R584). -/
def State.pinEdge (s : State) (n : Fin 8) (rising : Bool) : State :=
  if s.pow.state = .reset then s.updTim n fun x => { x with pin := rising }
  else if s.latching then
    let s1 := s.updTim n fun x => { x with pin := rising }
    if edgeSel s.tim.tim[n].tpEdge rising then s1.catchEdge (2 + n) else s1
  else s.tpEdge n rising

/-! ### The flow of time -/

/-- Periodic arrivals of the calendar in the seconds that followed `old` (R606): one for each boundary passed; more than 20 at
once differ in nothing, since a source counts 15. -/
def State.calPeriods (s : State) (old secs : Nat) : State :=
  let d := match bitsOf s.cal.ctl 0 2 with | 1 => 1 | 2 => 60 | 3 => 3600 | _ => 0
  let k := if d = 0 then 0
    else if old + secs < 4294967296 then (old + secs) / d - old / d
    else 4294967295 / d - old / d + (old + secs - 4294967296) / d + 1
  (List.range (min k 20)).foldl (fun s _ => s.arrive 19) s

/-- What a slew adds to the tide counter in `n` core cycles, in 10^-8 tick: never more than it still owes (R201). -/
def Tide.slewAdds (t : Tide) (n : Nat) : Int :=
  let e := min t.slewLeft.natAbs (n * (100 * t.slewRate))
  if t.slewLeft < 0 then -(e : Int) else e

/-- A slew after it has added `e`: it ends when nothing is owed. -/
def Tide.slewed (t : Tide) (e : Int) : Tide :=
  if !t.slewing then t else if t.slewLeft = e then t.endSlew else { t with slewLeft := t.slewLeft - e }

/-- `n` core cycles pass on the tide counter (R175, R176, R201): the whole ticks it advanced by, and the state. -/
def State.tideAdvance (s : State) (n : Nat) : Nat × State :=
  let extra := if s.tide.slewing then s.tide.slewAdds n else 0
  let total : Int := (s.tide.frac : Int) + (n : Int) * (100000000 + s.tide.rate.toInt) + extra
  let ticks := (total / 100000000).toNat
  let t := s.tide.tick.toNat + ticks
  let secs := t / ticksPerSec
  let old := s.tide.sec
  let s1 := s.updTide fun x =>
    { x.slewed extra with tick := BitVec.ofNat 28 (t % ticksPerSec), sec := BitVec.ofNat 32 (old.toNat + secs), frac := (total % 100000000).toNat }
  if secs = 0 then (ticks, s1)
  else
    let s2 := s1.applyPeriod
    (ticks, (s2.calFlags old (decide (4294967296 ≤ old.toNat + secs))).calPeriods old.toNat secs)

/-! ### Power states (R776-R785) -/

/-- A port neither sends, receives nor signals. -/
def PortState.quiet (x : PortState) : Bool := !(x.use == .sending || x.use == .receiving || x.use == .signalling)

/-- The conditions of R776 and R649. -/
def State.mayRest (s : State) : Bool :=
  s.coreRuns && (s.host.toList.all fun y => y.tx.isNone) && (s.eng.thr.toList.all fun th => th.state != .running) && s.line.plc.quiet && s.line.pair.quiet && s.slu.burst == 0 &&
    !s.tide.sending

/-- A request (R776): a later one replaces it; 0 and 3 do nothing. -/
def State.requestRest (s : State) (req : Nat) : State :=
  match req with
  | 1 => s.updPow fun p => { p with req := some .listen }
  | 2 => s.updPow fun p => { p with req := some .sleep }
  | _ => s

/-- The lead of Table 23-4 before an armed instant, 30 us (R284), or before the WAKE of a waiting thread, 20 us (R780, R781), has begun
(DEDUCED, log 83). -/
def State.leading (s : State) : Bool :=
  (s.sched.ent.toList.any fun e => (e.state == .armed || e.state == .committed) && s.ahead e.instant ≤ 6000) ||
    s.eng.thr.toList.any fun th => th.state == .waiting && th.wakeArmed && (th.wake - s.eng.tnow).toNat ≤ 4000

/-- A pending request takes effect (R778, R590), or ends because LISTEN would end at once (R777, R800). -/
def State.enterRest (s : State) : State :=
  match s.pow.req with
  | none => s
  | some st =>
    if !s.mayRest then s
    else if st == .listen && s.leading then s.endRequest true
    else
      let s1 := s.fixGates.updPow fun p => { p with state := st, req := none, pllLock := st == .listen, latWarn := none }
      (s1.updIrq fun q => { q with wextra := 0, latch := 0 }).settle

/-- Every latched edge arrives (R562). -/
def State.flushLatches (s : State) : State :=
  let l := s.irq.latch
  let s1 := s.updIrq fun q => { q with latch := 0 }
  let s2 := if bitOf l 0 then s1.arrive 15 else s1
  (List.finRange 8).foldl (fun s (n : Fin 8) =>
    if bitOf l (2 + n.val) && s.srcOwner (40 + n.val) == s.timOwner n.val then s.arrive (40 + n.val) else s) s2

/-- A warning, or the end of one, recorded while the controller rested (R772). -/
def State.flushWarning (s : State) : State :=
  let s1 := s.updPow fun p => { p with latWarn := none }
  match s.pow.latWarn with
  | some true => if s.pow.below then s1.warn else s1
  | some false => if s.pow.below then s1 else s1.arrive 3
  | none => s1

/-- The wake compares that TNOW has reached (R447, R780). -/
def State.flushWakes (s : State) : State :=
  (List.finRange 8).foldl (fun s t => if s.eng.thr[t].wake ≤ s.eng.tnow then s.wakeReached t else s) s

/-- Buckets full (R404). -/
def State.fillBuckets (s : State) : State := { s with pans := tabMap s.pans fun p => { p with token := BitVec.ofNat 16 p.burst } }

/-- Enabled ports wait for ten recessive bits (R785). -/
def State.portsWait (s : State) : State :=
  let w := fun (on : Bool) (x : PortState) => if on then { x with use := .waitTen } else x
  s.updLine fun l => { l with plc := w (s.portEn .plc) l.plc, pair := w (s.portEn .pair) l.pair }

/-- The make-ups of a wake (R784), with the core running again. -/
def State.makeUp (s : State) (iv : Interval) (wait : Bool) : State :=
  let s1 := (s.updEng fun e => { e with tnow := e.tnow + BitVec.ofNat 64 iv.cycles }).updPow fun p => { p with aon := p.aon + iv.cycles }
  let s2 := s1.flushDeferred
  let (ticks, s3) := s2.tideAdvance iv.cycles
  let s4 := (List.finRange 8).foldl (fun s n => s.timMakeup n iv ticks) s3
  let s5 := s4.fillBuckets.startCycle
  let s6 := s5.flushLatches.flushWarning
  let s7 := if wait then s6.portsWait else s6
  s7.schMoved.flushWakes.settle

/-- The burst that SAFE_IN asked for in LISTEN goes out (Table 6-6). -/
def State.flushBurst (s : State) : State :=
  if s.slu.burstPend then (s.updSlu fun u => { u with burstPend := false }).emitBurst.settle else s

/-- A wake (R779, R781, R785). -/
def State.wake (s : State) (cause : BitVec 7) (iv : Interval) : State :=
  let go := fun (last : BitVec 2) (wait : Bool) =>
    (s.updPow fun p => { p with state := .run, pllLock := true, wcause := cause, last := last }).makeUp iv wait
  match s.pow.state with
  | .listen => (go 1 false).flushBurst
  | .sleep => go 2 true
  | _ => s

/-! ### Clocks (R690, R787, R788) -/

/-- The frame on the wire of a port is cut. -/
def State.cutFrame (s : State) (port : LinePort) : State :=
  match (s.port port).tx with
  | some a => ((s.dropTxOn port).putOff port a false).lineIdle port
  | none => s

/-- The PLL loses lock in RUN. Source 1 arrives when it locks again. -/
def State.losePll (s : State) : State :=
  if !s.coreRuns then s
  else
    let s1 := (s.cutFrame .plc).cutFrame .pair
    let s2 := (s1.updSys fun y => { y with pllErr := true }).portsWait
    s2.fixGates.updPow fun p => { p with pllLock := false }

/-- The PLL locks again. -/
def State.relock (s : State) (iv : Interval) : State :=
  if s.pow.state == .run && !s.pow.pllLock then ((s.updPow fun p => { p with pllLock := true }).makeUp iv true).arrive 1 else s

/-- The 32.768 kHz crystal starts or stops. -/
def State.crystal (s : State) (on : Bool) : State :=
  let sel := bitOf s.pow.clkCtl 0
  let s1 := s.updPow fun p => { p with lfxOk := on, lfAct := on && sel && p.state != .reset }
  if !on && sel then s1.setLfErr else s1

/-- CLK_CTL written. -/
def State.clkCtlWrite (s : State) (v : Word) : State :=
  let sel := bitOf v 0
  let s1 := s.updPow fun p => { p with clkCtl := merge 3 p.clkCtl v, lfAct := sel && p.lfxOk }
  if sel && !s.pow.lfxOk then s1.setLfErr else s1

/-- The internal RC is measured. -/
def State.calibrate (s : State) (ppm : Int) : State :=
  if bitOf s.pow.clkCtl 1 && s.coreRuns then s.updPow fun p => { p with rcCorr := ppm } else s

/-! ### The watchdog (R461, R462) -/

/-- The watchdog counts: enabled, the core runs, no thread of P0 in DEBUG. -/
def State.watching (s : State) : Bool :=
  s.eng.wdEn && s.coreRuns && !((s.panThreads 0).any fun t => s.eng.thr[idx 8 t].state == .debug)

/-- One period in core cycles: WDT x 16 ms. -/
def Engine.wdPeriod (e : Engine) : Nat := e.wdt.toNat * 3200000

/-- KICK. -/
def State.kick (s : State) : State := if s.eng.wdEn then s.updEng fun e => { e with wdLeft := e.wdPeriod } else s

/-! ### The test access port and the OTP (R793, R795, R861, R862, R869) -/

/-- What a test access port instruction leaves, `t`: the port works while VIO lies in range (R861). -/
def State.viaTap (s t : State) : State := if s.pow.vioOk then t else s

/-- What the IDCODE instruction returns (R861). -/
def idcode : Word := 0x27240C3B

/-- EXTEST, CLAMP or HIGHZ holds the controller in reset with cause PIN; any other instruction releases it. -/
def State.tapHold (s : State) (on : Bool) : State :=
  if on then (s.resetWith rcPin).updPow fun p => { p with tapHold := true }
  else s.updPow fun p => { p with tapHold := false }

/-- The words as OTPRD returns them: KEY reads zero. -/
def Otp.visible (o : Otp) : Tab Word 16 := tabMapIdx o.words fun k w => if 6 ≤ k ∧ k ≤ 9 then 0 else w

/-- OTPWR: each nonzero word that has not been programmed. -/
def Otp.program (o : Otp) (ws : Tab Word 16) : Otp :=
  { o with words := tabMapIdx o.words fun k w => if w = 0 then ws[idx 16 k] else w }

/-! ### FAULT_N (R858) -/

/-- FAULT_N is pulled low. -/
def State.faultN (s : State) : Bool :=
  s.pow.state == .reset || s.sys.cfgPar || s.sys.pllErr || s.sys.lfErr || s.sys.otpErr

end Sys2Proof.Machine
end

