-- ==== Sys2Proof/Machine/Regs.lean ====
section
/-! DEFINITION. The register map: what stands at each offset of the system block and of a pan's window, and what each register
reads as (chapters 19 to 22). -/

namespace Sys2Proof

open Machine

namespace Machine

/-- The registers, by what they hold; resources by their global numbers. -/
inductive Rg where
  /-- nothing for the accessor: reads zero, ignores writes (R663) -/
  | reserved
  -- Tables 20-2, 20-4, 20-6
  | sysId | sysCtl | sysStat | sysLock | sysFault | sysRstcause | sysPend | sysPanrst | sysSwrst
  /-- SYS_KEY (scope 0), PAN_KEY of Pn (scope 1 + n) -/
  | key (scope : Fin 5)
  | supCtl | supThld | supStat | clkCtl | clkStat | slpCtl | slpStat | slpWake
  | sluCtl | sluStat | sluLen | sluKeep | sluPermit
  -- Table 20-8
  | lineCtl | lineAddr | lineEc (port : LinePort) | lineState | lineDly (backup : Bool) | lineRollslot | lineBridge
  | plcCtl | plcChan | plcPolicy | plcStat | pairCtl | pairBt | pairDbt | plcLevel | plcMargin | pairStat
  -- Tables 20-10, 20-12
  | tideCtl | tideStat0 | tideStat1 | tideTick | tideSec | tideOffs | tideRate | tidePeriod | tideKeeper | tideAdoptlim
  | calDate | calTime | calStat | calCtl
  | alloc (k : Fin 48)
  -- Tables 21-2, 21-4: `w` is the word within the timer
  | tim (n : Fin 8) (w : Fin 8)
  | capq (n : Fin 8) (hi : Bool)
  | engCtl | engStat | tctl (t : Fin 8) | tctl1 (t : Fin 8) | tpc (t : Fin 8)
  | lckOwn (w : Fin 4)
  -- Tables 21-6, 21-8, 21-9
  | icCtl | icStat | icThld (h : HostPort) | icClaim (h : HostPort) | icDone (h : HostPort) | icDoorbell | icHold (g : Fin 8)
  | icPendSet (w : Fin 4) | icPendClr (w : Fin 4) | icEnSet (w : Fin 4) | icEnClr (w : Fin 4)
  | icPrio (w : Fin 16) | icCnt (w : Fin 32) | icTgt (w : Fin 64)
  | dbgBp (k : Fin 4) | dbgStat
  -- Tables 22-2, 22-5
  | panId (n : Fin 4) | panCtl (n : Fin 4) | panStat (n : Fin 4) | panGen (n : Fin 4) | panPend (n : Fin 4) | panBudget (n : Fin 4)
  | panWindow (n : Fin 4) | panFault (n : Fin 4) | panToken (n : Fin 4) | panOvld (n : Fin 4) | panSchev (n : Fin 4)
  | panRstlog (n : Fin 4) | panSlu (n : Fin 4)
  | winIcStat (n : Fin 4) | icSel (n : Fin 4) | icSrc (n : Fin 4) | winHold (n : Fin 4)
  | winPendSet (n : Fin 4) | winPendClr (n : Fin 4) | winEnSet (n : Fin 4) | winEnClr (n : Fin 4)
  | winLckOwn (n : Fin 4) (w : Fin 4)
  -- Table 22-7
  | tqCtl (n q : Fin 4) | tqRing (n q : Fin 4) | tqSubmit (n q : Fin 4) | tqSdata (n q : Fin 4) | tqCommit (n q : Fin 4)
  | tqCpl (n q : Fin 4) | tqStat (n q : Fin 4) | tqCnt (n q : Fin 4)
  | rxfCtl (n q : Fin 4) | rxfRing (n q : Fin 4) | rxfFetch (n q : Fin 4) | rxfStat (n q : Fin 4)
  -- R755, R756
  | schTick (e : Fin 32) | schSec (e : Fin 32) | schCtl (e : Fin 32) | schOpnd (e : Fin 32) | schStat (e : Fin 32)
  | schLate (e : Fin 32)
  /-- word `w` of FLTk: 0 CTL, 1 A, 2 B, 3 D -/
  | flt (k : Fin 128) (w : Fin 4)
  | fltCnt (k : Fin 128)
  deriving DecidableEq, Repr

/-! ### The map (R685, R712, R736) -/

/-- The single registers of the system block. -/
def sysFixed (o : Nat) : Rg :=
  match o with
  | 0x000 => .sysId
  | 0x004 => .sysCtl
  | 0x008 => .sysStat
  | 0x00C => .sysLock
  | 0x010 => .key 0
  | 0x014 => .sysFault
  | 0x018 => .sysRstcause
  | 0x01C => .sysPend
  | 0x020 => .sysPanrst
  | 0x024 => .sysSwrst
  | 0x040 => .supCtl
  | 0x044 => .supThld
  | 0x048 => .supStat
  | 0x04C => .clkCtl
  | 0x050 => .clkStat
  | 0x054 => .slpCtl
  | 0x058 => .slpStat
  | 0x05C => .slpWake
  | 0x060 => .sluCtl
  | 0x064 => .sluStat
  | 0x068 => .sluLen
  | 0x06C => .sluKeep
  | 0x070 => .sluPermit
  | 0x080 => .lineCtl
  | 0x084 => .lineAddr
  | 0x088 => .lineEc .plc
  | 0x08C => .lineEc .pair
  | 0x090 => .lineState
  | 0x094 => .lineDly false
  | 0x098 => .lineDly true
  | 0x09C => .lineRollslot
  | 0x0A0 => .lineBridge
  | 0x0A4 => .plcCtl
  | 0x0A8 => .plcChan
  | 0x0AC => .plcPolicy
  | 0x0B0 => .plcStat
  | 0x0B4 => .pairCtl
  | 0x0B8 => .pairBt
  | 0x0BC => .pairDbt
  | 0x0C0 => .tideCtl
  | 0x0C4 => .tideStat0
  | 0x0C8 => .tideStat1
  | 0x0CC => .tideTick
  | 0x0D0 => .tideSec
  | 0x0D4 => .tideOffs
  | 0x0D8 => .tideRate
  | 0x0DC => .tidePeriod
  | 0x0E0 => .tideKeeper
  | 0x0E4 => .tideAdoptlim
  | 0x100 => .calDate
  | 0x104 => .calTime
  | 0x108 => .calStat
  | 0x10C => .calCtl
  | 0x300 => .engCtl
  | 0x304 => .engStat
  | 0x400 => .plcLevel
  | 0x404 => .plcMargin
  | 0x408 => .pairStat
  | 0x800 => .icCtl
  | 0x804 => .icStat
  | 0x808 => .icThld .a
  | 0x80C => .icThld .b
  | 0x810 => .icClaim .a
  | 0x814 => .icClaim .b
  | 0x818 => .icDone .a
  | 0x81C => .icDone .b
  | 0x820 => .icDoorbell
  | 0xC10 => .dbgStat
  | _ => .reserved

/-- The register of the system block at offset `o`, a multiple of 4; what another pan owns holds nothing (R299, R711). -/
def State.sysReg (s : State) (o : Nat) : Rg :=
  let k := fun (base size : Nat) => (o - base) / size
  if 0x140 ≤ o ∧ o < 0x200 then .alloc (idx 48 (k 0x140 4))
  else if 0x200 ≤ o ∧ o < 0x300 then
    if s.timOwner (k 0x200 32) = 0 then .tim (idx 8 (k 0x200 32)) (idx 8 (o / 4)) else .reserved
  else if 0x310 ≤ o ∧ o < 0x350 then
    let t := idx 8 (k 0x310 8)
    if s.thrOwner t = 0 then (if o % 8 = 0 then .tctl t else .tctl1 t) else .reserved
  else if 0x350 ≤ o ∧ o < 0x370 then
    if s.thrOwner (k 0x350 4) = 0 then .tpc (idx 8 (k 0x350 4)) else .reserved
  else if 0x370 ≤ o ∧ o < 0x380 then .lckOwn (idx 4 (k 0x370 4))
  else if 0x420 ≤ o ∧ o < 0x460 then
    if s.timOwner (k 0x420 8) = 0 then .capq (idx 8 (k 0x420 8)) (o % 8 == 4) else .reserved
  else if 0x840 ≤ o ∧ o < 0x860 then
    if s.hgOwner (k 0x840 4) = 0 then .icHold (idx 8 (k 0x840 4)) else .reserved
  else if 0x880 ≤ o ∧ o < 0x890 then .icPendSet (idx 4 (k 0x880 4))
  else if 0x890 ≤ o ∧ o < 0x8A0 then .icPendClr (idx 4 (k 0x890 4))
  else if 0x8A0 ≤ o ∧ o < 0x8B0 then .icEnSet (idx 4 (k 0x8A0 4))
  else if 0x8B0 ≤ o ∧ o < 0x8C0 then .icEnClr (idx 4 (k 0x8B0 4))
  else if 0x900 ≤ o ∧ o < 0x940 then .icPrio (idx 16 (k 0x900 4))
  else if 0x980 ≤ o ∧ o < 0xA00 then .icCnt (idx 32 (k 0x980 4))
  else if 0xA00 ≤ o ∧ o < 0xB00 then .icTgt (idx 64 (k 0xA00 4))
  else if 0xC00 ≤ o ∧ o < 0xC10 then .dbgBp (idx 4 (k 0xC00 4))
  else sysFixed o

/-- The host target's port of pan `n`. -/
abbrev State.panHost (s : State) (n : Fin 4) : HostPort := s.panPort n

/-- The single registers of the window of Pn. -/
def State.winFixed (s : State) (n : Fin 4) (o : Nat) : Rg :=
  match o with
  | 0x000 => .panId n
  | 0x004 => .panCtl n
  | 0x008 => .panStat n
  | 0x00C => .panGen n
  | 0x010 => .key ⟨n.val + 1, by omega⟩
  | 0x014 => .panPend n
  | 0x018 => .panBudget n
  | 0x01C => .panWindow n
  | 0x020 => .panFault n
  | 0x024 => .panToken n
  | 0x028 => .panOvld n
  | 0x02C => .panSchev n
  | 0x030 => .panRstlog n
  | 0x034 => .panSlu n
  | 0x038 => .tideStat0
  | 0x03C => .tideTick
  | 0x040 => .tideSec
  | 0x044 => .tideOffs
  | 0x048 => .tideRate
  | 0x04C => .tidePeriod
  | 0x050 => .tideKeeper
  | 0x054 => .calDate
  | 0x058 => .calTime
  | 0x05C => .calStat
  | 0x060 => .lineBridge
  | 0x064 => .winIcStat n
  | 0x068 => .icThld (s.panHost n)
  | 0x06C => .icClaim (s.panHost n)
  | 0x070 => .icDone (s.panHost n)
  | 0x074 => .icSel n
  | 0x078 => .icSrc n
  | 0x07C => .winHold n
  | 0x0F0 => .winPendSet n
  | 0x0F4 => .winPendClr n
  | 0x0F8 => .winEnSet n
  | 0x0FC => .winEnClr n
  | _ => .reserved

/-- The global number of a pan-local one, as a register of that resource; beyond the pan's own there is nothing (R736). -/
def ofLocal (gs : List Nat) (k : Nat) (f : Nat → Rg) : Rg :=
  match gs[k]? with
  | some g => f g
  | none => .reserved

/-- The words of a transmit queue's registers. -/
def tqReg (n q : Fin 4) (w : Nat) : Rg :=
  match w with
  | 0 => .tqCtl n q
  | 1 => .tqRing n q
  | 2 => .tqSubmit n q
  | 3 => .tqSdata n q
  | 4 => .tqCommit n q
  | 5 => .tqCpl n q
  | 6 => .tqStat n q
  | _ => .tqCnt n q

/-- The words of a receive FIFO's registers. -/
def rxfReg (n q : Fin 4) (w : Nat) : Rg :=
  match w with
  | 0 => .rxfCtl n q
  | 1 => .rxfRing n q
  | 2 => .rxfFetch n q
  | _ => .rxfStat n q

/-- The words of a schedule entry in the schedule table. -/
def schReg (e : Fin 32) (w : Nat) : Rg :=
  match w with
  | 0 => .schTick e
  | 1 => .schSec e
  | 2 => .schCtl e
  | _ => .schOpnd e

/-- The register of the window of Pn at offset `o`, a multiple of 4 (Table 22-1). -/
def State.winReg (s : State) (n : Fin 4) (o : Nat) : Rg :=
  let k := fun (base size : Nat) => (o - base) / size
  if 0x080 ≤ o ∧ o < 0x0C0 then
    ofLocal (s.panThreads n) (k 0x080 8) fun t => if o % 8 = 0 then .tctl (idx 8 t) else .tctl1 (idx 8 t)
  else if 0x0C0 ≤ o ∧ o < 0x0E0 then ofLocal (s.panThreads n) (k 0x0C0 4) fun t => .tpc (idx 8 t)
  else if 0x0E0 ≤ o ∧ o < 0x0F0 then .winLckOwn n (idx 4 (k 0x0E0 4))
  else if 0x100 ≤ o ∧ o < 0x180 then tqReg n (idx 4 (k 0x100 32)) (o % 32 / 4)
  else if 0x180 ≤ o ∧ o < 0x1C0 then rxfReg n (idx 4 (k 0x180 16)) (o % 16 / 4)
  else if 0x1C0 ≤ o ∧ o < 0x200 then ofLocal (s.panTimers n) (k 0x1C0 8) fun t => .capq (idx 8 t) (o % 8 == 4)
  else if 0x200 ≤ o ∧ o < 0x280 then ofLocal (s.panEntries n) (k 0x200 4) fun e => .schStat (idx 32 e)
  else if 0x280 ≤ o ∧ o < 0x300 then ofLocal (s.panEntries n) (k 0x280 4) fun e => .schLate (idx 32 e)
  else if 0x300 ≤ o ∧ o < 0x400 then ofLocal (s.panTimers n) (k 0x300 32) fun t => .tim (idx 8 t) (idx 8 (o / 4))
  else if 0x400 ≤ o ∧ o < 0x600 then ofLocal (s.panFilters n) (k 0x400 4) fun f => .fltCnt (idx 128 f)
  else if 0x600 ≤ o ∧ o < 0x800 then ofLocal (s.panEntries n) (k 0x600 16) fun e => schReg (idx 32 e) (o % 16 / 4)
  else if 0x800 ≤ o ∧ o < 0x1000 then ofLocal (s.panFilters n) (k 0x800 16) fun f => .flt (idx 128 f) (idx 4 (o / 4))
  else s.winFixed n o

/-- The window of Pn answers nothing: the PANLOCK scrub runs, or before PANLOCK a window of P1-P3 (R296, R298). -/
def State.winClosed (s : State) (n : Fin 4) : Bool := n != 0 && (s.sys.scrub || !s.sys.panLock)

/-- What a window still reads while its pan resets (R320). -/
def resetReads (n : Fin 4) (r : Rg) : Bool := r == .panId n || r == .panStat n || r == .panGen n || r == .panRstlog n

/-- The registers a reset pan's window still serves as far as their own rules go: the streams of R320. -/
def resetStreams (r : Rg) : Bool :=
  match r with
  | .tqSubmit _ _ => true
  | .tqSdata _ _ => true
  | .tqCommit _ _ => true
  | _ => false

/-- The register an access reaches by a way and an offset. -/
def State.regAt (s : State) (via : Via) (o : Nat) : Rg :=
  match via with
  | .sys => s.sysReg o
  | .win n => if s.winClosed n then .reserved else s.winReg n o

end Machine

/-- The pan whose rights a way of access takes. -/
def Via.pan : Via → Fin 4
  | .sys => 0
  | .win n => n

namespace Machine

/-! ### Values (pure reads) -/

/-- An armed key. -/
def State.keyArmed (s : State) (scope : Fin 5) (p : Party) : Bool := bitOf s.sys.keys[scope] p.ix

/-- SYS_PEND (Tables 19-1, 20-3). -/
def State.sysPend (s : State) : Word :=
  flag 0 (s.line.plcCtlSh.isSome || s.line.rollSh.isSome) |||
    flag 1 (s.line.pairBtSh.isSome || s.line.pairDbtSh.isSome || s.line.rollShPair.isSome) |||
    flag 2 s.line.policySh.isSome ||| flag 3 s.line.planSh.isSome ||| flag 4 (s.tide.rateSh.isSome || s.tide.periodSh.isSome) |||
    flag 5 (s.tide.stepPend.isSome && s.tide.stepSoft) |||
    (List.finRange 8).foldl (fun w (n : Fin 8) => w ||| flag (8 + n) (s.timOwner n == 0 && s.tim.tim[n].pendingShadow)) 0

def confCode : Confinement → Nat
  | .active => 0
  | .passive => 1
  | .quarantine => 2
  | .held => 3

/-- LINE_STATE.CFGERR: also while the pair is the string port and ARATE = 1 (R23). -/
def State.lineCfgErr (s : State) : Bool := s.line.cfgErr || (bitOf s.tide.ctl 0 && bitOf s.line.plcCtl 1)

def State.lineStateWord (s : State) : Word :=
  let a := s.line.plc
  let b := s.line.pair
  field 0 (confCode a.conf) ||| field 2 (confCode b.conf) ||| flag 4 a.guard ||| flag 5 b.guard ||| flag 6 s.line.dupAddr |||
    flag 7 s.line.c0fmt ||| flag 8 s.lineCfgErr ||| field 16 a.qcnt ||| field 24 b.qcnt

def Delay.word (d : Delay) : Word := field 0 d.val.toNat ||| flag 30 d.range ||| flag 31 d.valid

def lockCode : Lock → Nat
  | .free => 0
  | .acquire => 1
  | .locked => 2
  | .holdover => 3

/-- TIDE_STAT word 0 but for CFGERR (Table 20-11). -/
def Tide.status (t : Tide) : Word :=
  field 0 (lockCode t.lock) ||| flag 2 t.fest ||| flag 3 t.defer ||| flag 4 t.slewing ||| flag 5 t.rclamp |||
    field 8 t.keeper.toNat ||| flag 16 t.backup ||| flag 17 t.auth ||| flag 18 t.hold ||| field 20 t.periodRx.toNat

/-- TIDE_STAT.CFGERR as a way of access shows it (R744). -/
def State.tideErr (s : State) : Via → Bool
  | .sys => s.tide.cfgErr
  | .win n => s.pans[n].tideCfgErr

def State.sluStatWord (s : State) : Word :=
  let u := s.slu
  flag 0 u.safe ||| field 1 u.cause.toNat ||| flag 6 u.relVal ||| flag 7 u.tideOk ||| field 8 u.relLat.toNat ||| flag 16 u.localOk |||
    flag 17 s.blocked ||| flag 18 u.fresh ||| flag 19 u.run ||| flag 20 u.txNone ||| flag 21 u.pairBad ||| flag 22 u.cfgErr |||
    field 24 u.waive.toNat

/-- The owner fields of word `k` that R294 fixes, and the bits of a PAN_ALLOC word that hold a field (Table 20-13). -/
def allocFixed : Nat → Word
  | 0 => 1
  | 29 => 0x00E4E400
  | _ => 0

def allocMask (k : Nat) : Word :=
  match k with
  | 0 => 0xFFFF007E
  | 1 => 0xFFFF007F
  | 2 => 0xFFFF007F
  | 3 => 0xFFFF007F
  | 14 => 0x000FFFFF
  | 28 => 0xFFFFFFFC
  | 29 => 0xFF0000FF
  | 35 => 0x0000FFFF
  | 36 => 0x8003FFFF
  | k => if k < 8 then 0x7F3F1F1F else if k < 36 then 0xFFFFFFFF else 0

/-- A timer's register words (Table 21-2). -/
def State.timWord (s : State) (p : Party) (via : Via) (n w : Fin 8) : Word :=
  match w.val with
  | 0 => s.timCtlRead n via
  | 1 => s.timStat n
  | 2 => (s.timPair n .cnt).setWidth 32
  | 3 => s.timHi p n .cnt
  | 4 => (s.timPair n .reload).setWidth 32
  | 5 => s.timHi p n .reload
  | 6 => (s.timPair n .mtch).setWidth 32
  | _ => s.timHi p n .mtch

/-- ENG_CTL and ENG_STAT (Table 21-5). -/
def State.engCtlWord (s : State) : Word :=
  flag 0 s.eng.go ||| field 1 s.eng.romPan.toNat ||| flag 5 s.eng.wdEn ||| flag 7 s.sys.dbgLock ||| field 8 s.eng.wdt.toNat

def thCode : ThState → Nat
  | .halted => 0
  | .running => 1
  | .waiting => 2
  | .debug => 3

def State.engStatWord (s : State) : Word :=
  let own := (List.finRange 8).filter fun (t : Fin 8) => s.thrOwner t == 0
  let act := own.foldl (fun w (t : Fin 8) => w ||| flag t (s.eng.thr[t].state != .halted)) (0 : Word)
  let dbg := own.foldl (fun w (t : Fin 8) => w ||| flag (8 + t) (s.eng.thr[t].state == .debug)) (0 : Word)
  act ||| dbg ||| field 16 (if s.eng.wdEn then (s.eng.wdLeft + 3199999) / 3200000 else 0) ||| flag 24 s.eng.started |||
    flag 25 s.eng.cfgErr

def Thread.ctlWord (th : Thread) : Word := field 0 th.prio.toNat ||| flag 3 th.strict ||| flag 4 th.qdyn ||| field 8 th.quota.toNat

/-- ENG_TCTLn word 1: PARENT is pan-local. -/
def State.tctl1Word (s : State) (t : Fin 8) : Word :=
  let th := s.eng.thr[t]
  field 0 (thCode th.state) ||| field 4 th.fcause.toNat ||| field 8 ((th.parent.map fun p => s.thrLocal p).getD 0) |||
    flag 11 th.parent.isSome ||| field 16 th.exitCode.toNat

/-- Four bits of LCK_OWN for a lock (R716). -/
def State.lckNibble (s : State) (l : Nat) : Nat := ((s.eng.locks[idx 32 l]).map fun t => 8 + s.thrLocal t).getD 0

/-- LCK_OWNw over the locks `ls` of a view. -/
def State.lckWord (s : State) (ls : Nat → Option Nat) (w : Fin 4) : Word :=
  (List.range 8).foldl (fun v j => v ||| field (4 * j) (((ls (8 * w + j)).map s.lckNibble).getD 0)) 0

/-- The level and depth of a host target's stack. -/
def State.hostRun (s : State) (h : Fin 2) : Nat × Nat := (s.irq.running h, (s.irq.stack[h]).length)

/-- WEXTRA bits of the TP pins of other pans hidden. -/
def State.wextraOf (s : State) : Nat :=
  ((List.finRange 8).foldl (fun (m : BitVec 10) (n : Fin 8) => if s.timOwner n = 0 then m else putBit m (2 + n) false) s.irq.wextra).toNat

/-- IC_STAT in the system block: the fields of the host target of P0's port (R555). -/
def State.icStatWord (s : State) : Word :=
  let h := (s.panPort 0).ix
  let r := s.hostRun h
  flag h.val s.irq.ord[h] ||| field (4 + 4 * h.val) r.1 ||| field (12 + 4 * h.val) r.2 ||| field 20 s.wextraOf

/-- The bits of a 128-bit array that word `w` shows P0. -/
def State.ownBits (s : State) (m : BitVec 128) (w : Fin 4) : Word :=
  (List.range 32).foldl (fun v b => v ||| flag b (s.panSrc 0 (32 * w + b) && bitOf m (32 * w + b))) 0

def State.prioWord (s : State) (w : Fin 16) : Word :=
  (List.range 8).foldl (fun v j =>
    let k := 8 * w.val + j
    v ||| field (4 * j) (if s.panSrc 0 k then s.irq.prio[idx 128 k].toNat else 0)) 0

def State.cntWord (s : State) (w : Fin 32) : Word :=
  (List.range 4).foldl (fun v j =>
    let k := 4 * w.val + j
    if s.panSrc 0 k then v ||| field (8 * j) s.irq.cnt[idx 128 k].toNat ||| flag (8 * j + 4) (bitOf s.irq.ovf k) else v) 0

def State.tgtWord (s : State) (w : Fin 64) : Word :=
  (List.range 2).foldl (fun v j =>
    let k := idx 128 (2 * w.val + j)
    if s.panSrc 0 k then
      v ||| field (16 * j) (s.maskOf k).toNat ||| field (16 * j + 12) s.irq.hg[k].toNat ||| flag (16 * j + 15) (bitOf s.irq.hgen k)
    else v) 0

/-- DBG_BPn, shown to the pan that holds it (R726). -/
def State.bpWord (s : State) (k : Fin 4) : Word :=
  match s.eng.bp[k] with
  | some b => if b.pan = 0 then field 0 b.pc.toNat ||| field 16 b.mask.toNat ||| flag 31 true else 0
  | none => 0

def State.bpFree (s : State) : Nat :=
  ((List.finRange 4).foldl (fun w (k : Fin 4) => w ||| flag k (s.eng.bp[k]).isNone) (0 : Word)).toNat

/-- PAN_PEND (R653). -/
def State.panPendWord (s : State) (n : Fin 4) : Word :=
  let fs := (s.panFilters n).zipIdx.filter fun f => s.flt[idx 128 f.1].pending
  let ts := (s.panTimers n).zipIdx
  flag 0 (!fs.isEmpty) ||| flag 1 s.pans[n].budgetSh.isSome ||| field 8 ((fs.head?.map Prod.snd).getD 0) |||
    ts.foldl (fun w t => w ||| flag (16 + t.2) s.tim.tim[idx 8 t.1].pendingShadow) 0

/-- IC_SEL of a party in the window of Pn (R747). -/
def State.sel (s : State) (p : Party) (n : Fin 4) : Word :=
  match p with
  | .host h => (s.irq.selHost[h.ix])[n]
  | .thread t => s.irq.selThr[t]

/-- The source a party's selector names, if it is the pan's (R748). -/
def State.selSrc (s : State) (p : Party) (n : Fin 4) : Option (Fin 128) :=
  let k := bitsOf (s.sel p n) 0 7
  if s.panSrc n k then some (idx 128 k) else none

/-- The group a party's selector names, if the pan has it. -/
def State.selGroup (s : State) (p : Party) (n : Fin 4) : Option (Fin 8) :=
  ((s.panGroups n)[bitsOf (s.sel p n) 8 3]?).map (idx 8)

/-- A mask in a pan's numbering: HA, HB, then its threads. -/
def State.maskLocal (s : State) (n : Fin 4) (m : BitVec 10) : Nat :=
  ((s.panThreads n).zipIdx.foldl (fun w t => w ||| flag (2 + t.2) (bitOf m (2 + t.1)))
    (flag 0 (bitOf m 0) ||| flag 1 (bitOf m 1))).toNat

/-- IC_SRC (Table 22-6). -/
def State.icSrcWord (s : State) (p : Party) (n : Fin 4) : Word :=
  match s.selSrc p n with
  | none => 0
  | some k =>
    let hg := s.irq.hg[k].toNat
    field 0 (s.maskLocal n (s.maskOf k)) ||| field 12 (if s.hgOwner hg = n then localNo s.hgOwner hg else 0) |||
      flag 15 (bitOf s.irq.hgen k) ||| field 16 s.irq.prio[k].toNat ||| field 20 s.irq.cnt[k].toNat ||| flag 24 (bitOf s.irq.ovf k) |||
      flag 25 (bitOf s.irq.pend k) ||| flag 26 (bitOf s.irq.en k) ||| flag 27 (s.irq.inService k)

/-- The selected source's bit of an array, in bit 0 (R749). -/
def State.selBit (s : State) (p : Party) (n : Fin 4) (m : BitVec 128) : Word :=
  match s.selSrc p n with
  | some k => flag 0 (bitOf m k)
  | none => 0

/-- IC_STAT in the window (R750). -/
def State.winIcStatWord (s : State) (n : Fin 4) : Word :=
  let h := (s.panPort n).ix
  let r := s.hostRun h
  flag 0 s.irq.ord[h] ||| field 4 r.1 ||| field 8 r.2 |||
    (s.panTimers n).zipIdx.foldl (fun w t => w ||| flag (22 + t.2) (bitOf s.irq.wextra (2 + t.1))) 0

/-- TQn_STAT and RXFn_STAT (Table 22-8). -/
def TxQueue.statWord (q : TxQueue) : Word :=
  field 0 q.last.toNat ||| flag 5 q.cfgErr ||| field 8 q.level ||| field 16 q.done.length ||| field 24 q.trunc.toNat
def RxFifo.statWord (q : RxFifo) : Word :=
  field 0 q.level ||| field 8 q.ovfCnt.toNat ||| flag 16 q.ovf ||| flag 17 q.cfgErr ||| field 24 q.part.toNat

/-- A capability that a register's view needs to be read (Table 22-4). -/
def readCap : Rg → Option Cap
  | .tideOffs => some .keeper
  | .tideRate => some .keeper
  | .tidePeriod => some .keeper
  | .tideKeeper => some .keeper
  | .lineBridge => some .bridge
  | _ => none

/-- The view of a pan without the right reads zero (R743). -/
def State.mayRead (s : State) (via : Via) (r : Rg) : Bool :=
  match via, readCap r with
  | .win n, some c => s.hasCap n c
  | _, _ => true

/-- SCHn_SEC: what the reader's last SCHn_TICK read latched, the field while it has read none (R257). -/
def State.schSecWord (s : State) (p : Party) (e : Fin 32) : Word := s.sched.latch[p.ix][e].getD s.sched.ent[e].sec

/-- What the registers of Tables 20-2 to 20-13 read, without any read effect. -/
def State.sysValue (s : State) (p : Party) (via : Via) (r : Rg) : Word :=
  match r with
  | .sysId => 0x00027240
  | .sysCtl => s.sys.ctl
  | .sysStat =>
    field 0 s.sys.life.code ||| field 4 s.sys.lifePrev.code ||| flag 8 s.sys.scrub ||| field 12 s.sys.allocErr.toNat
  | .sysLock => flag 0 s.sys.panLock ||| flag 1 s.sys.dbgLock
  | .key sc => flag 0 (s.keyArmed sc p)
  | .sysFault =>
    flag 0 s.sys.cfgPar ||| flag 1 s.sys.keyFail ||| flag 2 s.sys.pshad ||| flag 3 s.sys.pllErr ||| flag 4 s.sys.lfErr |||
      flag 5 s.sys.otpErr ||| field 8 s.sys.ploc.toNat
  | .sysRstcause => s.sys.rstCause.setWidth 32
  | .sysPend => s.sysPend
  | .supCtl => s.pow.supCtl
  | .supThld => s.pow.supThld
  | .supStat => flag 0 s.pow.below ||| flag 1 s.pow.lgNone ||| flag 2 s.pow.supCfgErr ||| flag 3 s.pow.vdrvOk
  | .clkCtl => s.pow.clkCtl
  | .clkStat => flag 0 s.pow.pllLock ||| flag 1 s.pow.lfxOk ||| flag 2 s.pow.lfAct
  | .slpStat => s.pow.wcause.setWidth 32 ||| field 8 s.pow.last.toNat
  | .slpWake => s.pow.slpWake
  | .sluCtl => s.slu.ctl
  | .sluStat => s.sluStatWord
  | .sluLen => s.slu.len
  | .sluKeep => s.slu.keep
  | .lineCtl => s.line.ctl
  | .lineAddr => s.line.addr.setWidth 32
  | .lineEc port => field 0 (s.port port).tecCnt ||| field 16 (s.port port).recCnt
  | .lineState => s.lineStateWord
  | .lineDly b => (s.delayFor b).word
  | .lineRollslot => s.line.rollSlot
  | .lineBridge => s.line.bridge
  | .plcCtl => s.line.plcCtl
  | .plcChan => s.line.plan.setWidth 32
  | .plcPolicy => s.line.policy
  | .plcStat =>
    flag 0 s.line.clamp ||| flag 1 s.line.better ||| flag 2 s.drlim ||| flag 3 s.line.nodrv ||| flag 4 s.line.searching |||
      field 12 s.line.rank.toNat
  | .pairCtl => s.line.pairCtl
  | .pairBt => s.line.pairBt
  | .pairDbt => s.line.pairDbt
  | .plcLevel => s.line.level.setWidth 32
  | .plcMargin => s.line.marginRx.setWidth 32 ||| field 8 s.line.marginPred.toNat
  | .pairStat => flag 0 s.line.btErr ||| field 8 s.line.tdcv.toNat
  | .tideCtl => s.tide.ctl
  | .tideStat0 => s.tide.status ||| flag 24 (s.tideErr via)
  | .tideStat1 => s.tide.epoch.setWidth 32 ||| field 16 s.tide.steps.toNat ||| field 24 s.tide.tskip.toNat
  | .tideTick => s.tide.tick.setWidth 32
  | .tideSec => s.tide.latch[p.ix]
  | .tideOffs => s.tide.offs
  | .tideRate => s.tide.rate
  | .tidePeriod => s.tide.period.setWidth 32
  | .tideKeeper => s.tide.keeperReg
  | .tideAdoptlim => s.tide.adoptLim
  | .calDate => s.cal.latch[p.ix]
  | .calTime => timeOf s.tide.sec.toNat
  | .calStat => s.calStat via
  | .calCtl => s.cal.ctl
  | .alloc k => s.alloc[k] ||| allocFixed k
  | _ => 0

/-- What the registers of Tables 21-2 to 21-9 read. -/
def State.engValue (s : State) (p : Party) (via : Via) (r : Rg) : Word :=
  match r with
  | .tim n w => s.timWord p via n w
  | .capq n hi => if hi then (s.tim.latch[p.ix][n].capq).setWidth 32 else (s.tim.tim[n].capq.headD 0).setWidth 32
  | .engCtl => s.engCtlWord
  | .engStat => s.engStatWord
  | .tctl t => s.eng.thr[t].ctlWord
  | .tctl1 t => s.tctl1Word t
  | .tpc t => s.eng.thr[t].pc.setWidth 32 ||| field 16 (s.charge t)
  | .lckOwn w => s.lckWord (fun l => if s.lockOwner l = 0 then some l else none) w
  | .icStat => s.icStatWord
  | .icThld h => if via = .sys ∧ s.panPort 0 ≠ h then 0 else (s.irq.thld[h.ix]).setWidth 32
  | .icHold g => (s.irq.space[g]).setWidth 32
  | .icPendSet w => s.ownBits s.irq.pend w
  | .icPendClr w => s.ownBits s.irq.pend w
  | .icEnSet w => s.ownBits s.irq.en w
  | .icEnClr w => s.ownBits s.irq.en w
  | .icPrio w => s.prioWord w
  | .icCnt w => s.cntWord w
  | .icTgt w => s.tgtWord w
  | .dbgBp k => s.bpWord k
  | .dbgStat => field 0 s.bpFree ||| flag 4 s.sys.dbgLock
  | _ => 0

/-- What the registers of chapter 22 read. -/
def State.winValue (s : State) (p : Party) (r : Rg) : Word :=
  match r with
  | .panId n => field 0 n.val ||| flag 4 (s.panPort n == .b) ||| field 8 (bitsOf (s.allocWord n) 2 5)
  | .panCtl n => flag 0 s.pans[n].rollRsp
  | .panStat n => s.pans[n].unack.setWidth 32 ||| flag 16 s.pans[n].rstBusy ||| flag 17 s.pans[n].ownRef
  | .panGen n => s.pans[n].gen.setWidth 32
  | .panPend n => s.panPendWord n
  | .panBudget n => s.pans[n].budget
  | .panWindow n =>
    field 0 (bitsOf (s.allocWord n) 16 16) ||| flag 16 (bitOf (s.allocWord 36) 31) ||| flag 17 (s.sealed && s.window == n)
  | .panFault n => s.pans[n].fault.setWidth 32
  | .panToken n => s.pans[n].token.setWidth 32
  | .panOvld n => field 0 s.pans[n].budHold.toNat ||| field 8 s.pans[n].winHold.toNat ||| field 16 s.pans[n].xpan.toNat
  | .panSchev n => s.pans[n].schev
  | .panRstlog n => s.pans[n].rstLog
  | .winIcStat n => s.winIcStatWord n
  | .icSel n => s.sel p n
  | .icSrc n => s.icSrcWord p n
  | .winHold n => (s.selGroup p n).elim 0 fun g => (s.irq.space[g]).setWidth 32
  | .winPendSet n => s.selBit p n s.irq.pend
  | .winPendClr n => s.selBit p n s.irq.pend
  | .winEnSet n => s.selBit p n s.irq.en
  | .winEnClr n => s.selBit p n s.irq.en
  | .winLckOwn n w => s.lckWord (fun l => (s.panLocks n)[l]?) w
  | .tqCtl n q => (s.tq n q).ctl
  | .tqRing n q => (s.tq n q).ring
  | .tqStat n q => (s.tq n q).statWord
  | .tqCnt n q => (s.tq n q).cnt
  | .rxfCtl n q => (s.rxf n q).ctl
  | .rxfRing n q => (s.rxf n q).ring
  | .rxfStat n q => (s.rxf n q).statWord
  | .schTick e => s.sched.ent[e].tick.setWidth 32
  | .schSec e => s.schSecWord p e
  | .schCtl e => s.sched.ent[e].ctlWord
  | .schOpnd e => s.sched.ent[e].opnd
  | .schStat e => s.sched.ent[e].stat
  | .schLate e => s.sched.ent[e].late
  | .flt k w =>
    match w.val with
    | 0 => s.flt[k].ctlWord
    | 1 => s.flt[k].a
    | 2 => s.flt[k].b
    | _ => s.flt[k].d
  | .fltCnt k => s.flt[k].cntWord
  | _ => 0

/-- What a register reads as to a party by a way of access, without any read effect. -/
def State.regValue (s : State) (p : Party) (via : Via) (r : Rg) : Word :=
  if s.mayRead via r then s.sysValue p via r ||| s.engValue p via r ||| s.winValue p r else 0

/-! ### Reads with their effects (R7, R177, R257, R547, R577, R583, R607) -/

/-- A read that latches or clears beside what it returns. -/
def State.readEffect (s : State) (p : Party) (r : Rg) : State :=
  match r with
  | .tideTick => s.updTide fun t => { t with latch := t.latch.set p.ix.val t.sec p.ix.isLt }
  | .schTick e => { s with sched := { s.sched with latch := tabUpd s.sched.latch p.ix fun l => l.set e.val (some s.sched.ent[e].sec) e.isLt } }
  | .panOvld n => s.updPan n fun x => { x with budHold := 0, winHold := 0, xpan := 0 }
  | .tqCnt n q => s.updTq n q fun x => { x with cnt := 0 }
  | .fltCnt k => s.updFlt k fun x => { x with hit := 0, drop := 0 }
  | .calTime => (s.calTimeRead p).2
  | .capq n false => (s.capqRead p n).2
  | .tim n w =>
    match w.val with
    | 2 => (s.timLo p n .cnt).2
    | 4 => (s.timLo p n .reload).2
    | 6 => (s.timLo p n .mtch).2
    | _ => s
  | _ => s

/-- A claim through IC_CLAIM_Hx: a host's, from the port of the target, where it is reachable (R555, R720). -/
def State.claimRead (s : State) (p : Party) (via : Via) (h : HostPort) : Word × State :=
  if p = .host h ∧ (via ≠ .sys ∨ s.panPort 0 = h) then s.hostClaim h.ix else (0, s)

/-- The word and the state of a one-word read of a stream address (R638), and whether the reader was refused (R349, R352, R358). -/
def State.streamRead (s : State) (p : Party) (r : Rg) : Word × State :=
  match r with
  | .tqCommit n q => s.commit p n q
  | .tqCpl n q =>
    let x := s.fetchWhole p n q false 1 true
    (x.2.1.headD 0, x.2.2)
  | .rxfFetch n q =>
    let x := s.fetchWhole p n q true 1 true
    (x.2.1.headD 0, x.2.2)
  | _ => (0, s)

/-- A stream address (R638). -/
def isStream : Rg → Bool
  | .tqSubmit _ _ => true
  | .tqSdata _ _ => true
  | .tqCommit _ _ => true
  | .tqCpl _ _ => true
  | .rxfFetch _ _ => true
  | _ => false

/-- The window of a way of access belongs to a pan that resets. -/
def State.resetting (s : State) : Via → Bool
  | .sys => false
  | .win n => s.pans[n].rstBusy

/-- A register read with its effects. -/
def State.regRead (s : State) (p : Party) (via : Via) (r : Rg) : Word × State :=
  if s.resetting via && !resetReads via.pan r && !resetStreams r then (0, s)
  else match r with
  | .icClaim h => s.claimRead p via h
  | r =>
    if isStream r then s.streamRead p r
    else (s.regValue p via r, s.readEffect p r)

end Machine

end Sys2Proof
end

