-- ==== Sys2Proof/Machine/Shadows.lean ====
section
/-! DEFINITION. Pending shadows and the boundaries at which they apply, enabling and disabling the line ports (chapters 2, 5, 11,
19, 20, 24). -/

namespace Sys2Proof.Machine

/-! ### Values refused at application (Table 20-15, R67, R811) -/

/-- The segments of PAIR_BT within their ranges, SJW among them. -/
def btSegments (w : Word) : Bool :=
  let ph1 := bitsOf w 12 5
  let ph2 := bitsOf w 17 5
  let sjw := bitsOf w 22 5
  1 ≤ bitsOf w 5 7 && 1 ≤ ph1 && 2 ≤ ph2 && 1 ≤ sjw && sjw ≤ min ph1 ph2

/-- The segments of PAIR_DBT within their ranges, DSJW among them. -/
def dbtSegments (w : Word) : Bool :=
  let d2 := bitsOf w 11 5
  let sj := bitsOf w 16 5
  1 ≤ bitsOf w 5 6 && 1 ≤ d2 && 1 ≤ sj && sj ≤ d2

/-- The rates of R67. -/
def nativeRates (bt dbt : Word) : Bool :=
  (pairTa bt == 4000 || pairTa bt == 2000 || pairTa bt == 1000) && 200 ≤ pairTd dbt && pairTd dbt ≤ pairTa bt

/-- The rates of R811; `fd` the FD bit. -/
def isoRates (bt dbt : Word) (fd : Bool) : Bool :=
  let q := 1 + bitsOf bt 5 7 + bitsOf bt 12 5 + bitsOf bt 17 5
  1000 ≤ pairTa bt && 8 ≤ q && q ≤ 160 && (!fd || (200 ≤ pairTd dbt && pairTd dbt ≤ pairTa bt))

/-- The pair port may be enabled with its timing (R67, R811). -/
def State.pairTimingOk (s : State) : Bool :=
  let bt := s.line.pairBt
  let dbt := s.line.pairDbt
  btSegments bt && dbtSegments dbt && (if s.isoMode then isoRates bt dbt (bitOf s.line.pairCtl 2) else nativeRates bt dbt)

def rollPlcOk (v : Nat) : Bool := 200 ≤ v && v ≤ 2000
def rollPairOk (v : Nat) : Bool := 50 ≤ v && v ≤ 2000

def policyOk (v : Word) : Bool := bitsOf v 0 3 ≤ bitsOf v 4 3 && bitsOf v 8 6 != 0

/-! ### Applications -/

/-- LINE_STATE.CFGERR. -/
def Line.refuse (l : Line) : Line := { l with cfgErr := true }

/-- PLC_CTL's rates. -/
def Line.applyPlcCtl (l : Line) : Line :=
  match l.plcCtlSh with
  | some v => { l with plcCtl := putBits l.plcCtl 1 2 v.toNat, plcCtlSh := none }
  | none => l

/-- LINE_ROLLSLOT is one shadow whose fields apply at the bus idle of their own ports: either field outside its range refuses
both that are pending. -/
def Line.rollBad (l : Line) : Bool :=
  (match l.rollSh with | some v => !rollPlcOk v.toNat | none => false) ||
    (match l.rollShPair with | some v => !rollPairOk v.toNat | none => false)

def Line.applyRoll (l : Line) (port : LinePort) : Line :=
  if l.rollBad then { l.refuse with rollSh := none, rollShPair := none }
  else match port with
  | .plc =>
    match l.rollSh with
    | some v => { l with rollSlot := putBits l.rollSlot 0 11 v.toNat, rollSh := none }
    | none => l
  | .pair =>
    match l.rollShPair with
    | some v => { l with rollSlot := putBits l.rollSlot 16 11 v.toNat, rollShPair := none }
    | none => l

def Line.applyPolicy (l : Line) : Line :=
  match l.policySh with
  | some v => if policyOk v then { l with policy := v, policySh := none } else { l.refuse with policySh := none }
  | none => l

/-- The shadows of a line register apply, once their stored parity is checked (R675). -/
def State.applyLine (s : State) (k : ShKey) (f : Line → Line) : State := (s.weed k).updLine f

/-- PLC_CHAN as enabling the PLC port applies it (R56). -/
def Line.applyPlan (l : Line) : Line :=
  match l.planSh with
  | some v => if v = 0 ∨ v = 7 then { l.refuse with planSh := none } else { l with plan := v, planSh := none }
  | none => l

/-- PAIR_STAT.BTERR is set; source 29 (Table 15-1). -/
def State.setBtErr (s : State) : State := (s.updLine fun l => { l with btErr := true }).arrive 29

/-- PAIR_BT, checked with the data bit time that stands or is pending; with PAIREN it must keep 1 Mbit/s (R235). -/
def State.applyPairBt (s : State) : State :=
  let s := s.weed .pairBt
  match s.line.pairBtSh with
  | none => s
  | some v =>
    let dbt := s.line.pairDbtSh.getD s.line.pairDbt
    let s1 := s.updLine fun l => { l with pairBtSh := none }
    if bitOf s.slu.ctl 2 && pairTa v != 1000 then
      s1.setBtErr.updSlu fun u => { u with pairBad := true }
    else if !btSegments v || (!s.isoMode && !nativeRates v dbt) then s1.setBtErr
    else s1.updLine fun l => { l with pairBt := v }

/-- PAIR_DBT, checked with the arbitration bit time that stands or is pending. -/
def State.applyPairDbt (s : State) : State :=
  let s := s.weed .pairDbt
  match s.line.pairDbtSh with
  | none => s
  | some v =>
    let bt := s.line.pairBtSh.getD s.line.pairBt
    let s1 := s.updLine fun l => { l with pairDbtSh := none }
    if !dbtSegments v || (!s.isoMode && !nativeRates bt v) then s1.setBtErr
    else s1.updLine fun l => { l with pairDbt := v }

/-- The budget of pan `n` at a millisecond boundary: at or below the ceiling in effect (R323, R404). -/
def State.applyBudget (s : State) (n : Fin 4) : State :=
  let s := s.weed (.budget n)
  match s.pans[n].budgetSh with
  | none => s
  | some v =>
    let c := s.ceiling n
    let s1 := s.updPan n fun p => { p with budgetSh := none }
    if bitsOf c 0 16 < bitsOf v 0 16 ∨ bitsOf c 16 16 < bitsOf v 16 16 then s1.panFault n fltAccess
    else s1.updPan n fun p => { p with budget := v }

/-- The buckets at a millisecond boundary: each is filled with RATE bytes up to BURST, after the pending budgets apply (R403,
R404). -/
def State.millisecond (s : State) : State :=
  allPans.foldl (fun s n =>
    (s.applyBudget n).updPan n fun p => { p with token := BitVec.ofNat 16 (min p.burst (p.token.toNat + p.rate)) }) s

/-! ### Boundaries (Table 19-1) -/

/-- A port's bus is idle, or the port is disabled. -/
def State.portIdle (s : State) (port : LinePort) : Bool := !s.portOn port || (s.port port).quiet

/-- A shadow's boundary comes: it applies, or is refused, when the boundary can be one. PLC_CHAN's boundaries are commands of their
own, a CHANNEL action and the enabling of the port (R56), and so is an enabled timer's, its wrap (R588). A budget that applies cuts
the bucket to its BURST; the refill is MILLISECOND_TICK's (R404). -/
def State.applyShadow (s : State) (x : Shadow) : State :=
  match x with
  | .plcCtl => if s.portIdle .plc then s.applyLine .plcCtl Line.applyPlcCtl else s
  | .rollPlc => if s.portIdle .plc then s.applyLine .roll fun l => l.applyRoll .plc else s
  | .rollPair => if s.portIdle .pair then s.applyLine .roll fun l => l.applyRoll .pair else s
  | .pairBt => if s.portIdle .pair then s.applyPairBt else s
  | .pairDbt => if s.portIdle .pair then s.applyPairDbt else s
  | .policy => if s.portIdle .plc then s.applyLine .policy Line.applyPolicy else s
  | .chan => s
  | .rate => s.applyRate
  | .period => s.applyPeriod
  | .timer n => if s.tim.tim[n].pendingShadow && !s.tim.tim[n].en then s.timApply n else s
  | .budget n => (s.applyBudget n).updPan n fun p => { p with token := BitVec.ofNat 16 (min p.burst p.token.toNat) }

/-! ### Enabling and disabling a port (R12, R18, R38, R56, R57, R67, R131) -/

/-- What enabling a port does besides its EN bit. -/
def State.portUp (s : State) (port : LinePort) : State :=
  let s1 := s.updPort port fun x =>
    if x.closing then { x with closing := false, waitNext := true } else { x with use := .waitTen }
  (if port = s.stringPort then (s1.updTide fun t => { t with heardAny := false }).startListen else s1).settle

/-- PLC_CTL.EN set. -/
def State.enablePlc (s : State) : State :=
  (s.applyLine .chan fun l => { l.applyPlan with plcCtl := putBit l.plcCtl 0 true }).portUp .plc

/-- PAIR_CTL.EN set: refused with BTERR while the timing breaks R67 or R811. -/
def State.enablePair (s : State) : State :=
  if s.pairTimingOk then (s.updLine fun l => { l with pairCtl := putBit l.pairCtl 0 true }).portUp .pair
  else s.setBtErr

/-- EN cleared: a frame on the wire completes first (R38); the shadows that wait for the port's bus idle apply at once (R653). -/
def State.disablePort (s : State) (port : LinePort) : State :=
  let s1 := match port with
    | .plc => s.updLine fun l => { l with plcCtl := putBit l.plcCtl 0 false }
    | .pair => s.updLine fun l => { l with pairCtl := putBit l.pairCtl 0 false }
  if (s.port port).tx.isSome then (s1.updPort port fun x => { x with closing := true }).settle
  else
    let s2 := s1.portDown port
    (match port with
    | .plc => (s2.applyLine .plcCtl Line.applyPlcCtl).applyLine .roll fun l => l.applyRoll .plc
    | .pair => ((s2.applyLine .roll fun l => l.applyRoll .pair).applyPairBt).applyPairDbt).settle

/-- EN of the PLC port written. -/
def State.setPlcEn (s : State) (on : Bool) : State :=
  if on == s.portEn .plc then s else if on then s.enablePlc else s.disablePort .plc

/-- EN of the pair port written. -/
def State.setPairEn (s : State) (on : Bool) : State :=
  if on == s.portEn .pair then s else if on then s.enablePair else s.disablePort .pair

/-- SEARCH of the PLC port written. -/
def State.setSearch (s : State) (on : Bool) : State :=
  if on == bitOf s.line.plcCtl 3 then s else (s.updLine fun l => { l with plcCtl := putBit l.plcCtl 3 on }).settle

/-- The rates of PLC_CTL written: buffered, at once while the port is disabled. -/
def State.setPlcRates (s : State) (v : Nat) : State :=
  let s1 := s.updLine fun l => { l with plcCtlSh := some (BitVec.ofNat 2 v) }
  if s.portOn .plc then s1 else s1.applyLine .plcCtl Line.applyPlcCtl

end Sys2Proof.Machine
end

