-- ==== Sys2Proof/Machine/RegWrite.lean ====
section
/-! DEFINITION. Register writes: keys, guards, refused values, bit aliases, configuration parity (chapters 19 to 22). -/

namespace Sys2Proof

open Machine

namespace Machine

/-- What a write answers: its LAST code, and the state. -/
abbrev Written := Nat × State

end Machine

/-- The key scope of a way of access (R658). -/
def Via.scope : Via → Fin 5
  | .sys => 0
  | .win n => ⟨n.val + 1, by omega⟩

namespace Machine

/-! ### Keys (R658-R662) -/

/-- KEYFAIL of a scope. -/
def State.keyFailAt (s : State) (sc : Fin 5) : State :=
  if sc = 0 then s.keyFail else s.panFault (idx 4 (sc.val - 1)) fltKey

/-- A party's key of a scope armed or disarmed. -/
def State.setKey (s : State) (sc : Fin 5) (p : Party) (on : Bool) : State :=
  s.updSys fun y => { y with keys := tabUpd y.keys sc fun m => putBit m p.ix.val on }

/-- A write to a key register. -/
def State.writeKey (s : State) (p : Party) (sc : Fin 5) (v : Word) : State :=
  if v = 0xC5A1 then s.setKey sc p true else (s.setKey sc p false).keyFailAt sc

/-- The scope in which a write to a register is keyed, if it is (R660). -/
def keyScope (via : Via) (r : Rg) : Option (Fin 5) :=
  match r with
  | .sysLock => some 0
  | .sysPanrst => some 0
  | .sysSwrst => some 0
  | .supThld => some 0
  | .sluCtl => some 0
  | .sluPermit => some 0
  | .lineCtl => some 0
  | .tideOffs => some via.scope
  | .panCtl n => some (Via.win n).scope
  | .panSlu n => some (Via.win n).scope
  | _ => none

/-! ### Capabilities a write needs -/

/-- The capability a write needs, and whether this write needs it (Tables 20-6, 20-8, 20-10, 20-12, 22-4). -/
def writeCap (r : Rg) (v : Word) : Option Cap :=
  match r with
  | .sluCtl => if bitOf v 0 then some .sluice else none
  | .sluPermit => some .sluice
  | .panSlu _ => some .sluice
  | .tideOffs => some .keeper
  | .tideRate => some .keeper
  | .tidePeriod => some .keeper
  | .tideKeeper => some .keeper
  | .lineBridge => some .bridge
  | .calTime => some .calset
  | _ => none

/-- The pan of a way of access lacks what a write needs. -/
def State.capMissing (s : State) (via : Via) (r : Rg) (v : Word) : Bool :=
  ((writeCap r v).map fun c => !s.hasCap via.pan c).getD false

/-- A FIRE write without SLUICE sets PAN_FAULT.CAP whether or not it is keyed (R221); every other refused write sets KEYFAIL alone
(R660). -/
def fireCap (r : Rg) (v : Word) : Bool :=
  match r with
  | .sluCtl => bitOf v 0
  | .panSlu _ => bitOf v 0
  | _ => false

/-! ### System registers (Tables 20-2 to 20-7) -/

/-- SYS_LOCK (R295, R468, R657). -/
def State.writeLock (s : State) (v : Word) : State :=
  let s1 := if bitOf v 1 then s.updSys fun y => { y with dbgLock := true } else s
  if bitOf v 0 then s1.panLockWrite else s1

/-- SYS_FAULT, W1C (R674). -/
def State.clearFaults (s : State) (v : Word) : State :=
  (s.updSys fun y =>
    { y with cfgPar := y.cfgPar && !bitOf v 0, keyFail := y.keyFail && !bitOf v 1, pllErr := y.pllErr && !bitOf v 3
             lfErr := y.lfErr && !bitOf v 4, otpErr := y.otpErr && !bitOf v 5 }).settle

/-- SYS_PANRST (R316). -/
def State.panResets (s : State) (v : Word) : State :=
  allPans.foldl (fun s n => if bitOf v n.val then s.panReset n else s) s

/-- SUP_THLD (R709). -/
def State.writeThld (s : State) (v : Word) : State :=
  s.updPow fun p => if 19 < bitsOf v 0 5 then { p with supCfgErr := true } else { p with supThld := merge 0xF1F p.supThld v }

/-- SLU_CTL: the settings, then FIRE (R220, R235, R709). -/
def State.writeSluCtl (s : State) (v : Word) : State :=
  let r := s.sluCtlWrite v
  if r.1 && bitOf v 0 then r.2.sluiceRequest else r.2

/-- SLU_STAT, W1C. -/
def Sluice.clearFlags (u : Sluice) (v : Word) : Sluice :=
  { u with txNone := u.txNone && !bitOf v 20, pairBad := u.pairBad && !bitOf v 21, cfgErr := u.cfgErr && !bitOf v 22 }

/-- SLU_LEN and SLU_KEEP (R709). -/
def Sluice.writeLen (u : Sluice) (v : Word) : Sluice :=
  let a := bitsOf v 0 10
  let b := bitsOf v 16 10
  if a < 48 || 1000 < a || b < 24 || 1000 < b then { u with cfgErr := true } else { u with len := merge 0x03FF03FF 0 v }
def Sluice.writeKeep (u : Sluice) (v : Word) : Sluice :=
  let k := bitsOf v 0 14
  if k = 0 || 10000 < k then { u with cfgErr := true } else { u with keep := merge 0x3FFF 0 v }

/-- PAN_SLU: FIRE wins over PERMIT, which is no release step in the write that latches (R220, R231, R247). -/
def State.writePanSlu (s : State) (v : Word) : State :=
  if bitOf v 0 then s.sluiceRequest else if bitOf v 1 then s.localStep else s

/-! ### Line, PLC and pair registers (Tables 20-8, 20-9, 20-15) -/

/-- LINE_CTL (R151, R152). -/
def State.writeLineCtl (s : State) (v : Word) : State :=
  let s1 := s.updLine fun l => { l with ctl := merge 1 l.ctl v }
  let s2 := if bitOf v 1 then s1.rejoinWrite .plc else s1
  (if bitOf v 2 then s2.rejoinWrite .pair else s2).settle

/-- LINE_ADDR (R34). -/
def State.writeAddr (s : State) (v : Word) : State :=
  if s.portsOff then s.updLine fun l => { l with addr := BitVec.ofNat 6 (bitsOf v 0 6) } else s

/-- LINE_STATE, W1C. -/
def Line.clearFlags (l : Line) (v : Word) : Line :=
  { l with dupAddr := l.dupAddr && !bitOf v 6, c0fmt := l.c0fmt && !bitOf v 7, cfgErr := l.cfgErr && !bitOf v 8 }

/-- LINE_ROLLSLOT: buffered, each field at once while its port is disabled (R653). -/
def State.writeRollslot (s : State) (v : Word) : State :=
  let s1 := s.updLine fun l =>
    { l with rollSh := some (BitVec.ofNat 11 (bitsOf v 0 11)), rollShPair := some (BitVec.ofNat 11 (bitsOf v 16 11)) }
  let s2 := if s.portOn .plc then s1 else s1.applyLine .roll fun l => l.applyRoll .plc
  if s.portOn .pair then s2 else s2.applyLine .roll fun l => l.applyRoll .pair

/-- PLC_CTL: the rates are buffered; SEARCH and EN act at once. -/
def State.writePlcCtl (s : State) (v : Word) : State :=
  ((s.setPlcRates (bitsOf v 1 2)).setSearch (bitOf v 3)).setPlcEn (bitOf v 0)

/-- PAIR_CTL (R235, R809, R709). -/
def State.writePairCtl (s : State) (v : Word) : State :=
  if bitOf v 3 && bitOf v 4 then s.updLine Line.refuse
  else if bitOf v 1 && bitOf s.slu.ctl 2 && !bitOf s.slu.ctl 3 then
    s.setBtErr.updSlu fun u => { u with pairBad := true }
  else
    let s1 := if s.portEn .pair then s else (s.updLine fun l => { l with pairCtl := merge 0x1E l.pairCtl v }).settle
    s1.setPairEn (bitOf v 0)

/-- PAIR_BT and PAIR_DBT: buffered, at once while the port is disabled. -/
def State.writePairBt (s : State) (v : Word) : State :=
  let s1 := s.updLine fun l => { l with pairBtSh := some (merge 0x07FFFFFF 0 v) }
  if s.portOn .pair then s1 else s1.applyPairBt
def State.writePairDbt (s : State) (v : Word) : State :=
  let s1 := s.updLine fun l => { l with pairDbtSh := some (merge 0x1FFFFFFF 0 v) }
  if s.portOn .pair then s1 else s1.applyPairDbt

/-! ### Tide and calendar registers (Tables 20-10 to 20-12, 22-4) -/

/-- TIDE_CTL (R709): PORT only while the ports are off. -/
def State.writeTideCtl (s : State) (v : Word) : State :=
  if bitsOf v 8 8 = 0 || bitsOf v 16 7 = 0 || 100 < bitsOf v 16 7 then s.tideRefused .sys
  else
    let s1 := if s.portsOff && bitOf v 0 != bitOf s.tide.ctl 0 then s.leaveString else s
    (s1.updTide fun t => { t with ctl := merge (if s.portsOff then 0x007FFF01 else 0x007FFF00) t.ctl v }).settle

/-- TIDE_STAT.CFGERR, W1C, in its view (R744). -/
def State.clearTideErr (s : State) (via : Via) (v : Word) : State :=
  if bitOf v 24 then
    match via with
    | .sys => s.updTide fun t => { t with cfgErr := false }
    | .win n => s.updPan n fun p => { p with tideCfgErr := false }
  else s

/-- TIDE_OFFS on a sending keeper: the step waits for the next bus idle (R200). -/
def State.writeOffs (s : State) (via : Via) (v : Word) : State :=
  if !s.tide.sending then s.panFault via.pan fltAccess
  else
    let s1 := s.updTide fun t => { t with offs := v, stepPend := some (t.stepPend.getD 0 + v.toInt), stepSoft := true }
    if s.busIdle then s1.applyMoves.settle else s1

/-- TIDE_RATE (R200). -/
def State.writeRate (s : State) (via : Via) (v : Word) : State :=
  if s.tide.sending then s.updTide fun t => { t with rateSh := some v, rateVia := via } else s.panFault via.pan fltAccess

/-- TIDE_PERIOD: at once while not sending. -/
def State.writePeriod (s : State) (via : Via) (v : Word) : State :=
  let s1 := s.updTide fun t => { t with periodSh := some (BitVec.ofNat 4 (bitsOf v 0 4)), periodVia := via }
  if s.tide.sending then s1 else s1.applyPeriod

/-- TIDE_KEEPER (R179, R705, R709). -/
def State.writeKeeper (s : State) (via : Via) (v : Word) : State :=
  if bitsOf v 0 2 = 3 || bitsOf v 8 4 < 2 then s.tideRefused via else s.keeperWrite v

/-- TIDE_ADOPTLIM. -/
def State.writeAdoptlim (s : State) (v : Word) : State :=
  if 1000000 < bitsOf v 0 20 then s.tideRefused .sys else s.updTide fun t => { t with adoptLim := merge 0xFFFFF 0 v }

/-- CAL_STAT, W1C: the pan's own BAD and DENY in a view (R744). -/
def State.clearCal (s : State) (via : Via) (v : Word) : State :=
  match via with
  | .sys =>
    s.updCal fun c =>
      { c with bad := c.bad && !bitOf v 3, deny := c.deny && !bitOf v 4, range := c.range && !bitOf v 5, wrap := c.wrap && !bitOf v 6 }
  | .win n => s.updPan n fun p => { p with calBad := p.calBad && !bitOf v 3, calDeny := p.calDeny && !bitOf v 4 }

/-! ### Allocation words (R292, R698) -/

/-- PAN_ALLOCk: frozen by PANLOCK; a change of PAN_ALLOC0.PORT disarms the system key of both ports (R661). -/
def State.writeAlloc (s : State) (k : Fin 48) (v : Word) : State :=
  if s.sys.panLock then s.panFault 0 fltAccess
  else
    let s1 := { s with alloc := tabUpd s.alloc k fun w => merge (allocMask k.val) w v }
    if s1.panPort 0 = s.panPort 0 then s1 else (s1.setKey 0 (.host .a) false).setKey 0 (.host .b) false

/-! ### Timers, engine, locks (Tables 21-2 to 21-5, 21-11) -/

/-- A timer's words. -/
def State.writeTim (s : State) (p : Party) (via : Via) (n w : Fin 8) (v : Word) : State :=
  match w.val with
  | 0 => s.timCtl n via v
  | 1 => s.timPutStat n v
  | 2 => s.timPutLo p n .cnt v
  | 3 => s.timPutHi p n .cnt v
  | 4 => s.timPutLo p n .reload v
  | 5 => s.timPutHi p n .reload v
  | 6 => s.timPutLo p n .mtch v
  | _ => s.timPutHi p n .mtch v

/-- An enabled pan that owns threads has its ROMPAN bit clear (R796, R797). -/
def State.ramPans (s : State) (romPan : BitVec 4) : Bool :=
  allPans.any fun n => s.panEn n && !(s.panThreads n).isEmpty && !bitOf romPan n.val

/-- GO, after the other fields of its write: ignored before PANLOCK and in the scrub, while GO stands or authenticates; refused
under ROMONLY; with AUTHREQ the images are authenticated first (R297, R443, R796-R798, R803). -/
def State.writeGo (s : State) : State :=
  if !s.sys.panLock || s.sys.scrub || s.eng.go || s.eng.auth then s
  else if s.otp.romOnly && s.ramPans s.eng.romPan then s.updEng fun e => { e with cfgErr := true }
  else if s.otp.authReq then
    let s1 := s.updEng fun e => { e with imgLock := true }
    if s.ramPans s.eng.romPan then s1.updEng fun e => { e with auth := true } else s1.goNow
  else s.goNow

/-- WDT, ROMPAN and WDEN of an ENG_CTL write, each guarded by the state before it (R462, R716, R728, R734). -/
def Engine.writeCtl (e : Engine) (v : Word) : Engine :=
  let wdt := bitsOf v 8 8
  let wdtBad := wdt == 0 || (e.wdEn && wdt != e.wdt.toNat)
  let romBad := e.go && bitsOf v 1 4 != e.romPan.toNat
  let e1 := { e with wdt := if wdtBad then e.wdt else BitVec.ofNat 8 wdt
                     romPan := if e.go then e.romPan else BitVec.ofNat 4 (bitsOf v 1 4)
                     cfgErr := e.cfgErr || wdtBad || romBad }
  if bitOf v 5 && !e.wdEn then { e1 with wdEn := true, wdLeft := e1.wdPeriod } else e1

/-- ENG_CTL: WDT, ROMPAN, WDEN, GO, KICK in this order (R728). A KICK checks WDEN as it stood before the write (R717). -/
def State.writeEngCtl (s : State) (v : Word) : State :=
  let s1 := s.updEng fun e => e.writeCtl v
  let s2 := if bitOf v 0 then s1.writeGo else s1
  if bitOf v 6 && s.eng.wdEn then s2.kick else s2

/-- The RW fields of ENG_TCTLn word 0 (R439, R717). -/
def Thread.writeCtl (th : Thread) (v : Word) : Thread :=
  let t1 := { th with prio := BitVec.ofNat 3 (bitsOf v 0 3), strict := bitOf v 3 }
  if th.state = .halted then { t1 with qdyn := bitOf v 4, quota := BitVec.ofNat 8 (bitsOf v 8 8) } else t1

/-- HALT by a write (R442): the thread's exit code stands. -/
def State.haltWrite (s : State) (t : Fin 8) : State :=
  if s.eng.thr[t].state = .halted then s else s.haltThread t fun th => { th with panRst := false }

/-- ENG_TCTLn word 0: the RW fields, then START or HALT (R441, R442, R727). -/
def State.writeTctl (s : State) (t : Fin 8) (v : Word) : State :=
  let s1 := s.updThr t fun th => th.writeCtl v
  match bitOf v 5, bitOf v 6 with
  | true, true => s1.updEng fun e => { e with cfgErr := true }
  | true, false => (s1.startThread t s.eng.thr[t].pc).2
  | false, true => s1.haltWrite t
  | false, false => s1

/-- ENG_TPCn: PC while HALTED or in DEBUG (R717). -/
def State.writeTpc (s : State) (t : Fin 8) (v : Word) : State :=
  s.updThr t fun th =>
    if th.state = .halted ∨ th.state = .debug then { th with pc := BitVec.ofNat 15 (bitsOf v 0 15), bpMet := false } else th

/-! ### Interrupt registers (Tables 21-6 to 21-8, 22-5, 22-6) -/

/-- UNWIND of the target of a host's own port (R721). -/
def State.unwindBy (s : State) (p : Party) (h : HostPort) : State := if p = .host h then s.unwind h.ix else s

/-- IC_CTL: the bits of P0's port's target, from that port (R555, R721). -/
def State.writeIcCtl (s : State) (p : Party) (v : Word) : State :=
  let h := s.panPort 0
  if bitOf v h.ix.val then s.unwindBy p h else s

/-- ORD of a host target, W1C. -/
def State.clearOrd (s : State) (h : HostPort) (on : Bool) : State :=
  if on then s.updIrq fun q => { q with ord := q.ord.set h.ix.val false h.ix.isLt } else s

/-- A way of access reaches a host target's registers (R555). -/
def State.reachesTarget (s : State) (via : Via) (h : HostPort) : Bool := via != .sys || s.panPort 0 == h

/-- IC_THLD_Hx. -/
def State.writeIcThld (s : State) (via : Via) (h : HostPort) (v : Word) : State :=
  if s.reachesTarget via h then
    s.updIrq fun q => { q with thld := q.thld.set h.ix.val (BitVec.ofNat 4 (bitsOf v 0 4)) h.ix.isLt }
  else s

/-- IC_DONE_Hx: from its own port only (R555, R720). -/
def State.writeIcDone (s : State) (p : Party) (via : Via) (h : HostPort) (v : Word) : State :=
  if p = .host h ∧ s.reachesTarget via h then s.hostDone h.ix v else s

/-- IC_HOLD. -/
def State.writeHold (s : State) (g : Fin 8) (v : Word) : State :=
  s.updIrq fun q => { q with space := q.space.set g.val (v.setWidth 16) g.isLt }

/-- IC_PRIO word `w`: the fields of P0's sources (R723). -/
def State.writePrio (s : State) (w : Fin 16) (v : Word) : State :=
  s.updIrq fun q => (List.range 8).foldl (fun q j =>
    let k := 8 * w.val + j
    if s.panSrc 0 k then { q with prio := tabUpd q.prio (idx 128 k) fun _ => BitVec.ofNat 4 (bitsOf v (4 * j) 4) } else q) q

/-- A source's mask written with `new` in global numbers: forbidden bits keep what is stored; whether a forbidden bit was asked
for (R302, R724). -/
def State.writeMask (s : State) (k : Fin 128) (new : BitVec 10) : Bool × State :=
  let ok := (List.range 10).foldl (fun (m : BitVec 10) x => putBit m x (s.maskAllowed k x)) 0
  (new &&& ~~~ ok != 0, s.updIrq fun q => { q with mask := tabUpd q.mask k fun m => merge ok m new })

/-- HG and HGEN of a source (R724, R748): a foreign group is not selected, and is a fault while HGEN = 1; `hg` none is a number
beyond the pan's groups. -/
def State.writeGroup (s : State) (k : Fin 128) (hg : Option (BitVec 3)) (on : Bool) : Bool × State :=
  match hg with
  | some g =>
    (false, s.updIrq fun q => { q with hg := q.hg.set k.val g k.isLt, hgen := putBit q.hgen k.val on })
  | none => if on then (true, s) else (false, s.updIrq fun q => { q with hgen := putBit q.hgen k.val false })

/-- One half of IC_TGT, for a source of P0 (R723, R724). -/
def State.writeTgtHalf (s : State) (k : Nat) (v : Nat) : State :=
  if !s.panSrc 0 k then s
  else
    let r := s.writeMask (idx 128 k) (BitVec.ofNat 10 v)
    let g := v / 4096 % 8
    let r2 := r.2.writeGroup (idx 128 k) (if s.hgOwner g = 0 || !v.testBit 15 then some (BitVec.ofNat 3 g) else none) (v.testBit 15)
    let s2 := r2.2.settleWaits
    if r.1 || r2.1 then s2.panFault 0 fltAccess else s2

/-- IC_TGT word `w`. -/
def State.writeTgt (s : State) (w : Fin 64) (v : Word) : State :=
  (s.writeTgtHalf (2 * w.val) (bitsOf v 0 16)).writeTgtHalf (2 * w.val + 1) (bitsOf v 16 16)

/-- A mask in a pan's numbering as a global one, and whether it names a thread beyond the pan's (R748). -/
def State.maskGlobal (s : State) (n : Fin 4) (v : Nat) : Bool × BitVec 10 :=
  let ts := s.panThreads n
  let m := ts.zipIdx.foldl (fun m t => putBit m (2 + t.1) (v.testBit (2 + t.2))) (BitVec.ofNat 10 (v % 4))
  (v / 4 / 2 ^ ts.length != 0, m)

/-- IC_SRC of the selected source (Table 22-6, R748). -/
def State.writeIcSrc (s : State) (p : Party) (n : Fin 4) (v : Word) : State :=
  match s.selSrc p n with
  | none => s
  | some k =>
    let m := s.maskGlobal n (bitsOf v 0 10)
    let r := s.writeMask k m.2
    let g := (s.panGroups n)[bitsOf v 12 3]?
    let r2 := r.2.writeGroup k (g.map fun g => BitVec.ofNat 3 g) (bitOf v 15)
    let s1 := (r2.2.updIrq fun q => { q with prio := q.prio.set k.val (BitVec.ofNat 4 (bitsOf v 16 4)) k.isLt }).settleWaits
    if m.1 || r.1 || r2.1 then s1.panFault n fltAccess else s1

/-- IC_SEL of a party (R747). -/
def State.writeSel (s : State) (p : Party) (n : Fin 4) (v : Word) : State :=
  let w := merge (0x77F : Word) 0 v
  match p with
  | .host h => s.updIrq fun q => { q with selHost := tabUpd q.selHost h.ix fun t => t.set n.val w n.isLt }
  | .thread t => s.updIrq fun q => { q with selThr := q.selThr.set t.val w t.isLt }

/-- Bit 0 of a set or clear word of the view acts on the selected source (R749). -/
def State.selBits (s : State) (p : Party) (n : Fin 4) (v : Word) : List (Fin 128) :=
  if bitOf v 0 then (s.selSrc p n).toList else []

/-! ### Pan registers (Tables 22-2, 22-3, 22-11) -/

/-- PAN_CTL: a reset ignores the other fields (R742). -/
def State.writePanCtl (s : State) (p : Party) (n : Fin 4) (v : Word) : State :=
  if bitOf v 8 then s.panReset n
  else
    let s1 := s.updPan n fun x => { x with rollRsp := bitOf v 0 }
    if bitOf v 9 then s1.unwindBy p (s.panPort n) else s1

/-- PAN_BUDGET (R323). -/
def State.writeBudget (s : State) (n : Fin 4) (v : Word) : State :=
  let c := s.ceiling n
  if bitsOf c 0 16 < bitsOf v 0 16 ∨ bitsOf c 16 16 < bitsOf v 16 16 then s.panFault n fltAccess
  else s.updPan n fun p => { p with budgetSh := some v }

/-- TQn_STAT and RXFn_STAT. -/
def TxQueue.writeStat (q : TxQueue) (v : Word) : TxQueue :=
  { q with cfgErr := q.cfgErr && !bitOf v 5, trunc := if bitOf v 6 then 0 else q.trunc }
def RxFifo.writeStat (q : RxFifo) (v : Word) : RxFifo :=
  { q with ovf := q.ovf && !bitOf v 16, cfgErr := q.cfgErr && !bitOf v 17, ovfCnt := if bitOf v 18 then 0 else q.ovfCnt
           part := if bitOf v 18 then 0 else q.part }

/-- A word of a filter. -/
def State.writeFilter (s : State) (p : Party) (k : Fin 128) (w : Fin 4) (v : Word) : State :=
  s.updFlt k fun x => if w = 0 then x.writeCtl p.holder v else x.writeWord w.val v

/-! ### One register -/

/-- The effect of an accepted write to the registers of chapter 20. -/
def State.putSys (s : State) (p : Party) (via : Via) (r : Rg) (v : Word) : State :=
  match r with
  | .sysCtl => (s.updSys fun y => { y with ctl := merge 3 y.ctl v }).settle
  | .sysLock => s.writeLock v
  | .key sc => s.writeKey p sc v
  | .sysFault => s.clearFaults v
  | .sysPanrst => s.panResets v
  | .sysSwrst => if bitOf v 0 then s.updSys fun y => { y with swPend := true } else s
  | .supCtl => s.updPow fun x => { x with supCtl := merge 1 x.supCtl v }
  | .supThld => s.writeThld v
  | .supStat => s.updPow fun x => { x with lgNone := x.lgNone && !bitOf v 1, supCfgErr := x.supCfgErr && !bitOf v 2 }
  | .clkCtl => s.clkCtlWrite v
  | .slpCtl => s.requestRest (bitsOf v 0 2)
  | .slpStat => s.updPow fun x => { x with wcause := x.wcause &&& ~~~ (v.setWidth 7) }
  | .slpWake => s.updPow fun x => { x with slpWake := merge 3 x.slpWake v }
  | .sluCtl => s.writeSluCtl v
  | .sluStat => s.updSlu fun u => u.clearFlags v
  | .sluLen => s.updSlu fun u => u.writeLen v
  | .sluKeep => s.updSlu fun u => u.writeKeep v
  | .sluPermit => if bitOf v 0 then s.localStep else s
  | .lineCtl => s.writeLineCtl v
  | .lineAddr => s.writeAddr v
  | .lineState => s.updLine fun l => l.clearFlags v
  | .lineRollslot => s.writeRollslot v
  | .lineBridge => s.updLine fun l => { l with bridge := merge 0xFFFF l.bridge v }
  | .plcCtl => s.writePlcCtl v
  | .plcChan => s.updLine fun l => { l with planSh := some (BitVec.ofNat 3 (bitsOf v 0 3)) }
  | .plcPolicy => s.updLine fun l => { l with policySh := some (merge 0x000F3F77 0 v) }
  | .pairCtl => s.writePairCtl v
  | .pairBt => s.writePairBt v
  | .pairDbt => s.writePairDbt v
  | .pairStat => s.updLine fun l => { l with btErr := l.btErr && !bitOf v 0 }
  | .tideCtl => s.writeTideCtl v
  | .tideStat0 => s.clearTideErr via v
  | .tideOffs => s.writeOffs via v
  | .tideRate => s.writeRate via v
  | .tidePeriod => s.writePeriod via v
  | .tideKeeper => s.writeKeeper via v
  | .tideAdoptlim => s.writeAdoptlim v
  | .calDate => s.calDate p v
  | .calTime => s.calTime p via.pan via v
  | .calStat => s.clearCal via v
  | .calCtl => s.updCal fun c => { c with ctl := merge 0x3F c.ctl v }
  | .alloc k => s.writeAlloc k v
  | _ => s

/-- The effect of an accepted write to the registers of chapter 21. -/
def State.putEng (s : State) (p : Party) (via : Via) (r : Rg) (v : Word) : State :=
  match r with
  | .tim n w => s.writeTim p via n w v
  | .engCtl => s.writeEngCtl v
  | .engStat => if bitOf v 25 then s.updEng fun e => { e with cfgErr := false } else s
  | .tctl t => s.writeTctl t v
  | .tpc t => s.writeTpc t v
  | .icCtl => s.writeIcCtl p v
  | .icStat => s.clearOrd (s.panPort 0) (bitOf v (s.panPort 0).ix.val)
  | .icThld h => s.writeIcThld via h v
  | .icDone h => s.writeIcDone p via h v
  | .icDoorbell => s.doorbell 0 (bitsOf v 0 7)
  | .icHold g => s.writeHold g v
  | .icPendSet w => s.pendSet (s.srcBits 0 w v)
  | .icPendClr w => s.pendClr (s.srcBits 0 w v)
  | .icEnSet w => s.enSet (s.srcBits 0 w v)
  | .icEnClr w => s.enClr (s.srcBits 0 w v)
  | .icPrio w => s.writePrio w v
  | .icTgt w => s.writeTgt w v
  | _ => s

/-- The effect of an accepted write to the registers of chapter 22. -/
def State.putWin (s : State) (p : Party) (r : Rg) (v : Word) : State :=
  match r with
  | .panCtl n => s.writePanCtl p n v
  | .panStat n => if bitOf v 17 then s.updPan n fun x => { x with ownRef := false } else s
  | .panBudget n => s.writeBudget n v
  | .panFault n => s.updPan n fun x => { x with fault := x.fault &&& ~~~ (v.setWidth 16) }
  | .panSchev n => s.updPan n fun x => { x with schev := x.schev &&& ~~~ v }
  | .panSlu _ => s.writePanSlu v
  | .winIcStat n => s.clearOrd (s.panPort n) (bitOf v 0)
  | .icSel n => s.writeSel p n v
  | .icSrc n => s.writeIcSrc p n v
  | .winHold n => (s.selGroup p n).elim s fun g => s.writeHold g v
  | .winPendSet n => s.pendSet (s.selBits p n v)
  | .winPendClr n => s.pendClr (s.selBits p n v)
  | .winEnSet n => s.enSet (s.selBits p n v)
  | .winEnClr n => s.enClr (s.selBits p n v)
  | .tqCtl n q => s.tqCtl n q v
  | .tqRing n q => s.tqRing n q v
  | .tqSubmit n q => s.submitWord p n q v
  | .tqSdata n q => s.sdataWord p n q v
  | .tqCommit n q => (s.commit p n q).2
  | .tqStat n q => s.updTq n q fun x => x.writeStat v
  | .rxfCtl n q => s.rxfCtl n q v
  | .rxfRing n q => s.rxfRing n q v
  | .rxfStat n q => s.updRxf n q fun x => x.writeStat v
  | .schTick e => s.schWrite e fun x => { x with tick := BitVec.ofNat 28 (bitsOf v 0 28) }
  | .schSec e => s.schWrite e fun x => { x with sec := v }
  | .schOpnd e => s.schWrite e fun x => { x with opnd := v }
  | .schCtl e => s.schCtl p e v
  | .schStat e => s.updSch e fun x => { x with wrej := x.wrej && !bitOf v 9 }
  | .flt k w => s.writeFilter p k w v
  | _ => s

/-- The effect of an accepted write. Each register belongs to one chapter. -/
def State.putReg1 (s : State) (p : Party) (via : Via) (r : Rg) (v : Word) : State :=
  ((s.putSys p via r v).putEng p via r v).putWin p r v

/-- A stream address used by a party that is not the queue's PROD or the FIFO's CONS (R349, R358). -/
def State.streamForeign (s : State) (p : Party) (r : Rg) : Bool :=
  match r with
  | .tqSubmit n q => !s.isCode n p (s.tq n q).prod
  | .tqSdata n q => !s.isCode n p (s.tq n q).prod
  | .tqCommit n q => !s.isCode n p (s.tq n q).prod
  | .tqCpl n q => !s.isCode n p (s.tq n q).prod
  | .rxfFetch n q => !s.isCode n p (s.rxf n q).cons
  | _ => false

/-! ### Configuration parity (R669-R673) -/

/-- The register that a host address names, of the system block or of a window. -/
def State.regOfAddr (s : State) (a : Nat) : Via × Rg :=
  if a < 0x1000 then (.sys, s.sysReg (a / 4 * 4)) else
    let n : Fin 4 := idx 4 (a / 0x1000 - 1)
    (.win n, s.winReg n (a % 0x1000 / 4 * 4))

/-- The shadow of a register (Table 19-1). -/
def Rg.shadow : Rg → Option ShKey
  | .plcCtl => some .plcCtl
  | .lineRollslot => some .roll
  | .plcChan => some .chan
  | .plcPolicy => some .policy
  | .pairBt => some .pairBt
  | .pairDbt => some .pairDbt
  | .tideRate => some .rate
  | .tidePeriod => some .period
  | .panBudget n => some (.budget n)
  | .tim n w =>
    match w.val with
    | 0 => some (.timer n 0)
    | 4 => some (.timer n 1)
    | 5 => some (.timer n 1)
    | 6 => some (.timer n 2)
    | 7 => some (.timer n 2)
    | _ => none
  | .flt k w => some (.flt k w)
  | _ => none

/-- The word of stored bits that a register writes: IC_EN_CLR writes those that IC_EN_SET names (R669). -/
def Rg.stored : Rg → Rg
  | .icEnClr w => .icEnSet w
  | r => r

/-- A write to a register ends its parity mismatch and that of its shadow (R670, R673). -/
def State.mendParity (s : State) (r : Rg) : State :=
  if s.sys.parBad.isEmpty && s.sys.shBad.isEmpty then s
  else s.updSys fun y =>
    { y with parBad := y.parBad.filter fun e => (s.regOfAddr e.1).2 != r.stored
             shBad := y.shBad.filter fun e => some e.1 != r.shadow }

/-! ### A whole-word write -/

/-- A write past its key: a missing capability, else its effect. -/
def State.putChecked (s : State) (p : Party) (via : Via) (r : Rg) (v : Word) : State :=
  if s.capMissing via r v then s.panFault via.pan fltCap else (s.mendParity r).putReg1 p via r v

/-- A write of a register with its key (R660), for a register the party reaches. -/
def State.writeKeyed (s : State) (p : Party) (via : Via) (r : Rg) (v : Word) : Written :=
  match keyScope via r with
  | none => (if s.streamForeign p r then lcOwnRef else lcOk, s.putChecked p via r v)
  | some sc =>
    if s.keyArmed sc p then (lcOk, (s.setKey sc p false).putChecked p via r v)
    else
      let s1 := if fireCap r v && s.capMissing via r v then s.panFault via.pan fltCap else s
      (lcKey, s1.keyFailAt sc)

/-- A write of a register; a window whose pan resets ignores it, but for what the streams answer (R320). -/
def State.regWrite (s : State) (p : Party) (via : Via) (r : Rg) (v : Word) : Written :=
  if s.resetting via && !resetStreams r then (lcOk, s) else s.writeKeyed p via r v

/-! ### Bit aliases (R664-R668, R713, R751) -/

/-- The register an alias offset belongs to has aliases. -/
def aliased (r : Rg) : Bool :=
  match r with
  | .icClaim _ => false
  | .icDone _ => false
  | .reserved => false
  | _ => true

/-- An alias read: the bit, without any read effect (R665). -/
def State.aliasRead (s : State) (p : Party) (via : Via) (r : Rg) (b : Nat) : Word :=
  if !aliased r || (s.resetting via && !resetReads via.pan r) then 0 else flag 0 (bitOf (s.regValue p via r) b)

/-- The bits of a register with access RW, RWB or RWK (an alias write sets or clears them), and those with W1S, W1C, WO or RWL (an
alias write of 1 acts on them). -/
def aliasBits (via : Via) (r : Rg) : Word × Word :=
  match r with
  | .sysCtl => (3, 0)
  | .sysLock => (0, 3)
  | .sysFault => (0, 0x3B)
  | .sysPanrst => (0, 0xF)
  | .sysSwrst => (0, 1)
  | .supCtl => (1, 0)
  | .supThld => (0xF1F, 0)
  | .supStat => (0, 6)
  | .clkCtl => (3, 0)
  | .slpCtl => (0, 3)
  | .slpStat => (0, 0x7F)
  | .slpWake => (3, 0)
  | .sluCtl => (0x1F0E, 1)
  | .sluStat => (0, 0x700000)
  | .sluLen => (0x03FF03FF, 0)
  | .sluKeep => (0x3FFF, 0)
  | .sluPermit => (0, 1)
  | .lineCtl => (1, 6)
  | .lineAddr => (0x3F, 0)
  | .lineState => (0, 0x1C0)
  | .lineRollslot => (0x07FF07FF, 0)
  | .lineBridge => (0xFFFF, 0)
  | .plcCtl => (0xF, 0)
  | .plcChan => (7, 0)
  | .plcPolicy => (0x000F3F77, 0)
  | .pairCtl => (0x1F, 0)
  | .pairBt => (0x07FFFFFF, 0)
  | .pairDbt => (0x1FFFFFFF, 0)
  | .tideCtl => (0x007FFF01, 0)
  | .tideStat0 => (0, 0x01000000)
  | .tideOffs => (0xFFFFFFFF, 0)
  | .tideRate => (0xFFFFFFFF, 0)
  | .tidePeriod => (0xF, 0)
  | .tideKeeper => (0x00FF0FF3, 0)
  | .tideAdoptlim => (0xFFFFF, 0)
  | .calDate => (0x0FFF0F1F, 0)
  | .calTime => (0x001F3F3F, 0)
  | .calStat => (0, if via = .sys then 0x78 else 0x18)
  | .calCtl => (0x3F, 0)
  | .alloc k => (allocMask k.val, 0)
  | .tim _ w =>
    match w.val with
    | 1 => (0xFF3, 0x0C781000)
    | 3 => (0xFFFF, 0)
    | 5 => (0xFFFF, 0)
    | 7 => (0xFFFF, 0)
    | _ => (0xFFFFFFFF, 0)
  | .engCtl => (0xFF1E, 0x61)
  | .engStat => (0, 0x02000000)
  | .tctl _ => (0xFF1F, 0x60)
  | .tpc _ => (0x7FFF, 0)
  | .icThld _ => (0xF, 0)
  | .panCtl _ => (1, 0x300)
  | .panStat _ => (0, 0x20000)
  | .panBudget _ => (0xFFFFFFFF, 0)
  | .panFault _ => (0, 0xFF7F)
  | .panSchev _ => (0, 0xFFFFFFFF)
  | .panSlu _ => (0, 3)
  | .winIcStat _ => (0, 1)
  | .icSel _ => (0x77F, 0)
  | .icSrc _ => (0x000FF3FF, 0)
  | .winHold _ => (0xFFFF, 0)
  | .winPendSet _ => (0, 1)
  | .winPendClr _ => (0, 1)
  | .winEnSet _ => (0, 1)
  | .winEnClr _ => (0, 1)
  | .schStat _ => (0, 0x200)
  | _ => (0, 0)

/-- The word an alias write starts from: the pending shadow or the value in effect (R667), the writer's hold of a _HI register or
of CAL_DATE. -/
def State.aliasBase (s : State) (p : Party) (via : Via) (r : Rg) : Word :=
  let l := s.line
  match r with
  | .lineRollslot =>
    field 0 ((l.rollSh.map BitVec.toNat).getD (bitsOf l.rollSlot 0 11)) |||
      field 16 ((l.rollShPair.map BitVec.toNat).getD (bitsOf l.rollSlot 16 11))
  | .plcChan => (l.planSh.getD l.plan).setWidth 32
  | .plcPolicy => l.policySh.getD l.policy
  | .pairBt => l.pairBtSh.getD l.pairBt
  | .pairDbt => l.pairDbtSh.getD l.pairDbt
  | .tideRate => s.tide.rateSh.getD s.tide.rate
  | .tidePeriod => (s.tide.periodSh.getD s.tide.period).setWidth 32
  | .panBudget n => s.pans[n].budgetSh.getD s.pans[n].budget
  | .calDate => s.cal.hold[p.ix]
  | .tim n w =>
    match w.val with
    | 3 => (s.tim.hold[p.ix][n].get .cnt).setWidth 32
    | 4 => (s.tim.tim[n].reloadSh.getD s.tim.tim[n].reload).setWidth 32
    | 5 => (s.tim.hold[p.ix][n].get .reload).setWidth 32
    | 6 => (s.tim.tim[n].mtchSh.getD s.tim.tim[n].mtch).setWidth 32
    | 7 => (s.tim.hold[p.ix][n].get .mtch).setWidth 32
    | _ => s.regValue p via r
  | r => s.regValue p via r

/-- A bit of PLC_CTL by its alias: EN and SEARCH leave the rate shadow alone. -/
def State.aliasPlcCtl (s : State) (b : Nat) (v : Bool) : State :=
  let rates := (s.line.plcCtlSh.map BitVec.toNat).getD (bitsOf s.line.plcCtl 1 2)
  match b with
  | 0 => s.setPlcEn v
  | 1 => s.setPlcRates (bitsOf (putBit (BitVec.ofNat 2 rates) 0 v) 0 2)
  | 2 => s.setPlcRates (bitsOf (putBit (BitVec.ofNat 2 rates) 1 v) 0 2)
  | 3 => s.setSearch v
  | _ => s

/-- A bit of TIMn_CTL by its alias: EN alone leaves the shadow alone, and 1 on a running timer does nothing. -/
def State.aliasTimCtl (s : State) (n : Fin 8) (via : Via) (b : Nat) (v : Bool) : State :=
  let x := s.tim.tim[n]
  let base := putBit (x.ctlSh.getD x.ctl) 0 x.en
  let view := match via with
    | .sys => base
    | .win w => renumber (s.globalToView w) base
  if b = 0 && v == x.en then s else s.timCtl n via (putBit view b v)

/-- An alias write of bit `b` past its key (R666, Table 19-5). -/
def State.aliasPut (s : State) (p : Party) (via : Via) (r : Rg) (b : Nat) (v : Bool) : State :=
  let m := aliasBits via r
  let base := s.aliasBase p via r &&& m.1
  if bitOf m.1 b then
    match r with
    | .plcCtl => (s.aliasPlcCtl b v).mendParity r
    | .tim n 0 => (s.aliasTimCtl n via b v).mendParity r
    | r => s.putChecked p via r (putBit base b v)
  else if bitOf m.2 b && v then s.putChecked p via r (putBit base b true)
  else s

/-- The capability that an alias write needs is that of the word it stands for. -/
def State.aliasCapMissing (s : State) (p : Party) (via : Via) (r : Rg) (b : Nat) (v : Bool) : Bool :=
  let m := aliasBits via r
  (bitOf m.1 b || (bitOf m.2 b && v)) && s.capMissing via r (putBit (s.aliasBase p via r &&& m.1) b v)

/-- An alias write: keyed where the register is; a key register's is ignored (R662). -/
def State.aliasWrite (s : State) (p : Party) (via : Via) (r : Rg) (b : Nat) (v : Bool) : Written :=
  if !aliased r || s.resetting via then (lcOk, s)
  else
    match r with
    | .key _ => (lcOk, s)
    | r =>
      match keyScope via r with
      | none => (lcOk, s.aliasPut p via r b v)
      | some sc =>
        if s.keyArmed sc p then (lcOk, (s.setKey sc p false).aliasPut p via r b v)
        else
          let s1 := if v && fireCap r (BitVec.ofNat 32 (1 <<< b)) && s.aliasCapMissing p via r b v then s.panFault via.pan fltCap else s
          (lcKey, s1.keyFailAt sc)

end Machine

end Sys2Proof
end

