-- ==== Sys2Proof/Machine/Cmac.lean ====
section
/-! DEFINITION. The authentication of an image with AES-128-CMAC (R797): the cipher of FIPS 197 on blocks of 16 bytes, and the mode
of SP 800-38B for messages of whole blocks, which every region has. -/

namespace Sys2Proof.Machine

/-! ### The field of AES -/

/-- A byte times x. -/
def gfDouble (b : Byte) : Byte := if bitOf b 7 then (b <<< 1) ^^^ 0x1B else b <<< 1

/-- A product in the field, over the low `n` bits of `b`. -/
def gfMul (a b : Byte) : Nat → Byte
  | 0 => 0
  | n + 1 => gfDouble (gfMul a (b >>> 1) n) ^^^ (if bitOf b 0 then a else 0)

def gfTimes (a b : Byte) : Byte := gfMul a b 8

/-- The inverse, zero for zero: the 254th power. -/
def gfInv (a : Byte) : Byte :=
  let sq := fun (x : Byte) => gfTimes x x
  let a2 := sq a
  let a3 := gfTimes a2 a
  let a12 := sq (sq a3)
  let a15 := gfTimes a12 a3
  let a240 := sq (sq (sq (sq a15)))
  gfTimes (gfTimes a240 a12) a2

/-- SubBytes on one byte. -/
def aesSub (b : Byte) : Byte :=
  let x := gfInv b
  x ^^^ x.rotateLeft 1 ^^^ x.rotateLeft 2 ^^^ x.rotateLeft 3 ^^^ x.rotateLeft 4 ^^^ 0x63

/-! ### The cipher -/

def xorBytes (a b : List Byte) : List Byte := List.zipWith (· ^^^ ·) a b

/-- ShiftRows: byte `r + 4 c` of the block is row r, column c. -/
def shiftRows (s : List Byte) : List Byte := (List.range 16).map fun k => (s[(k + 4 * (k % 4)) % 16]?).getD 0

/-- MixColumns on one column. -/
def mixColumn : List Byte → List Byte
  | [a, b, c, d] =>
    let t := fun (x y z w : Byte) => gfDouble x ^^^ (gfDouble y ^^^ y) ^^^ z ^^^ w
    [t a b c d, t b c d a, t c d a b, t d a b c]
  | x => x

def mixColumns (s : List Byte) : List Byte := (List.range 4).flatMap fun c => mixColumn ((s.drop (4 * c)).take 4)

/-- The next round key. -/
def nextKey (k : List Byte) (rcon : Byte) : List Byte :=
  let w := fun (j : Nat) => (k.drop (4 * j)).take 4
  let l := w 3
  let g := xorBytes ((l.drop 1 ++ l.take 1).map aesSub) [rcon, 0, 0, 0]
  let w0 := xorBytes (w 0) g
  let w1 := xorBytes (w 1) w0
  let w2 := xorBytes (w 2) w1
  w0 ++ w1 ++ w2 ++ xorBytes (w 3) w2

/-- The rounds after the first key, `n` of them left. -/
def aesRounds (s k : List Byte) (rcon : Byte) : Nat → List Byte
  | 0 => s
  | n + 1 =>
    let k1 := nextKey k rcon
    let t := shiftRows (s.map aesSub)
    aesRounds (xorBytes (if n = 0 then t else mixColumns t) k1) k1 (gfDouble rcon) n

/-- AES-128 of a block of 16 bytes. -/
def aes128 (key block : List Byte) : List Byte := aesRounds (xorBytes block key) key 1 10

/-! ### CMAC -/

/-- The block times x, for the first subkey. -/
def doubleBlock (b : List Byte) : List Byte :=
  let sh := (List.range 16).map fun k => ((b.getD k 0) <<< 1) ||| ((b.getD (k + 1) 0) >>> 7)
  if bitOf (b.headD 0) 7 then xorBytes sh (List.replicate 15 0 ++ [0x87]) else sh

/-- The chain over `n` blocks, the last of them with the subkey. -/
def cmacChain (key k1 x m : List Byte) : Nat → List Byte
  | 0 => x
  | n + 1 =>
    let b := xorBytes x (m.take 16)
    cmacChain key k1 (aes128 key (if n = 0 then xorBytes b k1 else b)) (m.drop 16) n

/-- The tag of a message of one or more whole blocks. -/
def cmac (key m : List Byte) : List Byte :=
  cmacChain key (doubleBlock (aes128 key (List.replicate 16 0))) (List.replicate 16 0) m (m.length / 16)

/-! ### The images -/

/-- KEY as the cipher's bytes: the 128-bit value of OTP words 6 to 9, highest byte first (DESIGN CHOICE, log 29). -/
def Otp.keyBytes (o : Otp) : List Byte :=
  o.key.toList.reverse.flatMap fun w => (bytesOfWord w).reverse

/-- The region of pan `n` ends in the tag of what comes before it; an empty region has none. -/
def State.imageOk (s : State) (n : Fin 4) : Bool :=
  let r := s.iramRegion n
  let bs := (List.range r.2).map fun k => memGet s.mem (r.1 + k)
  !s.otp.keyBad && r.2 != 0 && cmac s.otp.keyBytes (bs.take (r.2 - 16)) == bs.drop (r.2 - 16)

/-- Every region that GO needs passes. -/
def State.imagesOk (s : State) : Bool :=
  allPans.all fun n => !(s.panEn n && !(s.panThreads n).isEmpty && !bitOf s.eng.romPan n.val) || s.imageOk n

/-- The authentication ends: GO takes effect, or CFGERR is set (R797). -/
def State.authEnd (s : State) : State :=
  if !s.eng.auth then s
  else if s.imagesOk then s.goNow
  else s.updEng fun e => { e with auth := false, cfgErr := true }

end Sys2Proof.Machine
end

