-- ==== Sys2Proof/Machine/Host.lean ====
section
/-! DEFINITION. The host ports (chapter 18): the address map, the rights of a port, one word read or written, the streams, and
what a transaction leaves behind. -/

namespace Sys2Proof

open Machine

namespace Machine

/-! ### The host address map (Table 0-10) -/

/-- What a host address names. -/
inductive Place where
  /-- a register: the block or window, the byte offset -/
  | reg (via : Via) (o : Nat)
  /-- bit `b` of a register by its alias (R664) -/
  | bit (via : Via) (o b : Nat)
  /-- word `w` of slot `g` -/
  | brine (g w : Nat)
  | iram
  | scratch
  /-- ROM, by instruction index -/
  | rom (i : Nat)
  /-- a reserved address, and the control area of brine RAM (R334) -/
  | reserved
  deriving DecidableEq, Repr

/-- The place of a host address, a multiple of 4 (Table 0-10, R664). -/
def hostPlace (a : Nat) : Place :=
  if a < 0x1000 then .reg .sys a
  else if a < 0x5000 then .reg (.win (idx 4 (a / 0x1000 - 1))) (a % 0x1000)
  else if a < 0x8000 then .reserved
  else if a < 0x10000 then .bit .sys ((a - 0x8000) / 128 * 4) (a % 128 / 4)
  else if a < 0x18000 then .bit (.win (idx 4 ((a - 0x10000) / 0x2000))) (a % 0x2000 / 128 * 4) (a % 128 / 4)
  else if a < 0x20000 then .reserved
  else if a < 0x3F800 then .brine ((a - 0x20000) / 96) ((a - 0x20000) % 96 / 4)
  else if a < 0x40000 then .reserved
  else if a < 0x50000 then .iram
  else if a < 0x54000 then .scratch
  else if a < 0x60000 then .reserved
  else if a < 0x64000 then .rom ((a - 0x60000) / 4)
  else .reserved

/-! ### Rights (R298-R300, R642) -/

/-- A region of memory lies around an address. -/
def inRegion (r : Nat × Nat) (a : Nat) : Bool := r.1 ≤ a && a < r.1 + r.2

/-- The address lies in the instruction or scratch RAM of a pan bound to the port. -/
def State.portRegion (s : State) (h : HostPort) (region : Fin 4 → Nat × Nat) (a : Nat) : Bool :=
  (s.portPans h).any fun n => inRegion (region n) a

/-- Table 8-4 for a place after PANLOCK. -/
def State.lockedMay (s : State) (h : HostPort) (a : Nat) : Place → Bool
  | .reg .sys _ => s.panPort 0 == h
  | .reg (.win n) _ => s.panEn n && s.panPort n == h
  | .bit .sys _ _ => s.panPort 0 == h
  | .bit (.win n) _ _ => s.panEn n && s.panPort n == h
  | .brine g _ => (s.portPans h).contains (s.slotOwner g)
  | .iram => s.portRegion h s.iramRegion a
  | .scratch => s.portRegion h s.scratchRegion a
  | .rom _ => true
  | .reserved => true

/-- Before PANLOCK P0's port reaches everything, the other port ROM alone (R642). -/
def State.openMay (s : State) (h : HostPort) : Place → Bool
  | .rom _ => true
  | .reserved => true
  | _ => s.panPort 0 == h

/-- A window of P1-P3 that reads zero and ignores writes without counting as not allowed (R296, R298, R642). -/
def State.quietAt (s : State) (h : HostPort) : Place → Bool
  | .reg (.win n) _ => n != 0 && (s.sys.scrub || (!s.sys.panLock && s.panPort 0 == h))
  | .bit (.win n) _ _ => n != 0 && (s.sys.scrub || (!s.sys.panLock && s.panPort 0 == h))
  | _ => false

/-- The right of a port at an address. -/
def State.hostRight (s : State) (h : HostPort) (a : Nat) : Right :=
  let pl := hostPlace a
  if s.quietAt h pl then .quiet
  else if (if s.sys.panLock then s.lockedMay h a pl else s.openMay h pl) then .yes
  else .no

/-- The pans that note an access that is not allowed: those bound to the port, after PANLOCK (R299, R642). -/
def State.notePans (s : State) (h : HostPort) : List (Fin 4) := if s.sys.panLock then s.portPans h else []

/-- An access that is not allowed is noted in every pan bound to the port, after PANLOCK (R299, R642). -/
def State.hostDenied (s s0 : State) (h : HostPort) : State := s.panFaults (s0.notePans h) fltAccess

/-! ### One word -/

/-- What a transaction does at its effect point: the LAST code, the words returned, the state. -/
abbrev Served := Nat × List Word × State

/-- LAST of a one-word read of a stream address (R349, R352, R358, R639). -/
def State.streamReadCode (s : State) (p : Party) (r : Rg) : Nat :=
  match r with
  | .tqCpl n q => (s.fetchWhole p n q false 1 true).1
  | .rxfFetch n q => (s.fetchWhole p n q true 1 true).1
  | .tqCommit _ _ => if s.streamForeign p r then lcOwnRef else lcOk
  | _ => lcOk

/-- A FETCH that finds nothing and leaves LAST as the code says. -/
def deadFetch (code : Nat) : OpenFetch := ⟨0, 0, false, none, 0, true, code⟩

/-- A FETCH at a TQn_CPL or RXFn_FETCH begins; one in a window that resets reads zero (R320). -/
def State.fetchOpen (s : State) (p : Party) (via : Via) (r : Rg) : OpenFetch × State :=
  if s.resetting via then (deadFetch lcOk, s)
  else
    match r with
    | .tqCpl n q => s.fetchHead p n q false
    | .rxfFetch n q => s.fetchHead p n q true
    | _ => (deadFetch lcOk, s)

/-- A FETCH of `k` words in one piece. -/
def State.fetchAt (s : State) (p : Party) (via : Via) (r : Rg) (k : Nat) (take : Bool) : Served :=
  let a := s.fetchOpen p via r
  let b := a.2.fetchPart a.1 k take
  let c := b.2.2.fetchEnd b.2.1
  (c.1, b.1, c.2)

/-- A word read at a register by a host port: a stream address in a burst is KIND (R638). -/
def State.hostRegRead (s : State) (h : HostPort) (burst : Bool) (via : Via) (r : Rg) : Nat × Word × State :=
  if burst && isStream r then (lcKind, 0, s)
  else
    let x := s.regRead (.host h) via r
    (if s.resetting via && !resetStreams r then lcOk else s.streamReadCode (.host h) r, x.1, x.2)

/-- One word read at a host address with a right; `pans` note one that is not allowed. -/
def State.readAs (s : State) (r : Right) (pans : List (Fin 4)) (h : HostPort) (burst : Bool) (a : Nat) : Nat × Word × State :=
  match r with
  | .no => (lcAccess, 0, s.panFaults pans fltAccess)
  | .quiet => (lcOk, 0, s)
  | .yes =>
    match hostPlace a with
    | .reg via o => s.hostRegRead h burst via (s.regAt via o)
    | .bit via o b => (lcOk, s.aliasRead (.host h) via (s.regAt via o) b, s)
    | .brine g w => (lcOk, s.slotWord g w, s)
    | .iram => (lcOk, memWord s.mem a, s)
    | .scratch => (lcOk, memWord s.mem a, s)
    | .rom i => (lcOk, Config.rom i, s)
    | .reserved => (lcOk, 0, s)

/-- One word read at a host address; `s0` is the state whose rights the transaction has (R300). -/
def State.hostReadWord (s0 : State) (h : HostPort) (s : State) (a : Nat) : Nat × Word × State :=
  s.readAs (s0.hostRight h a) (s0.notePans h) h false a

/-- One word written at a register by a host port. -/
def State.hostRegWrite (s : State) (h : HostPort) (burst : Bool) (via : Via) (r : Rg) (v : Word) : Written :=
  if burst && isStream r then (lcKind, s) else s.regWrite (.host h) via r v

/-- One word written at a host address. Instruction RAM is closed to the host once GO asked for authentication (R798). -/
def State.hostWriteWord (s0 : State) (h : HostPort) (burst : Bool) (s : State) (a : Nat) (v : Word) : Written :=
  match s0.hostRight h a with
  | .no => (lcAccess, s.hostDenied s0 h)
  | .quiet => (lcOk, s)
  | .yes =>
    match hostPlace a with
    | .reg via o => s.hostRegWrite h burst via (s.regAt via o) v
    | .bit via o b => s.aliasWrite (.host h) via (s.regAt via o) b (bitOf v 0)
    | .brine g w =>
      let x := s.writeSlot (.host h) g w v
      (if x.1 then lcOk else lcOwnRef, x.2)
    | .iram => if s.eng.imgLock then (lcAccess, s) else (lcOk, { s with mem := memPutWord s.mem a v })
    | .scratch => (lcOk, { s with mem := memPutWord s.mem a v })
    | .rom _ => (lcOk, s)
    | .reserved => (lcOk, s)

/-- A READ_BURST begins: the rights its 64 words can have are those of its address phase (R300, R637). -/
def State.burstOpen (s : State) (h : HostPort) (a : Nat) : OpenBurst :=
  ⟨a, a, (List.range 64).map fun k => s.hostRight h (a + 4 * k), s.notePans h, lcOk⟩

/-- The next `n` words of a READ_BURST, from rising addresses; a 65th word closes it with FRAME (R630, R637). -/
def State.burstPart (s : State) (h : HostPort) (b : OpenBurst) : Nat → List Word × OpenBurst × State
  | 0 => ([], b, s)
  | n + 1 =>
    match b.rights with
    | [] => ([], { b with code := joinCode b.code lcFrame }, s)
    | r :: rs =>
      let x := s.readAs r b.pans h true b.next
      let y := x.2.2.burstPart h { b with next := b.next + 4, rights := rs, code := joinCode b.code x.1 } n
      (x.2.1 :: y.1, y.2)

/-- Words written to rising addresses (R629). -/
def State.hostWrites (s0 : State) (h : HostPort) : Nat → List Word → State → Served
  | _, [], s => (lcOk, [], s)
  | a, v :: vs, s =>
    let x := s0.hostWriteWord h true s a v
    let y := s0.hostWrites h (a + 4) vs x.2
    (joinCode x.1 y.1, [], y.2.2)

/-- Words written to one address: the rest of a SUBMIT (R627). -/
def State.hostFills (s0 : State) (h : HostPort) (a : Nat) : List Word → State → Served
  | [], s => (lcOk, [], s)
  | v :: vs, s =>
    let x := s0.hostWriteWord h false s a v
    let y := s0.hostFills h a vs x.2
    (joinCode x.1 y.1, [], y.2.2)

/-! ### The status byte and the end of a transaction (R634, R641) -/

/-- The port serves: after HPI_READY, with the core running (R651, R649). -/
def State.serves (s : State) : Bool := s.pow.ready && s.coreRuns

/-- The status byte (Table 18-5). -/
def State.statusByte (s : State) (h : HostPort) (busy : Bool) : Byte :=
  BitVec.ofNat 8 (s.host[h.ix].last.toNat + (if busy then 32 else 0) + (if s.irqLow h.ix then 64 else 0)
    + (if s.serves then 128 else 0))

/-- A key of any scope is armed for the party. -/
def State.anyKey (s : State) (p : Party) : Bool := s.sys.keys.toList.any fun k => bitOf k p.ix

/-- The STATUS word (Table 18-9); the pans are those PAN_ALLOC enables and binds to the port, locked or not. -/
def State.statusWord (s : State) (h : HostPort) : Word :=
  let pans := ((allPans.filter fun n => s.allocEn n && s.panPort n == h).map fun n => 2 ^ n.val).sum
  let low := flag 0 s.serves ||| flag 1 (s.irqLow h.ix) ||| flag 2 (s.anyKey (.host h)) ||| flag 3 s.sys.panLock ||| field 4 pans
  if s.serves then
    low ||| field 8 s.host[h.ix].last.toNat ||| field 16 s.host[h.ix].errCnt.toNat ||| field 24 s.sys.life.code |||
      flag 27 s.slu.safe ||| flag 28 s.slu.run
  else low

def State.updHost (s : State) (h : HostPort) (f : HostState → HostState) : State := { s with host := tabUpd s.host h.ix f }

/-- An owner's software reset takes place once the access that asked for it is over (R687). -/
def State.swReset (s : State) : State := if s.sys.swPend then s.resetWith rcSw else s

/-- The end of a transaction: LAST, ERRCNT, what the port returned (R634); then a software reset it asked for. -/
def State.endTx (s : State) (h : HostPort) (status : Byte) (x : Nat × List Word) : State :=
  (s.updHost h fun y =>
    { last := BitVec.ofNat 5 x.1, errCnt := if x.1 = 0 then y.errCnt else satInc8 y.errCnt, status := status, resp := x.2
      tx := none, held := [] }).swReset

/-- The next `k` words of an open transaction. -/
def State.openPart (s : State) (h : HostPort) (o : OpenTx) (k : Nat) (take : Bool) : List Word × OpenTx × State :=
  match o with
  | .fetch f =>
    let x := s.fetchPart f k take
    (x.1, .fetch x.2.1, x.2.2)
  | .burst b =>
    let x := s.burstPart h b k
    (x.1, .burst x.2.1, x.2.2)

/-- What the CS_N rise ends: the LAST code of the open transaction, and the deliveries it held (R360, R639). -/
def State.openEnd (s : State) (h : HostPort) (o : OpenTx) : Nat × State :=
  let s1 := s.putHeld s.host[h.ix].held
  match o with
  | .fetch f => s1.fetchEnd f
  | .burst b => (b.code, s1)

/-- An open transaction of the port ends here, with a code of its end. -/
def State.closeTx (s : State) (h : HostPort) (o : OpenTx) (ws : List Word) (code : Nat) : State :=
  let e := s.openEnd h o
  e.2.endTx h s.host[h.ix].status (joinCode e.1 code, ws)

/-- A command that is no part of the port's open transaction comes after the CS_N rise that ended it (DESIGN CHOICE, log 80). -/
def State.closePort (s : State) (h : HostPort) : State :=
  match s.host[h.ix].tx with
  | some o => s.closeTx h o s.host[h.ix].resp lcOk
  | none => s

/-- The code of a transaction that does nothing at all, 0 when it is served; `form`: what the command itself breaks. -/
def State.refuseCode (s : State) (x : Xfer) (isWrite : Bool) (form : Nat) : Nat :=
  let frame := if (if isWrite then x.countOk else x.reached) then lcOk else lcFrame
  let crc := if x.crc && !x.crcOk then lcCrc else lcOk
  joinCode (if s.serves then lcOk else lcNotRdy) (joinCode (if x.busy then lcBusy else lcOk) (joinCode form (joinCode frame crc)))

/-- A transaction: the status byte at the CS_N fall, which also ends a pending LISTEN or SLEEP request (R777); then its effect,
unless it is refused (R634). The ports ignore their pins without VIO (R770). -/
def State.transact (s : State) (x : Xfer) (isWrite : Bool) (form : Nat) (k : State → Served) : State :=
  if !s.pow.vioOk then s
  else
    let s := s.closePort x.port
    let status := s.statusByte x.port x.busy
    let s0 := s.endRequest false
    let code := s0.refuseCode x isWrite form
    if code ≠ 0 then s0.endTx x.port status (code, [])
    else
      let y := k s0
      y.2.2.endTx x.port status (joinCode y.1 (if x.countOk then lcOk else lcFrame), y.2.1)

/-- `k` words of an open transaction after the words `ws`: CS_N then stays low (`more`), or rises. -/
def State.moreWords (s : State) (x : Xfer) (o : OpenTx) (ws : List Word) (k : Nat) (take more : Bool) : State :=
  let r := s.openPart x.port o k take
  if more then r.2.2.updHost x.port fun y => { y with tx := some r.2.1, resp := ws ++ r.1 }
  else r.2.2.closeTx x.port r.2.1 (ws ++ r.1) (if x.countOk then lcOk else lcFrame)

/-- A FETCH or READ_BURST from its CS_N fall: `k` words, and CS_N stays low or rises. The first word is read at the end of the address
phase, so that one of no whole word is broken inside its first (R630, R636). A refused one that stays open returns zeros. -/
def State.readTx (s : State) (x : Xfer) (form k : Nat) (take more : Bool) (start : State → OpenTx × State) : State :=
  if !s.pow.vioOk then s
  else
    let s := s.closePort x.port
    let status := s.statusByte x.port x.busy
    let s0 := s.endRequest false
    let code := s0.refuseCode x false form
    if code ≠ 0 then
      if more then s0.updHost x.port fun y => { y with status := status, resp := [], tx := some (.fetch (deadFetch code)), held := [] }
      else s0.endTx x.port status (code, [])
    else
      let a := start s0
      let s1 := a.2.updHost x.port fun y => { y with status := status, held := [] }
      if k = 0 && !more then
        let r := s1.openPart x.port a.1 1 false
        r.2.2.closeTx x.port r.2.1 [] lcFrame
      else s1.moreWords x a.1 [] k take more

/-- ALIGN for an address that is not a multiple of 4 (R628). -/
def alignCode (a : BitVec 24) : Nat := if a.toNat % 4 = 0 then lcOk else lcAlign

/-- The register a SUBMIT, COMMIT or FETCH names, if it is a stream address of its kind (R638). -/
def State.streamAt (s : State) (a : BitVec 24) (kind : Rg → Bool) : Option (Via × Rg) :=
  match hostPlace a.toNat with
  | .reg (.win n) o => if kind (s.winReg n o) then some (.win n, s.winReg n o) else none
  | _ => none

/-- ALIGN or KIND for a stream command's address. -/
def State.streamCode (s : State) (a : BitVec 24) (kind : Rg → Bool) : Nat :=
  joinCode (alignCode a) (if (s.streamAt a kind).isSome then lcOk else lcKind)

def isSubmit : Rg → Bool | .tqSubmit _ _ => true | _ => false
def isCommit : Rg → Bool | .tqCommit _ _ => true | _ => false
def isFetch : Rg → Bool | .tqCpl _ _ => true | .rxfFetch _ _ => true | _ => false

/-- A FETCH begins at a host address (R639). -/
def State.hostFetchOpen (s : State) (h : HostPort) (a : BitVec 24) : OpenTx × State :=
  match s.hostRight h a.toNat, s.streamAt a isFetch with
  | .no, _ => (.fetch (deadFetch lcAccess), s.hostDenied s h)
  | .yes, some (via, r) =>
    let x := s.fetchOpen (.host h) via r
    (.fetch x.1, x.2)
  | _, _ => (.fetch (deadFetch lcOk), s)

/-- A DOORBELL of source `k`: it rings a doorbell source of a pan bound to the port, else is ignored with ACCESS (R559, R641). -/
def State.hostDoorbell (s : State) (h : HostPort) (k : Nat) : Served :=
  let n := s.srcOwner k
  let ok := (s.portPans h).contains n && 96 ≤ k && k ≤ 119
  if ok then (lcOk, [], s.doorbell n k) else (lcAccess, [], s.panFaults (s.portPans h) fltAccess)

end Machine

end Sys2Proof
end

