-- ==== Sys2Proof/Machine/Thread.lean ====
section
/-! DEFINITION. What the engine's threads reach: the thread address map, loads and stores, special registers (chapter 13). -/

namespace Sys2Proof

open Machine

namespace Machine

/-! ### The thread address map (Table 13-5) -/

/-- The place a thread of pan `n` reaches at the word address `a`, and its host address where it lies in RAM; none outside its
reach (R486, R487). -/
def State.thrPlace (s : State) (n : Fin 4) (a : Nat) : Option (Place × Nat) :=
  if a < 0x4000 then
    let r := s.scratchRegion n
    if a < r.2 then some (.scratch, r.1 + a) else none
  else if a < 0x10000 then none
  else if a < 0x20000 then
    let r := s.iramRegion n
    if a - 0x10000 < r.2 then some (.iram, r.1 + (a - 0x10000)) else none
  else if a < 0x3F800 then
    (s.slotGlobal n ((a - 0x20000) / 96)).map fun g => (.brine g ((a - 0x20000) % 96 / 4), 0)
  else if a < 0x40000 then none
  else if a < 0x44000 then some (.rom ((a - 0x40000) / 4), 0)
  else if a < 0x50000 then none
  else if a < 0x51000 then some (.reg (.win n) (a - 0x50000), 0)
  else if a < 0x52000 then (if n = 0 then some (.reg .sys (a - 0x51000), 0) else none)
  else if a < 0x60000 then none
  else if a < 0x62000 then some (.bit (.win n) ((a - 0x60000) / 128 * 4) (a % 128 / 4), 0)
  else if a < 0x68000 then none
  else if a < 0x70000 then (if n = 0 then some (.bit .sys ((a - 0x68000) / 128 * 4) (a % 128 / 4), 0) else none)
  else none

/-- The word a thread reads at a place, with the read effects of a register (R489, R490). -/
def State.thrRead (s : State) (t : Fin 8) (x : Place × Nat) : Word × State :=
  match x.1 with
  | .reg via o => s.regRead (.thread t) via (s.regAt via o)
  | .bit via o b => (s.aliasRead (.thread t) via (s.regAt via o) b, s)
  | .brine g w => (s.slotWord g w, s)
  | .iram => (memWord s.mem x.2, s)
  | .scratch => (memWord s.mem x.2, s)
  | .rom i => (Config.rom i, s)
  | .reserved => (0, s)

/-- The capability a register write through a place lacks: the thread faults CAPABILITY before any effect (R459, Table 12-4). -/
def State.thrCapMissing (s : State) (t : Fin 8) (x : Place × Nat) (v : Word) : Bool :=
  match x.1 with
  | .reg via o => !s.resetting via && s.capMissing via (s.regAt via o) v
  | .bit via o b => !s.resetting via && s.aliasCapMissing (.thread t) via (s.regAt via o) b (bitOf v 0)
  | _ => false

/-- A word a thread writes at a place it may write (R490, R491). -/
def State.thrWrite (s : State) (t : Fin 8) (x : Place × Nat) (v : Word) : State :=
  match x.1 with
  | .reg via o => (s.regWrite (.thread t) via (s.regAt via o) v).2
  | .bit via o b => (s.aliasWrite (.thread t) via (s.regAt via o) b (bitOf v 0)).2
  | .brine g w => (s.writeSlot (.thread t) g w v).2
  | .scratch => { s with mem := memPutWord s.mem x.2 v }
  | _ => s

/-- Instruction RAM and ROM take no store (R492). -/
def Place.stores : Place → Bool
  | .iram => false
  | .rom _ => false
  | _ => true

/-! ### Loads and stores (R488-R492) -/

/-- The byte address of a load or store. -/
def State.effAddr (s : State) (t : Fin 8) (base : Fin 16) (off : BitVec 16) : Nat := (s.gReg t base + off.signExtend 32).toNat

/-- The word address below a byte address. -/
def wordAddr (a : Nat) : Nat := a - a % 4

/-- The addressed part of a word, `size` bytes from byte `a mod 4`, zero- or sign-extended. -/
def loadPart (w : Word) (a size : Nat) (signed : Bool) : Word :=
  let v := bitsOf w (8 * (a % 4)) (8 * size)
  if signed && v.testBit (8 * size - 1) then BitVec.ofNat 32 v - BitVec.ofNat 32 (2 ^ (8 * size)) else BitVec.ofNat 32 v

/-- The word a store of `size` bytes writes over `old`. -/
def storePart (old : Word) (a size : Nat) (v : Word) : Word := putBits old (8 * (a % 4)) (8 * size) v.toNat

/-- What stands in the byte lanes that a store does not address: the memory's bytes, zero in a register (R490, R491). -/
def State.oldWord (s : State) (x : Place × Nat) : Word :=
  match x.1 with
  | .brine g w => s.slotWord g w
  | .scratch => memWord s.mem x.2
  | _ => 0

/-- A load of `size` bytes. -/
def State.load (s : State) (t : Fin 8) (rt base : Fin 16) (off : BitVec 16) (size : Nat) (signed : Bool) : State :=
  s.issue t fun s =>
    let a := s.effAddr t base off
    match s.thrPlace (s.thrPan t) (wordAddr a) with
    | none => s.threadFault t fcForeign
    | some x =>
      if a % size ≠ 0 then s.threadFault t fcMisaligned
      else
        let r := s.thrRead t x
        (r.2.putG t rt (loadPart r.1 a size signed)).advance t

/-- A store of `size` bytes. One that resets the thread's own pan leaves its PC at the reset value (R317, R493). -/
def State.store (s : State) (t : Fin 8) (rt base : Fin 16) (off : BitVec 16) (size : Nat) : State :=
  s.issue t fun s =>
    let a := s.effAddr t base off
    match s.thrPlace (s.thrPan t) (wordAddr a) with
    | none => s.threadFault t fcForeign
    | some x =>
      let v := storePart (s.oldWord x) a size (s.gReg t rt)
      if !x.1.stores then s.threadFault t fcIllegal
      else if a % size ≠ 0 then s.threadFault t fcMisaligned
      else if s.thrCapMissing t x v then s.threadFault t fcCapability
      else
        let s1 := s.thrWrite t x v
        (if s1.eng.thr[t].panRst && !s.eng.thr[t].panRst then s1 else s1.advance t).swReset

/-! ### Special registers (R498, R499, Table 13-9) -/

/-- csrr: the value and the state, none for a reserved number. -/
def State.csrRead (s : State) (t : Fin 8) (n : Nat) : Option (Word × State) :=
  let th := s.eng.thr[t]
  match n with
  | 0 => some (s.eng.tnow.setWidth 32, s.updThr t fun th => { th with tnowHi := s.eng.tnow.extractLsb' 32 32 })
  | 1 => some (th.tnowHi, s)
  | 2 => some (th.wake.setWidth 32, s)
  | 3 => some (th.wakeHi, s)
  | 4 => some (flag 0 th.wakeArmed, s)
  | 5 => some (th.evm.setWidth 32, s)
  | 6 => some ((s.events t).setWidth 32, s)
  | 8 => some (field 0 (s.thrLocal t) ||| field 4 (s.thrPan t).val ||| field 8 t.val, s)
  | 9 => some (field 0 (min 0xFFFF (s.charge t)) ||| field 16 (min 0xFFFF (s.limit t)), s)
  | 10 => some (s.pans[s.thrPan t].gen.setWidth 32, s)
  | _ => none

/-- csrw: none for a reserved number or a read-only register. -/
def State.csrWrite (s : State) (t : Fin 8) (n : Nat) (v : Word) : Option State :=
  match n with
  | 2 => some (s.armWake t (s.eng.thr[t].wakeHi ++ v))
  | 3 => some (s.updThr t fun th => { th with wakeHi := v })
  | 4 => some (if bitOf v 0 then s else s.updThr t fun th => { th with wakeArmed := false })
  | 5 => some (s.updThr t fun th => { th with evm := (v &&& 0x1F).setWidth 8 })
  | _ => none

/-- A csrr instruction. -/
def State.csrr (s : State) (t : Fin 8) (rd : Fin 16) (n : Nat) : State :=
  s.issue t fun s =>
    match s.csrRead t n with
    | some x => (x.2.putG t rd x.1).advance t
    | none => s.threadFault t fcIllegal

/-- A csrw instruction. -/
def State.csrw (s : State) (t : Fin 8) (n : Nat) (ra : Fin 16) : State :=
  s.issue t fun s =>
    match s.csrWrite t n (s.gReg t ra) with
    | some s1 => s1.advance t
    | none => s.threadFault t fcIllegal

/-! ### Access by a party outside a transaction's or an instruction's own command -/

/-- A host's one-word transaction in its simplest form (R627). -/
def plainXfer (h : HostPort) : Xfer := ⟨h, false, false, true, true, true⟩

/-- A thread's access at its core, without the instruction that makes it: nothing happens unless the thread may issue. -/
def State.asThread (s : State) (t : Fin 8) (k : State → State) : State :=
  if s.coreRuns && s.eng.thr[t].issues then (k s).swReset else s

/-- A thread's pan has the register's block or window: its own window, and the system block for P0 (R301, R454). -/
def State.thrReaches (s : State) (t : Fin 8) : Via → Bool
  | .sys => s.thrPan t == 0
  | .win n => s.thrPan t == n

/-- The byte offset of a register, where it has one. -/
def hostBase : Via → Nat
  | .sys => 0
  | .win n => 0x1000 + 0x1000 * n.val

/-- The right of a port to a block or window. -/
def State.viaRight (s : State) (h : HostPort) (via : Via) : Right := s.hostRight h (hostBase via)

/-- A write by a party of the register at offset `o` of a block or window: a host's WRITE of one word, a thread's store. -/
def State.partyWrite (s : State) (p : Party) (via : Via) (o : Nat) (v : Word) : State :=
  match p with
  | .host h => s.transact (plainXfer h) true lcOk fun s =>
    match s.viaRight h via with
    | .no => (lcAccess, [], s.hostDenied s h)
    | .quiet => (lcOk, [], s)
    | .yes =>
      let x := s.regWrite p via (s.regAt via o) v
      (x.1, [], x.2)
  | .thread t => s.asThread t fun s =>
    if !s.thrReaches t via then s.threadFault t fcForeign
    else if s.thrCapMissing t (.reg via o, 0) v then s.threadFault t fcCapability
    else s.thrWrite t (.reg via o, 0) v

/-- A read by a party of the register at offset `o`: a host's READ of one word, a thread's load; `out` takes the value. -/
def State.partyRead (s : State) (p : Party) (via : Via) (o : Nat) : State :=
  match p with
  | .host h => s.transact (plainXfer h) false lcOk fun s =>
    match s.viaRight h via with
    | .no => (lcAccess, [0], s.hostDenied s h)
    | .quiet => (lcOk, [0], s)
    | .yes =>
      let x := s.hostRegRead h false via (s.regAt via o)
      (x.1, [x.2.1], x.2.2.ret x.2.1)
  | .thread t => s.asThread t fun s =>
    if !s.thrReaches t via then s.threadFault t fcForeign
    else
      let x := s.thrRead t (.reg via o, 0)
      x.2.ret x.1

/-- A write by a party of bit `b` of the register at offset `o`, through its alias. -/
def State.partyBit (s : State) (p : Party) (via : Via) (o b : Nat) (v : Bool) : State :=
  match p with
  | .host h => s.transact (plainXfer h) true lcOk fun s =>
    match s.viaRight h via with
    | .no => (lcAccess, [], s.hostDenied s h)
    | .quiet => (lcOk, [], s)
    | .yes =>
      let x := s.aliasWrite p via (s.regAt via o) b v
      (x.1, [], x.2)
  | .thread t => s.asThread t fun s =>
    if !s.thrReaches t via then s.threadFault t fcForeign
    else if s.thrCapMissing t (.bit via o b, 0) (flag 0 v) then s.threadFault t fcCapability
    else s.thrWrite t (.bit via o b, 0) (flag 0 v)

/-- A read of `k` words at a FETCH address by a party: a host's FETCH; a thread's loads of the stream, as far as one reads (R638). -/
def State.partyFetch (s : State) (p : Party) (n : Fin 4) (o k : Nat) : State :=
  match p with
  | .host h => s.readTx (plainXfer h) lcOk k true false fun s => s.hostFetchOpen h (BitVec.ofNat 24 (hostBase (.win n) + o))
  | .thread t => s.asThread t fun s =>
    if !s.thrReaches t (.win n) then s.threadFault t fcForeign
    else if k = 0 then s
    else (s.fetchAt p (.win n) (s.regAt (.win n) o) k true).2.2

/-- A word stored by a thread at an address of its own map, past the issue (Table 13-5). -/
def State.thrStoreAt (s : State) (t : Fin 8) (a : Nat) (v : Word) : State :=
  match s.thrPlace (s.thrPan t) (wordAddr a) with
  | none => s.threadFault t fcForeign
  | some x =>
    if !x.1.stores then s.threadFault t fcIllegal
    else if a % 4 ≠ 0 then s.threadFault t fcMisaligned
    else if s.thrCapMissing t x v then s.threadFault t fcCapability
    else s.thrWrite t x v

/-- A write at an address of the party's own map: a host's WRITE by Table 0-10, a thread's store by Table 13-5. -/
def State.partyWriteAt (s : State) (p : Party) (a : BitVec 24) (v : Word) : State :=
  match p with
  | .host h => s.transact (plainXfer h) true (alignCode a) fun s =>
    let x := s.hostWriteWord h false s a.toNat v
    (x.1, [], x.2)
  | .thread t => s.asThread t fun s => s.thrStoreAt t a.toNat v

/-- A write of word `w` of slot `g` by a party (R339-R341, R359). -/
def State.partySlotWrite (s : State) (p : Party) (g w : Nat) (v : Word) : State :=
  match p with
  | .host h => s.transact (plainXfer h) true lcOk fun s =>
    let x := s.hostWriteWord h false s (slotAddr g w) v
    (x.1, [], x.2)
  | .thread t => s.asThread t fun s =>
    if s.slotOwner g == s.thrPan t then (s.writeSlot p g w v).2 else s.threadFault t fcForeign

end Machine

end Sys2Proof
end

