-- ==== Sys2Proof/Machine/ExecEngine.lean ====
section
/-! DEFINITION. The commands of the engine and its threads (chapter 12). -/

namespace Sys2Proof.Machine

/-- The offset of ENG_TCTLn in a view, `n` in that view's numbering. -/
def tctlAt (via : Via) (n : Fin 8) : Nat := (match via with | .sys => 0x310 | .win _ => 0x080) + 8 * n.val

/-- ENG_GO: ENG_CTL written (R297, R443, R796-R798). -/
def execEngGo (p : Party) (v : Word) (s : State) : Out := .next (s.partyWrite p .sys 0x300 v)

/-- AUTHENTICATION_DONE (R797). -/
def execAuthenticationDone (s : State) : Out := .next (if s.coreRuns then s.authEnd else s)

/-- ENG_KICK: ENG_CTL written (R461). -/
def execEngKick (p : Party) (v : Word) (s : State) : Out := .next (s.partyWrite p .sys 0x300 v)

/-- THREAD_START: ENG_TCTLn written (R441). -/
def execThreadStart (p : Party) (via : Via) (n : Fin 8) (v : Word) (s : State) : Out := .next (s.partyWrite p via (tctlAt via n) v)

/-- THREAD_HALT_WRITE: ENG_TCTLn written (R442). -/
def execThreadHaltWrite (p : Party) (via : Via) (n : Fin 8) (v : Word) (s : State) : Out :=
  .next (s.partyWrite p via (tctlAt via n) v)

/-- TNOW comes to an armed WAKE (DESIGN CHOICE, log 17). -/
def State.comeToWake (s : State) (t : Fin 8) : State :=
  if s.eng.thr[t].wakeArmed && s.eng.tnow < s.eng.thr[t].wake then s.updEng fun e => { e with tnow := e.thr[t].wake } else s

/-- WAKE_COMPARE_REACHED (R447). -/
def execWakeCompareReached (t : Fin 8) (s : State) : Out := .next (if s.coreRuns then (s.comeToWake t).wakeReached t else s)

/-- BREAKPOINT_HIT (R467). -/
def execBreakpointHit (t : Fin 8) (s : State) : Out :=
  .next (if s.coreRuns && s.eng.thr[t].state == .running && s.atBreakpoint t then s.meetBreak t else s)

end Sys2Proof.Machine
end

