-- ==== Sys2Proof/Machine/Debug.lean ====
section
/-! DEFINITION. The debug command of a host port (R465-R468, R643). -/

namespace Sys2Proof.Machine

/-- Result codes of Table 18-10's result word. -/
def dbOk : Nat := 0
def dbRefused : Nat := 1
def dbBusy : Nat := 2
def dbNotDebug : Nat := 3
def dbBadOp : Nat := 4

/-- The pan and the pan-local thread of a TARGET byte. -/
def targetPan (x : Byte) : Fin 4 := idx 4 (bitsOf x 4 2)
def targetNo (x : Byte) : Nat := bitsOf x 0 3

/-- BADCMD for a TARGET whose reserved bits are not zero. -/
def targetCode (x : Byte) : Nat := if bitsOf x 6 2 = 0 ∧ !bitOf x 3 then lcOk else lcBadCmd

/-- The thread a TARGET names, if the pan has it. -/
def State.targetThread (s : State) (x : Byte) : Option (Fin 8) := ((s.panThreads (targetPan x))[targetNo x]?).map (idx 8)

/-- What a DBG answers: a result code, a value, the state. -/
abbrev DbgOut := Nat × Word × State

/-- The two words a DBG returns: the result word with the thread's STATE after the request, and the value. -/
def dbgWords (t : Option (Fin 8)) (x : DbgOut) : List Word :=
  [field 0 x.1 ||| field 8 ((t.map fun t => thCode x.2.2.eng.thr[t].state).getD 0), x.2.1]

/-- A DBG on the named thread: refused by DBGLOCK; refused and noted by DBGOFF and for a pan that is not the port's; BADOP for a
thread beyond the pan's; then `k` (R465, R468, R643). -/
def State.dbg (s : State) (h : HostPort) (target : Byte) (k : Fin 8 → DbgOut) : Served :=
  let mine := (s.portPans h).contains (targetPan target)
  let shown := if mine then s.targetThread target else none
  if s.sys.dbgLock then (lcOk, dbgWords shown (dbRefused, 0, s), s)
  else if s.otp.dbgOff || !mine then
    let s1 := s.hostDenied s h
    (lcOk, dbgWords shown (dbRefused, 0, s1), s1)
  else
    match s.targetThread target with
    | none => (lcOk, dbgWords none (dbBadOp, 0, s), s)
    | some t =>
      let x := k t
      (lcOk, dbgWords (some t) x, x.2.2)

/-- OP 0x01: the thread stops in DEBUG; a wait in progress stays with it (R466). A HALTED thread is in no state to be stopped: it stays
HALTED until it is started (R460, R470; DEDUCED, log 36). -/
def State.dbgHalt (s : State) (t : Fin 8) : DbgOut :=
  if s.eng.thr[t].state == .halted then (dbNotDebug, 0, s)
  else (dbOk, 0, s.updThr t fun th => { th with state := .debug, stepping := false })

/-- A wait taken up again after DEBUG: it ends if what it waits for has come, or TIMEOUT if WAKE was reached meanwhile (R466). -/
def State.rewait (s : State) (t : Fin 8) (w : WaitOn) : State :=
  let hit := s.eng.thr[t].wakeHit
  let s1 := s.updThr t fun th => { th with state := .waiting, wakeHit := false }
  let s2 :=
    match w with
    | .events _ => s1.checkWait t
    | .lock rd l => if (s1.eng.locks[l]).isNone && !hit then (s1.setLock l (some t)).endWait t rd 0 else s1
    | .join rd c =>
      let ch := s1.eng.thr[c]
      if ch.parent != some t then s1.endWait t rd resNotChild
      else if ch.state == .halted && !hit then (s1.endWait t rd ch.joinResult).updThr c fun x => { x with parent := none } else s1
  if hit && s2.eng.thr[t].state == .waiting then s2.endWait t s2.eng.thr[t].waitRd resTimeout else s2

/-- OP 0x02: the thread goes on, or takes up its wait. -/
def State.dbgResume (s : State) (t : Fin 8) : DbgOut :=
  if s.eng.thr[t].state != .debug then (dbNotDebug, 0, s)
  else
    let s1 := s.updThr t fun th => { th with stepping := false }
    match s.eng.thr[t].waitOn with
    | some w => (dbOk, 0, s1.rewait t w)
    | none => (dbOk, 0, s1.updThr t fun th => { th with state := .running })

/-- OP 0x03: one instruction, or the rest of a wait, then DEBUG again (R466). -/
def State.dbgStep (s : State) (t : Fin 8) : DbgOut :=
  if s.eng.thr[t].state != .debug then (dbNotDebug, 0, s)
  else
    let s1 := s.updThr t fun th => { th with stepping := true }
    match s.eng.thr[t].waitOn with
    | some w => (dbOk, 0, s1.rewait t w)
    | none => (dbOk, 0, s1)

/-- INDEX names a register: g1-g15, PC, WAKE_LO, WAKE_HI, EVM. -/
def dbgIndexOk (i : Byte) : Bool := 1 ≤ i.toNat && i.toNat ≤ 19

/-- The value of the register that INDEX names. -/
def State.dbgValue (s : State) (t : Fin 8) (i : Byte) : Word :=
  let th := s.eng.thr[t]
  match i.toNat with
  | 16 => th.pc.setWidth 32
  | 17 => th.wake.setWidth 32
  | 18 => th.wakeHi
  | 19 => th.evm.setWidth 32
  | k => s.gReg t (idx 16 k)

/-- OP 0x04: a register of a HALTED or debugged thread. -/
def State.dbgRead (s : State) (t : Fin 8) (i : Byte) : DbgOut :=
  if !dbgIndexOk i then (dbBadOp, 0, s)
  else if s.eng.thr[t].state == .halted || s.eng.thr[t].state == .debug then (dbOk, s.dbgValue t i, s)
  else (dbNotDebug, 0, s)

/-- A register written by INDEX; WAKE as csrw writes it (Table 13-9): a value that TNOW has passed is reached meanwhile (R466, R499). -/
def State.dbgPut (s : State) (t : Fin 8) (i : Byte) (v : Word) : State :=
  match i.toNat with
  | 16 => s.updThr t fun th => { th with pc := v.setWidth 15, bpMet := false }
  | 17 => (s.armWake t (s.eng.thr[t].wakeHi ++ v)).updThr t fun th => { th with wakeHit := th.waitOn.isSome && !th.wakeArmed }
  | 18 => s.updThr t fun th => { th with wakeHi := v }
  | 19 => s.updThr t fun th => { th with evm := (v &&& 0x1F).setWidth 8 }
  | k => s.putG t (idx 16 k) v

/-- OP 0x05: a register of a debugged thread. -/
def State.dbgWrite (s : State) (t : Fin 8) (i : Byte) (v : Word) : DbgOut :=
  if !dbgIndexOk i then (dbBadOp, 0, s)
  else if s.eng.thr[t].state == .debug then (dbOk, 0, s.dbgPut t i v)
  else (dbNotDebug, 0, s)

def State.setBp (s : State) (k : Fin 4) (b : Option Breakpoint) : State := s.updEng fun e => { e with bp := e.bp.set k.val b k.isLt }

/-- OP 0x06: the lowest free comparator, for the pan of TARGET (R467). -/
def State.dbgSet (s : State) (n : Fin 4) (i : Byte) (v : Word) : DbgOut :=
  if i != 0 then (dbBadOp, 0, s)
  else
    match (List.finRange 4).find? fun (k : Fin 4) => (s.eng.bp[k]).isNone with
    | none => (dbBusy, 0, s)
    | some k => (dbOk, field 0 k.val, s.setBp k (some ⟨v.setWidth 15, n, BitVec.ofNat 8 (bitsOf v 16 8)⟩))

/-- OP 0x07: the comparator of INDEX, if the pan holds it. -/
def State.dbgClear (s : State) (h : HostPort) (n : Fin 4) (i : Byte) : DbgOut :=
  if 4 ≤ i.toNat then (dbBadOp, 0, s)
  else
    match s.eng.bp[idx 4 i.toNat] with
    | some b => if b.pan = n then (dbOk, 0, s.setBp (idx 4 i.toNat) none) else (dbRefused, 0, s.hostDenied s h)
    | none => (dbOk, 0, s)

end Sys2Proof.Machine
end

