-- ==== Sys2Proof/Machine/ExecHost.lean ====
section
/-! DEFINITION. The transactions of the host ports (chapter 18). -/

namespace Sys2Proof.Machine

/-- One word out of a read. -/
def oneWord (x : Nat × Word × State) : Served := (x.1, [x.2.1], x.2.2)

/-- READ (R627, R630). -/
def execHostRead (x : Xfer) (addr : BitVec 24) (s : State) : Out :=
  .next (s.transact x false (alignCode addr) fun s => oneWord (s.hostReadWord x.port s addr.toNat))

/-- WRITE (R627, R629). -/
def execHostWrite (x : Xfer) (addr : BitVec 24) (v : Word) (s : State) : Out :=
  .next (s.transact x true (alignCode addr) fun s =>
    let y := s.hostWriteWord x.port false s addr.toNat v
    (y.1, [], y.2))

/-- READ_BURST (R630, R637, R638): from its CS_N fall, or the next words of the port's burst under way. -/
def execHostReadBurst (x : Xfer) (addr : BitVec 24) (part : ReadPart) (s : State) : Out :=
  match s.host[x.port.ix].tx with
  | some (.burst b) => .next (s.moreWords x (.burst b) s.host[x.port.ix].resp part.words false part.more)
  | _ => .next (s.readTx x (alignCode addr) part.words false part.more fun s => (.burst (s.burstOpen x.port addr.toNat), s))

/-- FRAME for a write-type transaction of no word or of more than 64 (R636, R637). -/
def wordsCode (vs : List Word) : Nat := if wordsWf vs.length then lcOk else lcFrame

/-- WRITE_BURST (R629, R637, R638). -/
def execHostWriteBurst (x : Xfer) (addr : BitVec 24) (vs : List Word) (s : State) : Out :=
  .next (s.transact x true (joinCode (alignCode addr) (wordsCode vs)) fun s => s.hostWrites x.port addr.toNat vs s)

/-- SUBMIT (R627, R638): the first word to TQn_SUBMIT, the rest to TQn_SDATA. -/
def execHostSubmit (x : Xfer) (addr : BitVec 24) (vs : List Word) (s : State) : Out :=
  .next (s.transact x true (joinCode (s.streamCode addr isSubmit) (wordsCode vs)) fun s =>
    let y := s.hostWriteWord x.port false s addr.toNat (vs.headD 0)
    let z := s.hostFills x.port (addr.toNat + 4) vs.tail y.2
    (joinCode y.1 z.1, [], z.2.2))

/-- COMMIT (R640). -/
def execHostCommit (x : Xfer) (addr : BitVec 24) (s : State) : Out :=
  .next (s.transact x false (s.streamCode addr isCommit) fun s => oneWord (s.hostReadWord x.port s addr.toNat))

/-- FETCH (R639): from its CS_N fall, or the next words of the port's FETCH under way. -/
def execHostFetch (x : Xfer) (addr : BitVec 24) (part : ReadPart) (ack : Bool) (s : State) : Out :=
  match s.host[x.port.ix].tx with
  | some (.fetch f) => .next (s.moreWords x (.fetch f) s.host[x.port.ix].resp part.words (!x.crc || ack) part.more)
  | _ =>
    .next (s.readTx x (s.streamCode addr isFetch) part.words (!x.crc || ack) part.more fun s => s.hostFetchOpen x.port addr)

/-- DOORBELL (R641): the address bytes hold the source number alone. -/
def execHostDoorbell (x : Xfer) (v : Word) (s : State) : Out :=
  .next (s.transact x true (if v < 128 then lcOk else lcBadCmd) fun s => s.hostDoorbell x.port v.toNat)

/-- STATUS (R641): served whatever RDY is; its read clears ERRCNT. -/
def State.hostStatus (s : State) (x : Xfer) : State :=
  if !s.pow.vioOk then s
  else
    let s := s.closePort x.port
    let status := s.statusByte x.port x.busy
    let s0 := s.endRequest false
    let code := joinCode (if x.busy then lcBusy else lcOk)
      (joinCode (if x.reached then lcOk else lcFrame) (if x.crc && !x.crcOk then lcCrc else lcOk))
    if code ≠ 0 then s0.endTx x.port status (code, [])
    else (s0.updHost x.port fun y => { y with errCnt := 0 }).endTx x.port status
      (if x.countOk then lcOk else lcFrame, [s0.statusWord x.port])

/-- STATUS. -/
def execHostStatus (x : Xfer) (s : State) : Out := .next (s.hostStatus x)

/-- TRANSACTION_STALL: the core closes the transaction as FRAME, a read under way among them (R647). -/
def execTransactionStall (port : HostPort) (s : State) : Out :=
  match s.host[port.ix].tx with
  | some o => .next (s.closeTx port o s.host[port.ix].resp lcFrame)
  | none => .next (s.transact ⟨port, false, false, false, true, false⟩ true lcOk fun s => (lcOk, [], s))

/-- BADCMD_TRANSACTION (R634): `op` is the command byte; a byte that breaks nothing begins no transaction of this row (log 1). -/
def execBadcmdTransaction (port : HostPort) (op : Byte) (s : State) : Out :=
  .next (if badCommand op then s.transact (plainXfer port) true lcBadCmd fun s => (lcOk, [], s) else s)

/-- DBG 0x01 (R643). -/
def execDbgHalt (x : Xfer) (target : Byte) (s : State) : Out :=
  .next (s.transact x false (targetCode target) fun s => s.dbg x.port target fun t => s.dbgHalt t)

/-- DBG 0x02 (R466, R643). -/
def execDbgResume (x : Xfer) (target : Byte) (s : State) : Out :=
  .next (s.transact x false (targetCode target) fun s => s.dbg x.port target fun t => s.dbgResume t)

/-- DBG 0x03 (R466). -/
def execDbgStep (x : Xfer) (target : Byte) (s : State) : Out :=
  .next (s.transact x false (targetCode target) fun s => s.dbg x.port target fun t => s.dbgStep t)

/-- DBG 0x04 (R643). -/
def execDbgReadReg (x : Xfer) (target index : Byte) (s : State) : Out :=
  .next (s.transact x false (targetCode target) fun s => s.dbg x.port target fun t => s.dbgRead t index)

/-- DBG 0x05 (R643). -/
def execDbgWriteReg (x : Xfer) (target index : Byte) (v : Word) (s : State) : Out :=
  .next (s.transact x false (targetCode target) fun s => s.dbg x.port target fun t => s.dbgWrite t index v)

/-- DBG 0x06 (R467). -/
def execDbgSetBreakpoint (x : Xfer) (target index : Byte) (v : Word) (s : State) : Out :=
  .next (s.transact x false (targetCode target) fun s => s.dbg x.port target fun _ => s.dbgSet (targetPan target) index v)

/-- DBG 0x07 (R643): the operand is the comparator, as INDEX. -/
def execDbgClearBreakpoint (x : Xfer) (target index : Byte) (s : State) : Out :=
  .next (s.transact x false (targetCode target) fun s => s.dbg x.port target fun _ => s.dbgClear x.port (targetPan target) index)

end Sys2Proof.Machine
end

