-- ==== Sys2Proof/Machine/ExecIrq.lean ====
section
/-! DEFINITION. The commands of the interrupt controller (chapter 15). -/

namespace Sys2Proof.Machine

/-- IC_PEND_SET (R541): a word of the system block, or the selected source of a window. -/
def execIcPendSet (p : Party) (via : Via) (w : Fin 4) (v : Word) (s : State) : Out :=
  .next (s.partyWrite p via (match via with | .sys => 0x880 + 4 * w.val | .win _ => 0x0F0) v)

/-- IC_PEND_CLR (R543). -/
def execIcPendClr (p : Party) (via : Via) (w : Fin 4) (v : Word) (s : State) : Out :=
  .next (s.partyWrite p via (match via with | .sys => 0x890 + 4 * w.val | .win _ => 0x0F4) v)

/-- IC_EN_SET (R544). -/
def execIcEnSet (p : Party) (via : Via) (w : Fin 4) (v : Word) (s : State) : Out :=
  .next (s.partyWrite p via (match via with | .sys => 0x8A0 + 4 * w.val | .win _ => 0x0F8) v)

/-- IC_EN_CLR (R544). -/
def execIcEnClr (p : Party) (via : Via) (w : Fin 4) (v : Word) (s : State) : Out :=
  .next (s.partyWrite p via (match via with | .sys => 0x8B0 + 4 * w.val | .win _ => 0x0FC) v)

/-- IC_CLAIM (R547): the target is `h` in the system block, the pan's port's in a window. -/
def execIcClaim (p : Party) (via : Via) (h : HostPort) (s : State) : Out :=
  .next (s.partyRead p via (match via with | .sys => 0x810 + 4 * h.ix.val | .win _ => 0x06C))

/-- IC_DONE (R554). -/
def execIcDone (p : Party) (via : Via) (h : HostPort) (v : Word) (s : State) : Out :=
  .next (s.partyWrite p via (match via with | .sys => 0x818 + 4 * h.ix.val | .win _ => 0x070) v)

/-- A doorbell rung outside the system block: a host's DOORBELL command, a thread's ring (R559, R526). -/
def State.ringBy (s : State) (p : Party) (n : Fin 4) (v : Word) : State :=
  match p with
  | .host h => s.transact (plainXfer h) true lcOk fun s => s.hostDoorbell h (bitsOf v 0 7)
  | .thread t => s.asThread t fun s => if s.thrPan t == n then s.doorbell n (bitsOf v 0 7) else s.threadFault t fcForeign

/-- IC_DOORBELL (R559). -/
def execIcDoorbell (p : Party) (via : Via) (v : Word) (s : State) : Out :=
  match via with
  | .sys => .next (s.partyWrite p .sys 0x820 v)
  | .win n => .next (s.ringBy p n v)

/-- IC_UNWIND: IC_CTL, or PAN_CTL in a window (R721, R750). -/
def execIcUnwind (p : Party) (via : Via) (v : Word) (s : State) : Out :=
  .next (s.partyWrite p via (match via with | .sys => 0x800 | .win _ => 0x004) v)

/-- HOLDOFF_END: the group stops holding the target (R558). -/
def execHoldoffEnd (hg : Fin 8) (tgt : Fin 10) (s : State) : Out :=
  .next (if s.coreRuns then (s.updIrq fun q => { q with held := tabUpd q.held hg fun m => putBit m tgt.val false }).settleWaits else s)

end Sys2Proof.Machine
end

