-- ==== Sys2Proof/Machine/ExecLine.lean ====
section
/-! DEFINITION. The commands of the line ports, tide and the shutdown path (chapters 1 to 6, 24). Those of the core and line
domains do nothing while the core clock is stopped. -/

namespace Sys2Proof.Machine

/-- An event of a domain that the core clock drives. -/
def State.whileRunning (s : State) (k : State → State) : State := if s.coreRuns then k s else s

/-- LINE_PORT_ENABLE: EN of a port set through its alias (R18, R67). -/
def execLinePortEnable (p : Party) (port : LinePort) (s : State) : Out :=
  .next (s.partyBit p .sys (match port with | .plc => 0x0A4 | .pair => 0x0B4) 0 true)

/-- PORT_IDLE_SYNC (R131). -/
def execPortIdleSync (port : LinePort) (s : State) : Out := .next (s.idleSync port)

/-- SOF_OPPORTUNITY (R132, R399). -/
def execSofOpportunity (port : LinePort) (s : State) : Out := .next (s.opportunity port).settle

/-- TRANSMIT_ATTEMPT (R157). -/
def execTransmitAttempt (port : LinePort) (e : TxEnd) (s : State) : Out := .next (s.attemptEnd port e)

/-- Traffic on an enabled port ends a pending LISTEN request (R777, R800). -/
def State.hearsTraffic (s : State) (port : LinePort) : State := if s.portEn port then s.endRequest true else s

/-- RECEIVE_FRAME (R106, Table 4-3). -/
def execReceiveFrame (port : LinePort) (f : Frame) (sof : Instant) (margin : Byte) (e : RxEnd) (s : State) : Out :=
  .next ((s.hearsTraffic port).receive port f.norm sof margin e)

/-- TIDE_FRAME_RX (R182). -/
def execTideFrameRx (port : LinePort) (f : Frame) (arrival : Instant) (s : State) : Out :=
  .next ((s.hearsTraffic port).receiveTide port f.norm arrival)

/-- SOUND_REQUEST_RX (R69). -/
def execSoundRequestRx (port : LinePort) (f : Frame) (sof : Instant) (s : State) : Out :=
  .next ((s.hearsTraffic port).soundRequest port f.norm sof)

/-- SOUND_RESULT_RX (R71). -/
def execSoundResultRx (port : LinePort) (f : Frame) (s : State) : Out :=
  .next ((s.hearsTraffic port).hearResult port f.norm)

/-- DELAY_APPLY (R77). -/
def execDelayApply (s : State) : Out := .next (s.whileRunning State.applyDelay)

/-- CLOCK_MOVE (R209). -/
def execClockMove (s : State) : Out := .next (s.whileRunning State.clockIdle)

/-- TIDE_SECOND (R175). -/
def execTideSecond (s : State) : Out := .next (s.whileRunning State.secondWrap)

/-- TIDE_BOUNDARY (R178). -/
def execTideBoundary (s : State) : Out := .next (s.whileRunning State.boundary)

/-- MISSING_PERIOD (R191). -/
def execMissingPeriod (s : State) : Out := .next (s.whileRunning State.missedPeriod)

/-- LOCKED falls to HOLDOVER at the integral rate (R189). -/
def State.toHoldover (s : State) : State :=
  if s.tide.sending || s.tide.lock != .locked then s else ((s.setTideLock .holdover).updTide Tide.freeze).settle

/-- HOLDOVER_TIMEOUT (R189). -/
def execHoldoverTimeout (s : State) : Out := .next (s.whileRunning State.toHoldover)

/-- ACQUIRE or HOLDOVER falls to FREE (R189). -/
def State.lockLost (s : State) (k : Lock) : State := if s.tide.sending || s.tide.lock != k then s else s.toFree.settle

/-- ACQUIRE_TIMEOUT (R189). -/
def execAcquireTimeout (s : State) : Out := .next (s.whileRunning fun s => s.lockLost .acquire)

/-- HOLDMAX_EXPIRY (R189). -/
def execHoldmaxExpiry (s : State) : Out := .next (s.whileRunning fun s => s.lockLost .holdover)

/-- KEEPER_LISTEN_END (R196). -/
def execKeeperListenEnd (s : State) : Out := .next (s.whileRunning State.listenEnd)

/-- SLEW_PROGRESS (R201). -/
def execSlewProgress (s : State) : Out := .next (s.whileRunning State.slewSecond)

/-- SEARCH_DWELL_END (R57). -/
def execSearchDwellEnd (s : State) : Out := .next s.dwellEnd

/-- NOISE_AVERAGE (R55). -/
def execNoiseAverage (c12 c34 c56 : Int × Int) (s : State) : Out := .next (s.noise (noiseOfPlans c12 c34 c56))

/-- COUNT_COMMIT (R146). -/
def execCountCommit (port : LinePort) (now : Nat) (s : State) : Out :=
  .next ((s.whileRunning fun s => (s.bringAon now).commitCount port (s.bringAon now).aonUs).settle)

/-- QUARANTINE_SEQUENCE (R151). -/
def execQuarantineSequence (port : LinePort) (s : State) : Out := .next ((s.whileRunning fun s => s.quarantineStep port).settle)

/-- PASSIVE_SUSPENSION_END (R150). -/
def execPassiveSuspensionEnd (port : LinePort) (s : State) : Out := .next (s.whileRunning fun s => s.suspensionEnd port)

/-- An item with a deadline that is not on the wire completes EXPIRED (R158). -/
def State.expire (s : State) (i : ItemRef) : State :=
  match i with
  | .queue p q g =>
    match (s.tq p q).items.find? fun x => x.slot == g && x.st == .queued with
    | some x => if (s.slotDeadline g).isSome then s.completeItem p q g stExpired (.waiting (s.tq p q).port x.last) else s
    | none => s
  | .fired g =>
    match s.sched.fired.find? fun x => x.slot == g with
    | some x =>
      if (s.slotDeadline g).isSome && !s.onWire g then s.completeFired x stExpired (.waiting (s.tq x.pan x.q).port x.last) else s
    | none => s

/-- DEADLINE_EXPIRY (R158). -/
def execDeadlineExpiry (i : ItemRef) (s : State) : Out := .next (s.whileRunning fun s => s.expire i)

/-- A detector listens: an enabled port, the pair port only with its detector on, outside a reset (R226, R227, R778). -/
def State.detects (s : State) (port : LinePort) : Bool :=
  s.pow.state != .reset && (match port with | .plc => s.portEn .plc | .pair => s.pairSluice)

/-- A burst declared on a port (R146, R227, R228): count changes still waiting are dropped, the frame on the wire is cut, SAFE
latches. -/
def State.burstHeard (s : State) (port : LinePort) : State :=
  let i := match port with | .plc => 0 | .pair => 1
  let s1 := (s.endRequest false).updSlu fun u => { u with det := putBit u.det i true }
  let s2 := (s1.updPort port fun x => { x with commits := [] }).sluiceFrame port
  s2.safeLatch (match port with | .plc => causePlc | .pair => causePair)

/-- SLUICE_DETECTED (R227). -/
def execSluiceDetected (port : LinePort) (s : State) : Out := .next (if s.detects port then (s.burstHeard port).settle else s)

/-- SLUICE_BURST_END (R225). -/
def execSluiceBurstEnd (port : LinePort) (s : State) : Out :=
  .next (s.updSlu fun u => { u with burst := putBit u.burst (match port with | .plc => 0 | .pair => 1) false })

/-- SAFE_IN deasserted, detected bursts ended, as the flags say; then a waiting release (R232). -/
def State.unblock (s : State) (safeIn plc pair : Bool) : State :=
  let s1 := s.updSlu fun u =>
    { u with safeIn := u.safeIn && !safeIn, det := putBit (putBit u.det 0 (bitOf u.det 0 && !plc)) 1 (bitOf u.det 1 && !pair) }
  if s.pow.state = .reset then s1 else s1.tryRelease.settle

/-- RELEASE_UNBLOCKED (R232). -/
def execReleaseUnblocked (safeIn plc pair : Bool) (s : State) : Out := .next (s.unblock safeIn plc pair)

/-- KEEPALIVE_EXPIRY (R236): also in LISTEN and SLEEP, on the always-on clock. -/
def execKeepaliveExpiry (s : State) : Out := .next (if s.pow.state = .reset then s else s.lapse)

/-- SLU_FIRE: a write of SLU_CTL or PAN_SLU (R220, R221). -/
def execSluFire (p : Party) (via : Via) (v : Word) (s : State) : Out :=
  .next (s.partyWrite p via (match via with | .sys => 0x060 | .win _ => 0x034) v)

/-- SLU_PERMIT_GO: a write of SLU_PERMIT or PAN_SLU (R231). -/
def execSluPermitGo (p : Party) (via : Via) (v : Word) (s : State) : Out :=
  .next (s.partyWrite p via (match via with | .sys => 0x070 | .win _ => 0x034) v)

end Sys2Proof.Machine
end

