-- ==== Sys2Proof/Machine/LineOps.lean ====
section
/-! DEFINITION. The engine's instructions for threads, locks, frames, time, the schedule, interrupts and CRC (chapter 14), as
operations an issue runs. -/

namespace Sys2Proof.Machine

/-- A register operand ra that follows another: the group of sset and fltw. -/
def groupReg (ra : Fin 16) (k : Nat) : Fin 16 := idx 16 (ra.val + k)

/-- A register group begins at g1 to g12 (R523, Table 14-6). -/
def groupOk (ra : Fin 16) : Bool := 1 ≤ ra.val && ra.val ≤ 12

/-- A result in rd, and the next instruction. -/
def State.result (s : State) (t : Fin 8) (rd : Fin 16) (v : Word) : State := (s.putG t rd v).advance t

/-! ### Threads (R511-R514) -/

/-- fork (R444, R511). -/
def State.fork (s : State) (t : Fin 8) (rd ra rc : Fin 16) : State :=
  let loc := s.gReg t ra
  if bitsOf loc 15 17 ≠ 0 then s.threadFault t fcIllegal
  else
    match s.poolThread (s.thrPan t) with
    | none => s.result t rd resNone
    | some c =>
      let arg := s.gReg t rc
      let s2 := (s.updThr c fun th => { th.begin (loc.setWidth 15) (s.eng.tnow + 1) with parent := some t }).putG c 1 arg
      s2.result t rd (BitVec.ofNat 32 (s.thrLocal c))

/-- The child of `t` that a register value names (R512). -/
def State.childOf (s : State) (t : Fin 8) (v : Word) : Option (Fin 8) :=
  match (s.panThreads (s.thrPan t))[v.toNat]? with
  | some c => if s.eng.thr[idx 8 c].parent = some t ∧ idx 8 c ≠ t then some (idx 8 c) else none
  | none => none

/-- join (R446, R512). -/
def State.join (s : State) (t : Fin 8) (rd ra : Fin 16) : State :=
  match s.childOf t (s.gReg t ra) with
  | none => s.result t rd resNotChild
  | some c =>
    if s.eng.thr[c].state = .halted then
      (s.updThr c fun th => { th with parent := none }).result t rd s.eng.thr[c].joinResult
    else s.beginWait t rd (.join rd c)

/-- wait (R449, R514). -/
def State.waitEvents (s : State) (t : Fin 8) (rd : Fin 16) : State :=
  let r := s.takeEvents t
  if r.1 ≠ 0 then r.2.result t rd (r.1.setWidth 32) else s.beginWait t rd (.events rd)

/-! ### Locks (R516) -/

/-- The global number of a pan-local lock of a thread's pan. -/
def State.lockGlobal (s : State) (t : Fin 8) (n : Nat) : Option (Fin 32) := ((s.panLocks (s.thrPan t))[n]?).map (idx 32)

/-- The thread holds a lock of this or a higher number (R408). -/
def State.lockOrderBroken (s : State) (t : Fin 8) (l : Fin 32) : Bool := (s.locksOf t).any fun k => l ≤ k

/-- lk.acq and lk.try of a lock: FOREIGN beyond the pan's, LOCK_ORDER, the lock if it is free, else `busy`. -/
def State.takeLock (s : State) (t : Fin 8) (rd : Fin 16) (n : Nat) (busy : Fin 32 → State → State) : State :=
  match s.lockGlobal t n with
  | none => s.threadFault t fcForeign
  | some l =>
    if s.lockOrderBroken t l then s.threadFault t fcLockOrder
    else if (s.eng.locks[l]).isNone then (s.setLock l (some t)).result t rd 0
    else busy l s

/-- lk.rel (R457). -/
def State.relLock (s : State) (t : Fin 8) (rd : Fin 16) (n : Nat) : State :=
  match s.lockGlobal t n with
  | none => s.threadFault t fcForeign
  | some l => if s.eng.locks[l] = some t then (s.releaseLock l).result t rd 0 else s.result t rd resNotHeld

/-! ### fput (R517) -/

/-- The frame of a source slot as fput offers it: the node's SOURCE, and on a native frame no bit of the ISO layout. -/
def State.offerFrame (s : State) (g : Nat) : Frame :=
  let f := s.slotFrame g
  if f.iso then f
  else { f with id := BitVec.ofNat 29 (bitsOf f.id 6 10 * 64 + s.line.addr.toNat), xtd := false, rmt := false
                data := (s.slotBytes g 8 16).take f.len }

/-- fput's outcome for a frame that reaches the checks of R108, R817 and R311, and the PAN_FAULT bits it sets. -/
def State.offerJudge (s : State) (n q : Fin 4) (g : Nat) : Nat × List Nat :=
  let tq := s.tq n q
  let f := s.offerFrame g
  let w5 := s.slotWord g 5
  if (s.freeSlots n tq).isEmpty then (stRefused, [])
  else s.frameJudge n tq.port
    (decide (64 < bitsOf (s.slotWord g 1) 0 7) || (bitOf w5 31 && decide (200000000 ≤ bitsOf w5 0 31))) f

/-- The item that fput queues: W0, W1, W5, W6 and the data words copied, the rest as R350 fills it. -/
def State.copyItem (s : State) (n q : Fin 4) (src dst : Nat) : State :=
  let iso := bitOf (s.slotWord src 0) 31
  let w0 := if iso then s.slotWord src 0 else BitVec.ofNat 32 (s.offerFrame src).id.toNat
  let w1 := s.slotWord src 1 &&& (if iso then 0x000FFFFF else 0x000F7FFF)
  let w2 := field 14 ownLine ||| field 11 ((s.tq n q).prod % 8) ||| field 16 s.pans[n].gen.toNat
  let ws := (List.range (dataWords (bitsOf w1 0 7))).map fun k => s.slotWord src (8 + k)
  (s.putSlotWords dst 0 ([w0, w1, w2, 0, 0, s.slotWord src 5, s.slotWord src 6, 0] ++ ws)).updTq n q fun tq =>
    { tq with items := tq.items ++ [⟨dst, .queued, false, none⟩] }

/-- An outcome of fput: counted in the queue, returned in rd. -/
def State.fputEnd (s : State) (t : Fin 8) (n q : Fin 4) (rd : Fin 16) (code : Nat) : State :=
  (s.updTq n q fun tq => tq.outcome code).result t rd (BitVec.ofNat 32 code)

/-- fput. -/
def State.fput (s : State) (t : Fin 8) (rd ra : Fin 16) (q : Fin 4) : State :=
  let n := s.thrPan t
  match s.slotGlobal n (s.gReg t ra).toNat with
  | none => s.threadFault t fcForeign
  | some g =>
    if !s.isCode n (.thread t) (s.tq n q).prod then
      ((s.ownRef n).updTq n q fun tq => { tq with cnt := incCnt tq.cnt 0 }).result t rd (BitVec.ofNat 32 stRefused)
    else if !s.slotHeldBy g t then (s.ownRef n).fputEnd t n q rd stRefused
    else
      let r := s.offerJudge n q g
      match r.1 == stAccepted, s.pickSlot (s.freeSlots n (s.tq n q)) with
      | true, some dst =>
        if s.limit t ≤ s.charge t then s.threadFault t fcQuota else (s.takeFree.copyItem n q g dst).fputEnd t n q rd stAccepted
      | _, _ => (s.panFaultBits n r.2).fputEnd t n q rd r.1

/-! ### fget and fpeek (R518, R519) -/

/-- A frame copied into a work slot: all but the destination's OWN and OTHR, and the data words beyond the frame's. -/
def State.copyFrame (s : State) (src dst : Nat) : State :=
  let w2 := merge (0xFFFF07FF : Word) (s.slotWord dst 2) (s.slotWord src 2)
  let ws := (List.range (dataWords (min 64 (bitsOf (s.slotWord src 1) 0 7)))).map fun k => s.slotWord src (8 + k)
  s.putSlotWords dst 0 ([s.slotWord src 0, s.slotWord src 1, w2] ++ (List.range 5).map (fun k => s.slotWord src (3 + k)) ++ ws)

/-- fget and fpeek: the source slot (none: nothing to take), whether the thread is entitled to it, and the removal. -/
def State.fgetFrom (s : State) (t : Fin 8) (rd ra : Fin 16) (src : Option Nat) (entitled : Bool) (remove : State → State) : State :=
  let n := s.thrPan t
  match s.slotGlobal n (s.gReg t ra).toNat with
  | none => s.threadFault t fcForeign
  | some dst =>
    if !s.slotHeldBy dst t || !entitled then (s.ownRef n).result t rd resNotHeld
    else
      match src with
      | none => s.result t rd resEmpty
      | some g => (remove (s.copyFrame g dst)).result t rd 0

def State.fgetTq (s : State) (t : Fin 8) (rd ra : Fin 16) (q : Fin 4) (remove : Bool) : State :=
  let n := s.thrPan t
  s.fgetFrom t rd ra (s.tq n q).done.head? (s.isCode n (.thread t) (s.tq n q).prod) fun s => 
    if remove then s.updTq n q fun tq => { tq with done := tq.done.drop 1 } else s

def State.fgetRxf (s : State) (t : Fin 8) (rd ra : Fin 16) (q : Fin 4) (remove : Bool) : State :=
  let n := s.thrPan t
  s.fgetFrom t rd ra (s.rxf n q).frames.head? (s.isCode n (.thread t) (s.rxf n q).cons) fun s =>
    if remove then s.updRxf n q fun rx => { rx with frames := rx.frames.drop 1 } else s

def State.fgetMbx (s : State) (t : Fin 8) (rd ra : Fin 16) (k : Nat) (remove : Bool) : State :=
  match s.slotGlobal (s.thrPan t) k with
  | none => s.threadFault t fcForeign
  | some g =>
    let seen := bitOf (s.slotWord g 2) 9
    s.fgetFrom t rd ra (if remove && seen then none else some g) (s.mailboxOf g) fun s =>
      if remove then s.putSlotWord g 2 (putBit (s.slotWord g 2) 9 true) else s

/-! ### fstat, tread (R520, R522) -/

def TxQueue.fstat (q : TxQueue) : Word :=
  field 0 q.last.toNat ||| field 8 q.level ||| field 16 q.done.length ||| field 24 q.trunc.toNat

def RxFifo.fstat (q : RxFifo) : Word :=
  field 0 q.level ||| field 8 q.ovfCnt.toNat ||| flag 16 q.ovf ||| field 24 q.part.toNat

/-- SCHn_STAT as fstat returns it, with the completion code of a MISSED or LATE result. -/
def SchEntry.fstat (x : SchEntry) : Word :=
  let code := if x.result = 2 then 13 else if x.result = 3 then 14 else 0
  (x.stat &&& 0x3FF) ||| field 16 code

/-- TIDE_STAT as every thread may read it (R522). -/
def Tide.treadStatus (t : Tide) : Word := t.status &&& 0x00073F03

/-! ### Schedule and filters (R523-R525) -/

/-- The global number of a pan-local schedule entry of a thread's pan. -/
def State.entryGlobal (s : State) (t : Fin 8) (n : Nat) : Option (Fin 32) := ((s.panEntries (s.thrPan t))[n]?).map (idx 32)

/-- sset: the fields of an IDLE entry, then the arming write; another entry keeps its values and shows WREJ. -/
def State.sset (s : State) (t : Fin 8) (rd ra : Fin 16) (n : Nat) : State :=
  if !groupOk ra then s.threadFault t fcIllegal
  else
    match s.entryGlobal t n with
    | none => s.threadFault t fcForeign
    | some e =>
      let v (k : Nat) := s.gReg t (groupReg ra k)
      let s1 := s.schWrite e fun x => { x with tick := BitVec.ofNat 28 (bitsOf (v 0) 0 28), sec := v 1, opnd := v 3 }
      let s2 := s1.schArm (.thread t) e (putBit (v 2) 31 true)
      s2.result t rd s2.sched.ent[e].stat

/-- sclr (R524). -/
def State.sclr (s : State) (t : Fin 8) (rd : Fin 16) (n : Nat) : State :=
  match s.entryGlobal t n with
  | none => s.threadFault t fcForeign
  | some e =>
    let s1 := s.schCtl (.thread t) e (s.sched.ent[e].ctlWord &&& 0x13F)
    s1.result t rd s1.sched.ent[e].stat

/-- fstat.sch. -/
def State.fstatSch (s : State) (t : Fin 8) (rd : Fin 16) (n : Nat) : State :=
  match s.entryGlobal t n with
  | none => s.threadFault t fcForeign
  | some e => s.result t rd s.sched.ent[e].fstat

/-- fltw (R525): FLTn_A, B and D, then FLTn_CTL, which makes the four pending together. -/
def State.fltw (s : State) (t : Fin 8) (ra : Fin 16) (n : Nat) : State :=
  if !groupOk ra then s.threadFault t fcIllegal
  else
    match (s.panFilters (s.thrPan t))[n]? with
    | none => s.threadFault t fcForeign
    | some k =>
      let v (j : Nat) := s.gReg t (groupReg ra j)
      let s1 := s.updFlt (idx 128 k) fun x =>
        (((x.writeWord 1 (v 1)).writeWord 2 (v 2)).writeWord 3 (v 3)).writeCtl (some t) (v 0)
      ((List.finRange 4).foldl (fun s w => s.mendParity (.flt (idx 128 k) w)) s1).advance t

/-! ### Interrupts, CRC, sluice (R526-R529) -/

/-- irq.done (R527). -/
def State.irqDone (s : State) (t : Fin 8) (rd ra : Fin 16) : State :=
  let v := s.gReg t ra
  let claim (s : State) : State :=
    let r := s.engClaim t
    r.2.result t rd r.1
  match s.irq.eng[t] with
  | some k =>
    if ra = 0 then s.result t rd resBusy
    else if v = k.setWidth 32 then claim (s.engComplete t) else s.result t rd resNotHeld
  | none => if ra = 0 then claim s else s.result t rd resNotHeld

/-- One bit through CRC-24 (Table 3-3). -/
def crcBit (c : Nat) (b : Bool) : Nat :=
  let top := c.testBit 23 != b
  let sh := (2 * c) % 2 ^ 24
  if top then sh ^^^ 0x864CFB else sh

/-- The low `n` bits of `v`, the highest of them first, through CRC-24. -/
def crcBits (c : Nat) (v : Word) : Nat → Nat
  | 0 => c
  | n + 1 => crcBits (crcBit c (bitOf v n)) v n

/-- crc24 (R528). -/
def State.crc24 (s : State) (t : Fin 8) (rd ra : Fin 16) (n : Nat) : State :=
  if n = 0 ∨ 32 < n then s.threadFault t fcIllegal
  else s.result t rd (BitVec.ofNat 32 (crcBits (bitsOf (s.gReg t rd) 0 24) (s.gReg t ra) n))

/-- sluice (R529, R221). -/
def State.sluiceOp (s : State) (t : Fin 8) : State :=
  if s.hasCap (s.thrPan t) .sluice then s.sluiceRequest.advance t else s.threadFault t fcCapability

end Sys2Proof.Machine
end

