-- ==== Sys2Proof/Machine/ExecLineOps.lean ====
section
/-! DEFINITION. The instructions of chapter 14. -/

namespace Sys2Proof.Machine

/-- fork (R511). -/
def execFork (t : Fin 8) (rd ra rc : Fin 16) (s : State) : Out := .next (s.issue t fun s => s.fork t rd ra rc)

/-- join (R512). -/
def execJoin (t : Fin 8) (rd ra : Fin 16) (s : State) : Out := .next (s.issue t fun s => s.join t rd ra)

/-- halt (R513). -/
def execHalt (t : Fin 8) (code : Byte) (s : State) : Out :=
  .next (s.issue t fun s => (s.advance t).haltThread t fun th => { th with exitCode := code, panRst := false })

/-- wait (R514). -/
def execWait (t : Fin 8) (rd : Fin 16) (s : State) : Out := .next (s.issue t fun s => s.waitEvents t rd)

/-- yield (R515): the slots it gives up are timing. -/
def execYield (t : Fin 8) (s : State) : Out := .next (s.issue t fun s => s.advance t)

/-- lk.acq (R516, R411). -/
def execLkAcq (t : Fin 8) (rd : Fin 16) (n : Fin 32) (s : State) : Out :=
  .next (s.issue t fun s => s.takeLock t rd n.val fun l s => s.beginWait t rd (.lock rd l))

/-- lk.try (R457). -/
def execLkTry (t : Fin 8) (rd : Fin 16) (n : Fin 32) (s : State) : Out :=
  .next (s.issue t fun s => s.takeLock t rd n.val fun _ s => s.result t rd resBusy)

/-- lk.rel (R457). -/
def execLkRel (t : Fin 8) (rd : Fin 16) (n : Fin 32) (s : State) : Out := .next (s.issue t fun s => s.relLock t rd n.val)

/-- fput (R517). -/
def execFput (t : Fin 8) (rd ra : Fin 16) (q : Fin 4) (s : State) : Out := .next (s.issue t fun s => s.fput t rd ra q)

/-- fget.tq (R518). -/
def execFgetTq (t : Fin 8) (rd ra : Fin 16) (q : Fin 4) (s : State) : Out := .next (s.issue t fun s => s.fgetTq t rd ra q true)

/-- fget.rxf (R518). -/
def execFgetRxf (t : Fin 8) (rd ra : Fin 16) (q : Fin 4) (s : State) : Out := .next (s.issue t fun s => s.fgetRxf t rd ra q true)

/-- fget.mbx (R518). -/
def execFgetMbx (t : Fin 8) (rd ra : Fin 16) (slot : BitVec 11) (s : State) : Out :=
  .next (s.issue t fun s => s.fgetMbx t rd ra slot.toNat true)

/-- fpeek.tq (R519). -/
def execFpeekTq (t : Fin 8) (rd ra : Fin 16) (q : Fin 4) (s : State) : Out := .next (s.issue t fun s => s.fgetTq t rd ra q false)

/-- fpeek.rxf (R519). -/
def execFpeekRxf (t : Fin 8) (rd ra : Fin 16) (q : Fin 4) (s : State) : Out := .next (s.issue t fun s => s.fgetRxf t rd ra q false)

/-- fpeek.mbx (R519). -/
def execFpeekMbx (t : Fin 8) (rd ra : Fin 16) (slot : BitVec 11) (s : State) : Out :=
  .next (s.issue t fun s => s.fgetMbx t rd ra slot.toNat false)

/-- fstat.tq (R520). -/
def execFstatTq (t : Fin 8) (rd : Fin 16) (q : Fin 4) (s : State) : Out :=
  .next (s.issue t fun s => s.result t rd (s.tq (s.thrPan t) q).fstat)

/-- fstat.rxf (R520). -/
def execFstatRxf (t : Fin 8) (rd : Fin 16) (q : Fin 4) (s : State) : Out :=
  .next (s.issue t fun s => s.result t rd (s.rxf (s.thrPan t) q).fstat)

/-- fstat.sch (R520). -/
def execFstatSch (t : Fin 8) (rd : Fin 16) (n : Fin 32) (s : State) : Out := .next (s.issue t fun s => s.fstatSch t rd n.val)

/-- flush (R521). -/
def execFlush (t : Fin 8) (rd : Fin 16) (q : Fin 4) (s : State) : Out :=
  .next (s.issue t fun s =>
    let r := s.flushQueue (s.thrPan t) q
    r.2.result t rd r.1)

/-- tread #0 (R522, R177). -/
def execTreadTick (t : Fin 8) (rd : Fin 16) (s : State) : Out :=
  .next (s.issue t fun s => (s.readEffect (.thread t) .tideTick).result t rd (s.tide.tick.setWidth 32))

/-- tread #1 (R522). -/
def execTreadSec (t : Fin 8) (rd : Fin 16) (s : State) : Out :=
  .next (s.issue t fun s => s.result t rd s.tide.latch[(Party.thread t).ix])

/-- tread #2 (R522). -/
def execTreadStatus (t : Fin 8) (rd : Fin 16) (s : State) : Out := .next (s.issue t fun s => s.result t rd s.tide.treadStatus)

/-- sset (R523). -/
def execSset (t : Fin 8) (rd ra : Fin 16) (n : Fin 32) (s : State) : Out := .next (s.issue t fun s => s.sset t rd ra n.val)

/-- sclr (R524). -/
def execSclr (t : Fin 8) (rd : Fin 16) (n : Fin 32) (s : State) : Out := .next (s.issue t fun s => s.sclr t rd n.val)

/-- fltw (R525). -/
def execFltw (t : Fin 8) (ra : Fin 16) (n : Fin 128) (s : State) : Out := .next (s.issue t fun s => s.fltw t ra n.val)

/-- ring (R526). -/
def execRing (t : Fin 8) (ra : Fin 16) (n : BitVec 7) (s : State) : Out :=
  .next (s.issue t fun s => (s.doorbell (s.thrPan t) (bitsOf (s.gReg t ra + n.setWidth 32) 0 7)).advance t)

/-- irq.done (R527). -/
def execIrqDone (t : Fin 8) (rd ra : Fin 16) (s : State) : Out := .next (s.issue t fun s => s.irqDone t rd ra)

/-- crc24 (R528). -/
def execCrc24 (t : Fin 8) (rd ra : Fin 16) (n : BitVec 6) (s : State) : Out := .next (s.issue t fun s => s.crc24 t rd ra n.toNat)

/-- sluice (R529). -/
def execSluice (t : Fin 8) (s : State) : Out := .next (s.issue t fun s => s.sluiceOp t)

end Sys2Proof.Machine
end

