-- ==== Sys2Proof/Machine/ExecMemory.lean ====
section
/-! DEFINITION. Loads, stores and special registers of the engine's instruction set (chapter 13), and the illegal word. -/

namespace Sys2Proof.Machine

/-- ldw (R488). -/
def execLdw (t : Fin 8) (rt base : Fin 16) (off : BitVec 16) (s : State) : Out := .next (s.load t rt base off 4 false)

/-- ldh. -/
def execLdh (t : Fin 8) (rt base : Fin 16) (off : BitVec 16) (s : State) : Out := .next (s.load t rt base off 2 false)

/-- ldhs. -/
def execLdhs (t : Fin 8) (rt base : Fin 16) (off : BitVec 16) (s : State) : Out := .next (s.load t rt base off 2 true)

/-- ldb. -/
def execLdb (t : Fin 8) (rt base : Fin 16) (off : BitVec 16) (s : State) : Out := .next (s.load t rt base off 1 false)

/-- ldbs. -/
def execLdbs (t : Fin 8) (rt base : Fin 16) (off : BitVec 16) (s : State) : Out := .next (s.load t rt base off 1 true)

/-- stw. -/
def execStw (t : Fin 8) (rt base : Fin 16) (off : BitVec 16) (s : State) : Out := .next (s.store t rt base off 4)

/-- sth. -/
def execSth (t : Fin 8) (rt base : Fin 16) (off : BitVec 16) (s : State) : Out := .next (s.store t rt base off 2)

/-- stb. -/
def execStb (t : Fin 8) (rt base : Fin 16) (off : BitVec 16) (s : State) : Out := .next (s.store t rt base off 1)

/-- csrr (R498). -/
def execCsrr (t : Fin 8) (rd : Fin 16) (n : BitVec 12) (s : State) : Out := .next (s.csrr t rd n.toNat)

/-- csrw (R498, R499). -/
def execCsrw (t : Fin 8) (n : BitVec 12) (ra : Fin 16) (s : State) : Out := .next (s.csrw t n.toNat ra)

/-- ILLEGAL_WORD_ISSUE (R478, R494). -/
def execIllegalWordIssue (t : Fin 8) (s : State) : Out := .next (s.issue t fun s => s.threadFault t fcIllegal)

end Sys2Proof.Machine
end

