-- ==== Sys2Proof/Machine/ExecPan.lean ====
section
/-! DEFINITION. The commands of pans, buffered registers, keys, tide registers and the calendar (chapters 8, 17, 19, 20, 22). -/

namespace Sys2Proof.Machine

/-- MILLISECOND_TICK (R403, R404). -/
def execMillisecondTick (s : State) : Out := .next (if s.coreRuns then s.millisecond else s)

/-- The pans with a window, in order; the next after the one that is open (R309). -/
def State.nextWindow (s : State) : Fin 4 :=
  let ws := allPans.filter fun n => s.panEn n && s.windowOf n != 0
  (ws.find? fun n => s.window < n).getD (ws.headD s.window)

/-- SEALED_WINDOW_BOUNDARY (R309). -/
def execSealedWindowBoundary (s : State) : Out :=
  .next (if s.coreRuns && s.sealed then { s with window := s.nextWindow, windowFrom := s.eng.tnow } else s)

/-- SHADOW_APPLY (R653). -/
def execShadowApply (x : Shadow) (s : State) : Out := .next (if s.coreRuns then (s.applyShadow x).settle else s)

/-- PANLOCK: SYS_LOCK written with PANLOCK = 1 (R295). -/
def execPanlock (p : Party) (s : State) : Out := .next (s.partyWrite p .sys 0x00C 1)

/-- SCRUB_DONE (R296). -/
def execScrubDone (s : State) : Out := .next (if s.coreRuns then s.updSys fun y => { y with scrub := false } else s)

/-- SYS_PANRST (R316). -/
def execSysPanrst (p : Party) (v : Word) (s : State) : Out := .next (s.partyWrite p .sys 0x020 v)

/-- PAN_CTL_RESET: PAN_CTL written (R316). -/
def execPanCtlReset (p : Party) (n : Fin 4) (v : Word) (s : State) : Out := .next (s.partyWrite p (.win n) 0x004 v)

/-- PAN_RESET_SCRUB_DONE (R317). -/
def execPanResetScrubDone (n : Fin 4) (s : State) : Out := .next (if s.coreRuns then s.panResetDone n else s)

/-- SYS_SWRST (R687). -/
def execSysSwrst (p : Party) (v : Word) (s : State) : Out := .next (s.partyWrite p .sys 0x024 v)

/-- LINE_REJOIN: LINE_CTL written (R152). -/
def execLineRejoin (p : Party) (v : Word) (s : State) : Out := .next (s.partyWrite p .sys 0x080 v)

/-- KEY_WRITE: SYS_KEY or PAN_KEY written (R658, R659). -/
def execKeyWrite (p : Party) (via : Via) (v : Word) (s : State) : Out := .next (s.partyWrite p via 0x010 v)

/-- ALIAS_WRITE (R664-R668). -/
def execAliasWrite (p : Party) (addr : BitVec 24) (v : Word) (s : State) : Out := .next (s.partyWriteAt p addr v)

/-- REGISTER_WRITE (R4). -/
def execRegisterWrite (p : Party) (addr : BitVec 24) (v : Word) (s : State) : Out := .next (s.partyWriteAt p addr v)

/-- TIDE_OFFS_STEP (R200). -/
def execTideOffsStep (p : Party) (via : Via) (v : Word) (s : State) : Out :=
  .next (s.partyWrite p via (match via with | .sys => 0x0D4 | .win _ => 0x044) v)

/-- TIDE_KEEPER_WRITE (R196). -/
def execTideKeeperWrite (p : Party) (via : Via) (v : Word) (s : State) : Out :=
  .next (s.partyWrite p via (match via with | .sys => 0x0E0 | .win _ => 0x050) v)

/-- TIDE_TICK_READ (R177). -/
def execTideTickRead (p : Party) (via : Via) (s : State) : Out :=
  .next (s.partyRead p via (match via with | .sys => 0x0CC | .win _ => 0x03C))

/-- CAL_DATE_WRITE (R608). -/
def execCalDateWrite (p : Party) (via : Via) (v : Word) (s : State) : Out :=
  .next (s.partyWrite p via (match via with | .sys => 0x100 | .win _ => 0x054) v)

/-- CAL_TIME_WRITE (R608, R610). -/
def execCalTimeWrite (p : Party) (via : Via) (v : Word) (s : State) : Out :=
  .next (s.partyWrite p via (match via with | .sys => 0x104 | .win _ => 0x058) v)

/-- CAL_TIME_READ (R607). -/
def execCalTimeRead (p : Party) (via : Via) (s : State) : Out :=
  .next (s.partyRead p via (match via with | .sys => 0x104 | .win _ => 0x058))

end Sys2Proof.Machine
end

