-- ==== Sys2Proof/Machine/Clock.lean ====
section
/-! DEFINITION. What goes on by itself: the scrubber's pass (R669-R675), and the cycle of the core clock that an idle step takes. -/

namespace Sys2Proof

open Machine

namespace Machine

/-! ### The scrubber -/

/-- A configuration register: one with a field of access RW, RWB, RWK or RWL, and the words of enable bits (R669). -/
def Rg.config : Rg → Bool
  | .icPrio _ => true
  | .icTgt _ => true
  | .icHold _ => true
  | .icEnSet _ => true
  | .icClaim _ => false
  | .icDone _ => false
  | .sysPanrst => true
  | .sysSwrst => true
  | .sluPermit => true
  | .panSlu _ => true
  | .tqCtl _ _ => true
  | .tqRing _ _ => true
  | .rxfCtl _ _ => true
  | .rxfRing _ _ => true
  | .schTick _ => true
  | .schSec _ => true
  | .schCtl _ => true
  | .schOpnd _ => true
  | .flt _ _ => true
  | .sysLock => true
  | r => (aliasBits .sys r).1 != 0

/-- A host address the scrubber may name: a configuration register of the system block or of a window. -/
def State.cfgAddr (s : State) (a : Nat) : Bool := a % 4 == 0 && decide (a < 0x5000) && (s.regOfAddr a).2.config

/-- The value a configuration register holds, as port A would read it from its owner's side; a word of enable bits whole. -/
def State.storedValue (s : State) (a : Nat) : Word :=
  match s.regOfAddr a with
  | (_, .icEnSet w) => s.irq.en.extractLsb' (32 * w.val) 32
  | (via, r) => s.regValue (.host (s.panPort via.pan)) via r

/-- The mismatch at the lowest host address; at one address the register before its shadow (DESIGN CHOICE, log 28). -/
def firstBad (cfg shadows : List Nat) : Option (Nat × Bool) :=
  match cfg.min?, shadows.min? with
  | some a, some b => if b < a then some (b, true) else some (a, false)
  | some a, none => some (a, false)
  | none, some b => some (b, true)
  | none, none => none

/-- What the first mismatch found while CFGPAR = 0 does (R672). -/
def State.parityFound (s : State) (a : Nat) (shadow : Bool) : State :=
  if s.sys.cfgPar then s
  else
    let s1 := (s.updSys fun y =>
      { y with cfgPar := true, ploc := BitVec.ofNat 19 a, pshad := shadow }).arrive 4
    let s2 := if bitOf s.sys.ctl 0 then s1.safeLatch causeParity else s1
    if bitOf s.sys.ctl 1 then s2.resetWith rcPar else s2.settle

/-- The shadow at a host address, with the address. -/
def State.shadowAt (s : State) (a : Nat) : Option (ShKey × Nat) := ((s.regOfAddr a).2.shadow).map fun k => (k, a)

/-- A pass: `cfg` the registers, `shadows` the pending shadows whose stored parity is newly wrong, by host address; a bit of the shadows
`later` flips after it, which their application or the next pass finds (R671-R675). -/
def State.scrubPass (s : State) (cfg shadows later : List Nat) : State :=
  if !s.coreRuns then s
  else
    let old := s.sys.parBad.filter fun e => s.storedValue e.1 == e.2
    let new := (cfg.filter fun a => s.cfgAddr a && !(old.any fun e => e.1 == a)).map fun a => (a, s.storedValue a)
    let bad := old ++ new
    let sh := (s.sys.shBad ++ (shadows.filter s.cfgAddr).filterMap s.shadowAt).filter fun e => s.hasShadow e.1
    let next := (later.filter s.cfgAddr).filterMap s.shadowAt
    let s1 := sh.foldl (fun s e => s.dropShadow e.1) (s.updSys fun y => { y with parBad := bad })
    let s2 := s1.updSys fun y => { y with shBad := next.filter fun e => s1.hasShadow e.1 }
    match firstBad (bad.map Prod.fst) (sh.map Prod.snd) with
    | some (a, b) => s2.parityFound a b
    | none => s2

/-- The mismatch that an application found acts (R672, R675). -/
def State.parityDue (s : State) : State :=
  match s.sys.parHit with
  | some a => (s.updSys fun y => { y with parHit := none }).parityFound a true
  | none => s

/-! ### A cycle of the core clock -/

/-- The cycles of the 32.768 kHz clock in the first `aon` units of 5 ns of the always-on clock (R571; DESIGN CHOICE, log 77). -/
def lfCycles (aon : Nat) : Nat := aon * 64 / 390625

/-- The timers in one core cycle, with the gates and links of the cycle before (R571-R573, R585). -/
def State.timersTick (s g : State) (ticks : Nat) : State :=
  (List.finRange 8).foldl (fun s (n : Fin 8) => s.timCycle g ticks (lfCycles s.pow.aon - lfCycles g.pow.aon) g.tim.links n)
    { s with tim := { s.tim with links := [] } }

/-- The end of one core cycle: the wake compares that TNOW has reached, after all that came in the cycle (R425, R470, R504), and what
was deliverable in it; then TNOW, the enable history, tide time, the timers of the core clock and of tide ticks, the watchdog's count.
Nothing moves while the core clock is stopped, and the commands between two idle steps belong to the cycle of the earlier (DESIGN
CHOICES, logs 16 and 81). -/
def State.coreCycle (s : State) : State :=
  if !s.coreRuns then s
  else
    let s0 := s.flushWakes.noteSeen
    let s1 := ((s0.updEng fun e => { e with tnow := e.tnow + 1, wdLeft := if s.watching then e.wdLeft - 1 else e.wdLeft }).updIrq
      Irq.ageEn).updPow fun p => { p with aon := p.aon + 1 }
    let r := s1.tideAdvance 1
    (r.2.timersTick s0 r.1).keeperStep.parityDue.settle

end Machine

end Sys2Proof
end

