-- ==== Sys2Proof/Machine/ExecPower.lean ====
section
/-! DEFINITION. The commands of resets, supply, pins, clocks and power states (chapters 19, 23, 25). -/

namespace Sys2Proof.Machine

/-- POWER_ON_RESET (R773). -/
def execPowerOnReset (s : State) : Out := .next (s.resetWith rcPor)

/-- RESET_N_ASSERT (R790): below 200 ns nothing, from 1 us on a reset; between them the spec fixes nothing (free, log 7). -/
def execResetNAssert (ns : Nat) (s : State) : Out :=
  if 1000 ≤ ns then .next (s.resetWith rcPin)
  else if ns < 200 then .next s
  else .next (if Config.freeBit s.free then s.takeFree.resetWith rcPin else s.takeFree)

/-- SUPPLY_RESET (R771). -/
def execSupplyReset (s : State) : Out := .next (s.resetWith rcSup)

/-- HPI_READY (R792, R794). -/
def execHpiReady (bad : BitVec 16) (s : State) : Out := .next (s.startUp bad)

/-- SUPPLY_WARNING (R771, R415). -/
def execSupplyWarning (s : State) : Out := .next s.supplyWarning

/-- SUPPLY_WARNING_END (R771). -/
def execSupplyWarningEnd (s : State) : Out := .next s.supplyGood

/-- VDRV_LOSS (R51, R85). -/
def execVdrvLoss (s : State) : Out := .next s.loseVdrv.settle

/-- VDRV_RESTORED (R85). -/
def execVdrvRestored (s : State) : Out := .next s.gainVdrv

/-- VIO_LOSS (R770). -/
def execVioLoss (s : State) : Out := .next (s.updPow fun p => { p with vioOk := false })

/-- VIO_RESTORED (R868). -/
def execVioRestored (s : State) : Out := .next (s.updPow fun p => { p with vioOk := true })

/-- SAFE_IN_ASSERT (R222). -/
def execSafeInAssert (s : State) : Out := .next s.safeInFalls

/-- WAKE_PIN_EDGE (R562). -/
def execWakePinEdge (rising : Bool) (s : State) : Out := .next (s.wakeEdge rising)

/-- TP_PIN_EDGE (R562, R571, R581, R584). -/
def execTpPinEdge (n : Fin 8) (rising : Bool) (s : State) : Out := .next (s.pinEdge n rising)

/-- PLL_LOCK_LOSS (R788). -/
def execPllLockLoss (s : State) : Out := .next s.losePll

/-- PLL_RELOCK (R788). -/
def execPllRelock (iv : Interval) (s : State) : Out := .next (s.relock iv)

/-- LF_CRYSTAL_CHANGE (R690). -/
def execLfCrystalChange (running : Bool) (s : State) : Out := .next (s.crystal running)

/-- RC_CALIBRATION (R787). -/
def execRcCalibration (ppm : Int) (s : State) : Out := .next (s.calibrate ppm)

/-- WATCHDOG_EXPIRY (R461, R462). -/
def execWatchdogExpiry (s : State) : Out := .next (if s.watching then s.resetWith rcWdog else s)

/-- SCRUBBER_PASS (R671-R674). -/
def execScrubberPass (cfg : List Nat) (shadows : ParityUpsets) (s : State) : Out :=
  .next (s.scrubPass cfg shadows.found shadows.later)

/-- REQ_LISTEN: SLP_CTL written with REQ = 1 (R776). -/
def execReqListen (p : Party) (s : State) : Out := .next (s.partyWrite p .sys 0x054 1)

/-- REQ_SLEEP: SLP_CTL written with REQ = 2 (R776). -/
def execReqSleep (p : Party) (s : State) : Out := .next (s.partyWrite p .sys 0x054 2)

/-- POWER_STATE_ENTRY (R778). -/
def execPowerStateEntry (s : State) : Out := .next s.enterRest

/-- WAKE_UP (R779-R785). -/
def execWakeUp (cause : BitVec 7) (iv : Interval) (s : State) : Out := .next (s.wake cause iv)

/-- TAP_RESET: the instruction becomes IDCODE, which holds nothing (R861, R862). -/
def execTapReset (s : State) : Out := .next (s.viaTap (s.tapHold false))

/-- TAP_TEST_INSTRUCTION (R862, R869). -/
def execTapTestInstruction (on : Bool) (s : State) : Out := .next (s.viaTap (s.tapHold on))

/-- OTPRD (R795). -/
def execOtprd (s : State) : Out := .next (s.viaTap { s with otp := { s.otp with shift := s.otp.visible } })

/-- OTPWR (R795). -/
def execOtpwr (words : Tab Word 16) (s : State) : Out :=
  .next (s.viaTap { s with otp := { s.otp.program words with shift := words } })

end Sys2Proof.Machine
end

