-- ==== Sys2Proof/Machine/ExecQueue.lean ====
section
/-! DEFINITION. The commands of queues, FIFOs, slots and filters (chapters 9, 10). -/

namespace Sys2Proof.Machine

/-- The offset of word `w` of TQq in a window (Table 22-7). -/
def tqAt (q : Fin 4) (w : Nat) : Nat := 0x100 + 32 * q.val + 4 * w

/-- The offset of word `w` of RXFq in a window. -/
def rxfAt (q : Fin 4) (w : Nat) : Nat := 0x180 + 16 * q.val + 4 * w

/-- TQ_SUBMIT_WORD (R348). -/
def execTqSubmitWord (p : Party) (n q : Fin 4) (v : Word) (s : State) : Out := .next (s.partyWrite p (.win n) (tqAt q 2) v)

/-- TQ_SDATA_WORD (R348). -/
def execTqSdataWord (p : Party) (n q : Fin 4) (v : Word) (s : State) : Out := .next (s.partyWrite p (.win n) (tqAt q 3) v)

/-- TQ_COMMIT: a read of TQn_COMMIT, which returns the outcome word (R348, R349, R640). -/
def execTqCommit (p : Party) (n q : Fin 4) (s : State) : Out := .next (s.partyRead p (.win n) (tqAt q 4))

/-- TQ_CPL_COLLECT: `words` words at TQn_CPL (R352). -/
def execTqCplCollect (p : Party) (n q : Fin 4) (words : Nat) (s : State) : Out :=
  .next (s.partyFetch p n (tqAt q 5) words)

/-- TQ_FLUSH: TQn_CTL written as it stands, with FLUSH = 1 (R354). -/
def execTqFlush (p : Party) (n q : Fin 4) (s : State) : Out :=
  .next (s.partyWrite p (.win n) (tqAt q 0) (putBit (s.regValue p (.win n) (.tqCtl n q)) 3 true))

/-- TQ_CTL_WRITE (R753). -/
def execTqCtlWrite (p : Party) (n q : Fin 4) (v : Word) (s : State) : Out := .next (s.partyWrite p (.win n) (tqAt q 0) v)

/-- RXF_CTL_WRITE (R355). -/
def execRxfCtlWrite (p : Party) (n q : Fin 4) (v : Word) (s : State) : Out := .next (s.partyWrite p (.win n) (rxfAt q 0) v)

/-- RXF_FETCH_READ: `words` words at RXFn_FETCH (R358). -/
def execRxfFetchRead (p : Party) (n q : Fin 4) (words : Nat) (s : State) : Out :=
  .next (s.partyFetch p n (rxfAt q 2) words)

/-- SLOT_W2_WRITE (R340). -/
def execSlotW2Write (p : Party) (slot : Fin 1344) (v : Word) (s : State) : Out :=
  .next (s.partySlotWrite p slot 2 v)

/-- MAILBOX_SEEN_WRITE: W2 written with SEEN = 1 (R359). -/
def execMailboxSeenWrite (p : Party) (slot : Fin 1344) (v : Word) (s : State) : Out :=
  .next (s.partySlotWrite p slot 2 (putBit v 9 true))

/-- FILTER_CTL_WRITE: FLTk_CTL of the window (R384, R385). -/
def execFilterCtlWrite (p : Party) (n : Fin 4) (k : Fin 128) (v : Word) (s : State) : Out :=
  .next (s.partyWrite p (.win n) (0x800 + 16 * k.val) v)

/-- FILTER_APPLY (R384). -/
def execFilterApply (f : Fin 128) (s : State) : Out := .next (if s.coreRuns && s.flt[f].ready then s.applyFilter f else s)

end Sys2Proof.Machine
end

