-- ==== Sys2Proof/Machine/ExecSched.lean ====
section
/-! DEFINITION. The commands of the schedule (chapter 7). -/

namespace Sys2Proof.Machine

/-- The offset of SCHk_CTL in a window (R755). -/
def schCtlAt (k : Fin 32) : Nat := 0x608 + 16 * k.val

/-- SCHEDULE_ARM: SCHk_CTL written with ARM = 1 (R258-R260). -/
def execScheduleArm (p : Party) (n : Fin 4) (k : Fin 32) (v : Word) (s : State) : Out :=
  .next (s.partyWrite p (.win n) (schCtlAt k) (putBit v 31 true))

/-- SCHEDULE_DISARM: SCHk_CTL written with ARM = 0 (R260, R279). -/
def execScheduleDisarm (p : Party) (n : Fin 4) (k : Fin 32) (v : Word) (s : State) : Out :=
  .next (s.partyWrite p (.win n) (schCtlAt k) (putBit v 31 false))

/-- SCHEDULE_COMMIT: an armed entry 40 ticks or less before its instant (R261). -/
def execScheduleCommit (e : Fin 32) (s : State) : Out :=
  .next (if s.coreRuns && s.sched.ent[e].state == .armed && s.commitDue e then s.updSch e fun x => { x with state := .committed } else s)

/-- A committed entry whose instant has come fires (R261). -/
def State.fireDue (s : State) (e : Fin 32) : State :=
  let x := s.sched.ent[e]
  if x.state == .committed && s.reached x.instant && !(s.line.chanPend.any fun c => c.1 == e) then s.schFire e false else s

/-- The committed entries of the same pan and the same instant that come before an entry, ascending (R277). -/
def State.firesBefore (s : State) (e : Fin 32) : List (Fin 32) :=
  (List.finRange 32).filter fun k => k < e && s.schOwner k == s.schOwner e && s.sched.ent[k].state == .committed &&
    s.sched.ent[k].instant == s.sched.ent[e].instant

/-- A committed entry with this action fires at its instant, after the lower-numbered entries of its pan that fire at the same one (R261,
R277). -/
def State.fireIf (s : State) (e : Fin 32) (act : Nat) : State :=
  let x := s.sched.ent[e]
  if s.coreRuns && x.state == .committed && s.reached x.instant && x.act == act then
    ((s.firesBefore e).foldl State.fireDue s).fireDue e
  else s

/-- SCH_TX_ACTION (R265). -/
def execSchTxAction (e : Fin 32) (s : State) : Out := .next (s.fireIf e 1)

/-- SCH_PIN_ACTION (R266). -/
def execSchPinAction (e : Fin 32) (s : State) : Out := .next (s.fireIf e 2)

/-- The end of a pulse: the pin is driven low (R266, R278). -/
def State.endPulse (s : State) (pin : Fin 9) : State :=
  if h : pin.val < 8 then
    s.updTim ⟨pin.val, h⟩ fun x => if x.pulse then { x with pulse := false, tail := false, out := false } else { x with tail := false }
  else if s.sched.syncPulse then { s with sched := { s.sched with syncPulse := false, syncOut := false } }
  else s

/-- PULSE_END (R266). -/
def execPulseEnd (pin : Fin 9) (s : State) : Out := .next (if s.coreRuns then s.endPulse pin else s)

/-- SCH_CAPTURE_ACTION (R267). -/
def execSchCaptureAction (e : Fin 32) (s : State) : Out := .next (s.fireIf e 3)

/-- SCH_THREAD_ACTION (R268). -/
def execSchThreadAction (e : Fin 32) (s : State) : Out := .next (s.fireIf e 4)

/-- SCH_IRQ_ACTION (R269). -/
def execSchIrqAction (e : Fin 32) (s : State) : Out := .next (s.fireIf e 5)

/-- SCH_CHANNEL_ACTION (R270). -/
def execSchChannelAction (e : Fin 32) (s : State) : Out := .next (s.fireIf e 6)

/-- CHANNEL_CHANGE (R270). -/
def execChannelChange (s : State) : Out := .next (if s.coreRuns then s.channelIdle else s)

end Sys2Proof.Machine
end

