-- ==== Sys2Proof/Machine/ExecTimer.lean ====
section
/-! DEFINITION. The commands of the timers (chapter 16). `n` is the timer's number in the view the access takes. -/

namespace Sys2Proof.Machine

/-- The offset of word `w` of TIMn in a view (Tables 21-2, 22-1). -/
def timAt (via : Via) (n : Fin 8) (w : Nat) : Nat := (match via with | .sys => 0x200 | .win _ => 0x300) + 32 * n.val + 4 * w

/-- The offset of TIMn_CAPQ_LO in a view. -/
def capqAt (via : Via) (n : Fin 8) : Nat := (match via with | .sys => 0x420 | .win _ => 0x1C0) + 8 * n.val

/-- TIM_CTL_WRITE (R588). -/
def execTimCtlWrite (p : Party) (via : Via) (n : Fin 8) (v : Word) (s : State) : Out := .next (s.partyWrite p via (timAt via n 0) v)

/-- TIM_CNT_WRITE: CNT_LO written (R578). -/
def execTimCntWrite (p : Party) (via : Via) (n : Fin 8) (v : Word) (s : State) : Out := .next (s.partyWrite p via (timAt via n 2) v)

/-- TIM_LO_READ (R577). -/
def execTimLoRead (p : Party) (via : Via) (n : Fin 8) (x : TimPair) (s : State) : Out :=
  .next (s.partyRead p via (timAt via n (match x with | .cnt => 2 | .reload => 4 | .mtch => 6)))

/-- TIM_CAPNOW: TIMn_STAT written (R581). -/
def execTimCapnow (p : Party) (via : Via) (n : Fin 8) (v : Word) (s : State) : Out := .next (s.partyWrite p via (timAt via n 1) v)

/-- TIM_CAPQ_READ (R583). -/
def execTimCapqRead (p : Party) (via : Via) (n : Fin 8) (s : State) : Out := .next (s.partyRead p via (capqAt via n))

/-- The running timer at the count `c` takes one tick. -/
def State.tickFrom (s : State) (n : Fin 8) (c : BitVec 48) : State :=
  (s.updTim n fun x => { x with cnt := c, resid := 0 }).timTick n

/-- TIMER_WRAP: a running timer's count comes to RELOAD, or to 2^48 - 1 above it, and wraps (R574, R576; DESIGN CHOICE, log 17). -/
def execTimerWrap (n : Fin 8) (s : State) : Out :=
  let x := s.tim.tim[n]
  .next (if s.coreRuns && s.timRunning n then s.tickFrom n (if x.cnt ≤ x.reload then x.reload else BitVec.allOnes 48) else s)

/-- TIMER_MATCH: a running timer's count comes to MATCH; above RELOAD it never does (R575; DESIGN CHOICE, log 17). -/
def execTimerMatch (n : Fin 8) (s : State) : Out :=
  let x := s.tim.tim[n]
  .next (if s.coreRuns && s.timRunning n && x.mtch ≤ x.reload then s.tickFrom n (if x.mtch = 0 then x.reload else x.mtch - 1) else s)

end Sys2Proof.Machine
end

