-- ==== Sys2Proof/Machine/Dispatch.lean ====
section
/-! DEFINITION. The dispatch of the commands: one arm per constructor of Instr, in the order of spec/opcode_table.json. -/

namespace Sys2Proof.Machine

def exec (i : Instr) (s : State) : Host.Outcome State Fault Refusal :=
  match i with
  | .powerOnReset => Sys2Proof.Machine.execPowerOnReset s
  | .resetNAssert ns => Sys2Proof.Machine.execResetNAssert ns s
  | .supplyReset => Sys2Proof.Machine.execSupplyReset s
  | .hpiReady bad => Sys2Proof.Machine.execHpiReady bad s
  | .supplyWarning => Sys2Proof.Machine.execSupplyWarning s
  | .supplyWarningEnd => Sys2Proof.Machine.execSupplyWarningEnd s
  | .vdrvLoss => Sys2Proof.Machine.execVdrvLoss s
  | .vdrvRestored => Sys2Proof.Machine.execVdrvRestored s
  | .vioLoss => Sys2Proof.Machine.execVioLoss s
  | .safeInAssert => Sys2Proof.Machine.execSafeInAssert s
  | .wakePinEdge rising => Sys2Proof.Machine.execWakePinEdge rising s
  | .tpPinEdge n rising => Sys2Proof.Machine.execTpPinEdge n rising s
  | .pllLockLoss => Sys2Proof.Machine.execPllLockLoss s
  | .pllRelock iv => Sys2Proof.Machine.execPllRelock iv s
  | .lfCrystalChange running => Sys2Proof.Machine.execLfCrystalChange running s
  | .rcCalibration ppm => Sys2Proof.Machine.execRcCalibration ppm s
  | .watchdogExpiry => Sys2Proof.Machine.execWatchdogExpiry s
  | .scrubberPass cfg shadows => Sys2Proof.Machine.execScrubberPass cfg shadows s
  | .reqListen p => Sys2Proof.Machine.execReqListen p s
  | .reqSleep p => Sys2Proof.Machine.execReqSleep p s
  | .powerStateEntry => Sys2Proof.Machine.execPowerStateEntry s
  | .wakeUp cause iv => Sys2Proof.Machine.execWakeUp cause iv s
  | .tapReset => Sys2Proof.Machine.execTapReset s
  | .tapTestInstruction on => Sys2Proof.Machine.execTapTestInstruction on s
  | .otprd => Sys2Proof.Machine.execOtprd s
  | .otpwr words => Sys2Proof.Machine.execOtpwr words s
  | .linePortEnable p port => Sys2Proof.Machine.execLinePortEnable p port s
  | .portIdleSync port => Sys2Proof.Machine.execPortIdleSync port s
  | .sofOpportunity port => Sys2Proof.Machine.execSofOpportunity port s
  | .transmitAttempt port e => Sys2Proof.Machine.execTransmitAttempt port e s
  | .receiveFrame port f sof margin e => Sys2Proof.Machine.execReceiveFrame port f sof margin e s
  | .tideFrameRx port f arrival => Sys2Proof.Machine.execTideFrameRx port f arrival s
  | .soundRequestRx port f sof => Sys2Proof.Machine.execSoundRequestRx port f sof s
  | .soundResultRx port f => Sys2Proof.Machine.execSoundResultRx port f s
  | .delayApply => Sys2Proof.Machine.execDelayApply s
  | .clockMove => Sys2Proof.Machine.execClockMove s
  | .tideSecond => Sys2Proof.Machine.execTideSecond s
  | .tideBoundary => Sys2Proof.Machine.execTideBoundary s
  | .missingPeriod => Sys2Proof.Machine.execMissingPeriod s
  | .holdoverTimeout => Sys2Proof.Machine.execHoldoverTimeout s
  | .acquireTimeout => Sys2Proof.Machine.execAcquireTimeout s
  | .holdmaxExpiry => Sys2Proof.Machine.execHoldmaxExpiry s
  | .keeperListenEnd => Sys2Proof.Machine.execKeeperListenEnd s
  | .slewProgress => Sys2Proof.Machine.execSlewProgress s
  | .searchDwellEnd => Sys2Proof.Machine.execSearchDwellEnd s
  | .noiseAverage c12 c34 c56 => Sys2Proof.Machine.execNoiseAverage c12 c34 c56 s
  | .countCommit port now => Sys2Proof.Machine.execCountCommit port now s
  | .quarantineSequence port => Sys2Proof.Machine.execQuarantineSequence port s
  | .passiveSuspensionEnd port => Sys2Proof.Machine.execPassiveSuspensionEnd port s
  | .deadlineExpiry item => Sys2Proof.Machine.execDeadlineExpiry item s
  | .sluiceDetected port => Sys2Proof.Machine.execSluiceDetected port s
  | .sluiceBurstEnd port => Sys2Proof.Machine.execSluiceBurstEnd port s
  | .releaseUnblocked safeIn plc pair => Sys2Proof.Machine.execReleaseUnblocked safeIn plc pair s
  | .keepaliveExpiry => Sys2Proof.Machine.execKeepaliveExpiry s
  | .sluFire p via v => Sys2Proof.Machine.execSluFire p via v s
  | .sluPermitGo p via v => Sys2Proof.Machine.execSluPermitGo p via v s
  | .millisecondTick => Sys2Proof.Machine.execMillisecondTick s
  | .sealedWindowBoundary => Sys2Proof.Machine.execSealedWindowBoundary s
  | .shadowApply x => Sys2Proof.Machine.execShadowApply x s
  | .panlock p => Sys2Proof.Machine.execPanlock p s
  | .scrubDone => Sys2Proof.Machine.execScrubDone s
  | .sysPanrst p v => Sys2Proof.Machine.execSysPanrst p v s
  | .panCtlReset p n v => Sys2Proof.Machine.execPanCtlReset p n v s
  | .panResetScrubDone n => Sys2Proof.Machine.execPanResetScrubDone n s
  | .sysSwrst p v => Sys2Proof.Machine.execSysSwrst p v s
  | .lineRejoin p v => Sys2Proof.Machine.execLineRejoin p v s
  | .keyWrite p via v => Sys2Proof.Machine.execKeyWrite p via v s
  | .aliasWrite p addr v => Sys2Proof.Machine.execAliasWrite p addr v s
  | .registerWrite p addr v => Sys2Proof.Machine.execRegisterWrite p addr v s
  | .tideOffsStep p via v => Sys2Proof.Machine.execTideOffsStep p via v s
  | .tideKeeperWrite p via v => Sys2Proof.Machine.execTideKeeperWrite p via v s
  | .tideTickRead p via => Sys2Proof.Machine.execTideTickRead p via s
  | .calDateWrite p via v => Sys2Proof.Machine.execCalDateWrite p via v s
  | .calTimeWrite p via v => Sys2Proof.Machine.execCalTimeWrite p via v s
  | .calTimeRead p via => Sys2Proof.Machine.execCalTimeRead p via s
  | .scheduleArm p n k v => Sys2Proof.Machine.execScheduleArm p n k v s
  | .scheduleDisarm p n k v => Sys2Proof.Machine.execScheduleDisarm p n k v s
  | .scheduleCommit e => Sys2Proof.Machine.execScheduleCommit e s
  | .schTxAction e => Sys2Proof.Machine.execSchTxAction e s
  | .schPinAction e => Sys2Proof.Machine.execSchPinAction e s
  | .pulseEnd pin => Sys2Proof.Machine.execPulseEnd pin s
  | .schCaptureAction e => Sys2Proof.Machine.execSchCaptureAction e s
  | .schThreadAction e => Sys2Proof.Machine.execSchThreadAction e s
  | .schIrqAction e => Sys2Proof.Machine.execSchIrqAction e s
  | .schChannelAction e => Sys2Proof.Machine.execSchChannelAction e s
  | .channelChange => Sys2Proof.Machine.execChannelChange s
  | .tqSubmitWord p n q v => Sys2Proof.Machine.execTqSubmitWord p n q v s
  | .tqSdataWord p n q v => Sys2Proof.Machine.execTqSdataWord p n q v s
  | .tqCommit p n q => Sys2Proof.Machine.execTqCommit p n q s
  | .tqCplCollect p n q words => Sys2Proof.Machine.execTqCplCollect p n q words s
  | .tqFlush p n q => Sys2Proof.Machine.execTqFlush p n q s
  | .tqCtlWrite p n q v => Sys2Proof.Machine.execTqCtlWrite p n q v s
  | .rxfCtlWrite p n q v => Sys2Proof.Machine.execRxfCtlWrite p n q v s
  | .rxfFetchRead p n q words => Sys2Proof.Machine.execRxfFetchRead p n q words s
  | .slotW2Write p slot v => Sys2Proof.Machine.execSlotW2Write p slot v s
  | .mailboxSeenWrite p slot v => Sys2Proof.Machine.execMailboxSeenWrite p slot v s
  | .filterCtlWrite p n k v => Sys2Proof.Machine.execFilterCtlWrite p n k v s
  | .filterApply f => Sys2Proof.Machine.execFilterApply f s
  | .icPendSet p via w v => Sys2Proof.Machine.execIcPendSet p via w v s
  | .icPendClr p via w v => Sys2Proof.Machine.execIcPendClr p via w v s
  | .icEnSet p via w v => Sys2Proof.Machine.execIcEnSet p via w v s
  | .icEnClr p via w v => Sys2Proof.Machine.execIcEnClr p via w v s
  | .icClaim p via h => Sys2Proof.Machine.execIcClaim p via h s
  | .icDone p via h v => Sys2Proof.Machine.execIcDone p via h v s
  | .icDoorbell p via v => Sys2Proof.Machine.execIcDoorbell p via v s
  | .icUnwind p via v => Sys2Proof.Machine.execIcUnwind p via v s
  | .holdoffEnd hg tgt => Sys2Proof.Machine.execHoldoffEnd hg tgt s
  | .timCtlWrite p via n v => Sys2Proof.Machine.execTimCtlWrite p via n v s
  | .timCntWrite p via n v => Sys2Proof.Machine.execTimCntWrite p via n v s
  | .timLoRead p via n x => Sys2Proof.Machine.execTimLoRead p via n x s
  | .timCapnow p via n v => Sys2Proof.Machine.execTimCapnow p via n v s
  | .timCapqRead p via n => Sys2Proof.Machine.execTimCapqRead p via n s
  | .timerWrap n => Sys2Proof.Machine.execTimerWrap n s
  | .timerMatch n => Sys2Proof.Machine.execTimerMatch n s
  | .engGo p v => Sys2Proof.Machine.execEngGo p v s
  | .authenticationDone => Sys2Proof.Machine.execAuthenticationDone s
  | .engKick p v => Sys2Proof.Machine.execEngKick p v s
  | .threadStart p via n v => Sys2Proof.Machine.execThreadStart p via n v s
  | .threadHaltWrite p via n v => Sys2Proof.Machine.execThreadHaltWrite p via n v s
  | .wakeCompareReached t => Sys2Proof.Machine.execWakeCompareReached t s
  | .breakpointHit t => Sys2Proof.Machine.execBreakpointHit t s
  | .add t rd ra rb => Sys2Proof.Machine.execAdd t rd ra rb s
  | .sub t rd ra rb => Sys2Proof.Machine.execSub t rd ra rb s
  | .and t rd ra rb => Sys2Proof.Machine.execAnd t rd ra rb s
  | .or t rd ra rb => Sys2Proof.Machine.execOr t rd ra rb s
  | .xor t rd ra rb => Sys2Proof.Machine.execXor t rd ra rb s
  | .andn t rd ra rb => Sys2Proof.Machine.execAndn t rd ra rb s
  | .shl t rd ra rb => Sys2Proof.Machine.execShl t rd ra rb s
  | .shr t rd ra rb => Sys2Proof.Machine.execShr t rd ra rb s
  | .sar t rd ra rb => Sys2Proof.Machine.execSar t rd ra rb s
  | .mul t rd ra rb => Sys2Proof.Machine.execMul t rd ra rb s
  | .mulhu t rd ra rb => Sys2Proof.Machine.execMulhu t rd ra rb s
  | .mulhs t rd ra rb => Sys2Proof.Machine.execMulhs t rd ra rb s
  | .cmp t rd ra rb => Sys2Proof.Machine.execCmp t rd ra rb s
  | .cmpu t rd ra rb => Sys2Proof.Machine.execCmpu t rd ra rb s
  | .min t rd ra rb => Sys2Proof.Machine.execMin t rd ra rb s
  | .max t rd ra rb => Sys2Proof.Machine.execMax t rd ra rb s
  | .minu t rd ra rb => Sys2Proof.Machine.execMinu t rd ra rb s
  | .maxu t rd ra rb => Sys2Proof.Machine.execMaxu t rd ra rb s
  | .clz t rd ra => Sys2Proof.Machine.execClz t rd ra s
  | .popc t rd ra => Sys2Proof.Machine.execPopc t rd ra s
  | .bswap t rd ra => Sys2Proof.Machine.execBswap t rd ra s
  | .addImm t rd ra imm => Sys2Proof.Machine.execAddImm t rd ra imm s
  | .andImm t rd ra imm => Sys2Proof.Machine.execAndImm t rd ra imm s
  | .orImm t rd ra imm => Sys2Proof.Machine.execOrImm t rd ra imm s
  | .xorImm t rd ra imm => Sys2Proof.Machine.execXorImm t rd ra imm s
  | .shlImm t rd ra n => Sys2Proof.Machine.execShlImm t rd ra n s
  | .shrImm t rd ra n => Sys2Proof.Machine.execShrImm t rd ra n s
  | .sarImm t rd ra n => Sys2Proof.Machine.execSarImm t rd ra n s
  | .mulImm t rd ra imm => Sys2Proof.Machine.execMulImm t rd ra imm s
  | .cmpImm t rd ra imm => Sys2Proof.Machine.execCmpImm t rd ra imm s
  | .cmpuImm t rd ra imm => Sys2Proof.Machine.execCmpuImm t rd ra imm s
  | .lui t rd imm => Sys2Proof.Machine.execLui t rd imm s
  | .bext t rd ra pos wid => Sys2Proof.Machine.execBext t rd ra pos wid s
  | .bexts t rd ra pos wid => Sys2Proof.Machine.execBexts t rd ra pos wid s
  | .bins t rd ra pos wid => Sys2Proof.Machine.execBins t rd ra pos wid s
  | .ldw t rt base off => Sys2Proof.Machine.execLdw t rt base off s
  | .ldh t rt base off => Sys2Proof.Machine.execLdh t rt base off s
  | .ldhs t rt base off => Sys2Proof.Machine.execLdhs t rt base off s
  | .ldb t rt base off => Sys2Proof.Machine.execLdb t rt base off s
  | .ldbs t rt base off => Sys2Proof.Machine.execLdbs t rt base off s
  | .stw t rt base off => Sys2Proof.Machine.execStw t rt base off s
  | .sth t rt base off => Sys2Proof.Machine.execSth t rt base off s
  | .stb t rt base off => Sys2Proof.Machine.execStb t rt base off s
  | .beq t ra rb off => Sys2Proof.Machine.execBeq t ra rb off s
  | .bne t ra rb off => Sys2Proof.Machine.execBne t ra rb off s
  | .blt t ra rb off => Sys2Proof.Machine.execBlt t ra rb off s
  | .bge t ra rb off => Sys2Proof.Machine.execBge t ra rb off s
  | .bltu t ra rb off => Sys2Proof.Machine.execBltu t ra rb off s
  | .bgeu t ra rb off => Sys2Proof.Machine.execBgeu t ra rb off s
  | .call t off => Sys2Proof.Machine.execCall t off s
  | .jr t ra => Sys2Proof.Machine.execJr t ra s
  | .jalr t rd ra => Sys2Proof.Machine.execJalr t rd ra s
  | .csrr t rd n => Sys2Proof.Machine.execCsrr t rd n s
  | .csrw t n ra => Sys2Proof.Machine.execCsrw t n ra s
  | .fork t rd ra rc => Sys2Proof.Machine.execFork t rd ra rc s
  | .join t rd ra => Sys2Proof.Machine.execJoin t rd ra s
  | .halt t code => Sys2Proof.Machine.execHalt t code s
  | .wait t rd => Sys2Proof.Machine.execWait t rd s
  | .yield t => Sys2Proof.Machine.execYield t s
  | .lkAcq t rd n => Sys2Proof.Machine.execLkAcq t rd n s
  | .lkTry t rd n => Sys2Proof.Machine.execLkTry t rd n s
  | .lkRel t rd n => Sys2Proof.Machine.execLkRel t rd n s
  | .fput t rd ra q => Sys2Proof.Machine.execFput t rd ra q s
  | .fgetTq t rd ra q => Sys2Proof.Machine.execFgetTq t rd ra q s
  | .fgetRxf t rd ra q => Sys2Proof.Machine.execFgetRxf t rd ra q s
  | .fgetMbx t rd ra slot => Sys2Proof.Machine.execFgetMbx t rd ra slot s
  | .fpeekTq t rd ra q => Sys2Proof.Machine.execFpeekTq t rd ra q s
  | .fpeekRxf t rd ra q => Sys2Proof.Machine.execFpeekRxf t rd ra q s
  | .fpeekMbx t rd ra slot => Sys2Proof.Machine.execFpeekMbx t rd ra slot s
  | .fstatTq t rd q => Sys2Proof.Machine.execFstatTq t rd q s
  | .fstatRxf t rd q => Sys2Proof.Machine.execFstatRxf t rd q s
  | .fstatSch t rd n => Sys2Proof.Machine.execFstatSch t rd n s
  | .flush t rd q => Sys2Proof.Machine.execFlush t rd q s
  | .treadTick t rd => Sys2Proof.Machine.execTreadTick t rd s
  | .treadSec t rd => Sys2Proof.Machine.execTreadSec t rd s
  | .treadStatus t rd => Sys2Proof.Machine.execTreadStatus t rd s
  | .sset t rd ra n => Sys2Proof.Machine.execSset t rd ra n s
  | .sclr t rd n => Sys2Proof.Machine.execSclr t rd n s
  | .fltw t ra n => Sys2Proof.Machine.execFltw t ra n s
  | .ring t ra n => Sys2Proof.Machine.execRing t ra n s
  | .irqDone t rd ra => Sys2Proof.Machine.execIrqDone t rd ra s
  | .crc24 t rd ra n => Sys2Proof.Machine.execCrc24 t rd ra n s
  | .sluice t => Sys2Proof.Machine.execSluice t s
  | .hostRead x addr => Sys2Proof.Machine.execHostRead x addr s
  | .hostWrite x addr v => Sys2Proof.Machine.execHostWrite x addr v s
  | .hostReadBurst x addr part => Sys2Proof.Machine.execHostReadBurst x addr part s
  | .hostWriteBurst x addr vs => Sys2Proof.Machine.execHostWriteBurst x addr vs s
  | .hostSubmit x addr vs => Sys2Proof.Machine.execHostSubmit x addr vs s
  | .hostCommit x addr => Sys2Proof.Machine.execHostCommit x addr s
  | .hostFetch x addr part ack => Sys2Proof.Machine.execHostFetch x addr part ack s
  | .hostDoorbell x v => Sys2Proof.Machine.execHostDoorbell x v s
  | .hostStatus x => Sys2Proof.Machine.execHostStatus x s
  | .transactionStall port => Sys2Proof.Machine.execTransactionStall port s
  | .dbgHalt x target => Sys2Proof.Machine.execDbgHalt x target s
  | .dbgResume x target => Sys2Proof.Machine.execDbgResume x target s
  | .dbgStep x target => Sys2Proof.Machine.execDbgStep x target s
  | .dbgReadReg x target index => Sys2Proof.Machine.execDbgReadReg x target index s
  | .dbgWriteReg x target index v => Sys2Proof.Machine.execDbgWriteReg x target index v s
  | .dbgSetBreakpoint x target index v => Sys2Proof.Machine.execDbgSetBreakpoint x target index v s
  | .dbgClearBreakpoint x target index => Sys2Proof.Machine.execDbgClearBreakpoint x target index s
  | .vioRestored => Sys2Proof.Machine.execVioRestored s
  | .illegalWordIssue t => Sys2Proof.Machine.execIllegalWordIssue t s
  | .badcmdTransaction port op => Sys2Proof.Machine.execBadcmdTransaction port op s

end Sys2Proof.Machine
end

