-- ==== Sys2Proof/Machine/Stock.lean ====
section
/-! DEFINITION. The stock image of the ROM by what it does (R24, R25, R30, R195, R199, R274, R463, R464): the spec gives no word of it.
It acts in idle steps as the pan's first thread, by that thread's stores (DESIGN CHOICE, log 8). -/

namespace Sys2Proof.Machine

/-! ### The parameter block (Table 12-5) -/

/-- The word at byte `o` of the pan's scratch region. -/
def State.pbWord (s : State) (n : Fin 4) (o : Nat) : Word := memWord s.mem ((s.scratchRegion n).1 + o)
def State.pbPut (s : State) (n : Fin 4) (o : Nat) (v : Nat) : State :=
  { s with mem := memPutWord s.mem ((s.scratchRegion n).1 + o) (BitVec.ofNat 32 v) }

/-- A 16-bit status count goes up; it stays at 65,535 (DESIGN CHOICE, log 8). -/
def State.pbCount (s : State) (n : Fin 4) (o : Nat) : State := s.pbPut n o (min 0xFFFF (bitsOf (s.pbWord n o) 0 16 + 1))

/-- The values of STATE. -/
def pbRunning : Nat := 1
def pbBadpb : Nat := 2
def pbNocap : Nat := 3
def pbNothread : Nat := 4

def State.pbRole (s : State) : Nat := bitsOf (s.pbWord 0 4) 0 2
def State.pbHpan (s : State) : Fin 4 := idx 4 (bitsOf (s.pbWord 0 4) 4 2)
def State.pbPort (s : State) : LinePort := if bitOf (s.pbWord 0 8) 0 then .pair else .plc
def State.pbCmdflt (s : State) (n : Fin 4) : Nat := bitsOf (s.pbWord n 0x10) 0 7
def State.pbCmdrxf (s : State) (n : Fin 4) : Fin 4 := idx 4 (bitsOf (s.pbWord n 0x10) 8 2)

/-- A word has no bit outside a mask. -/
def within (m w : Word) : Bool := w &&& ~~~ m == 0

/-- The block of P0 holds a reserved value: a bit that Table 12-5 does not name, a plan, a period code, a MISS of 1, a filter beyond the
pan's (R464; which values are reserved is DEDUCED, log 8). -/
def State.pbReserved (s : State) : Bool :=
  let role := s.pbRole
  let plan := bitsOf (s.pbWord 0 8) 4 3
  let need := if role = 1 ∧ s.pbHpan = 0 then 2 else 1
  !within 0x0000BF33 (s.pbWord 0 4) || !within 0xF7 (s.pbWord 0 8) || !within 0xFF (s.pbWord 0 0xC) || !within 0x37F (s.pbWord 0 0x10) ||
    !within 1 (s.pbWord 0 0x14) ||
    (role != 0 && ((s.pbPort == .plc && (plan == 0 || plan == 7)) || (s.panFilters 0).length < s.pbCmdflt 0 + need)) ||
    (2 ≤ role && (9 < bitsOf (s.pbWord 0 0xC) 0 4 || bitsOf (s.pbWord 0 0xC) 4 4 == 1))

/-- The check of P0's block (R464, steps 1 and 2): 0, or the STATE it halts with. -/
def State.pbCheck (s : State) : Nat :=
  let role := s.pbRole
  if s.pbWord 0 0 != 0x72400001 || s.pbReserved then pbBadpb
  else if 2 ≤ role && !s.hasCap 0 .keeper || role == 2 && !s.hasCap 0 .channel then pbNocap
  else if 2 ≤ role && (s.panThreads 0).length < 2 || role == 1 && s.pbHpan != 0 && (s.panThreads s.pbHpan).isEmpty then pbNothread
  else 0

/-- The check of another pan's block; a filter beyond the harvest pan's own is a reserved value. -/
def State.pbCheckOther (s : State) (n : Fin 4) (harvest : Bool) : Nat :=
  if s.pbWord n 0 != 0x72400001 || !within 0x37F (s.pbWord n 0x10) || (harvest && (s.panFilters n).length ≤ s.pbCmdflt n) then pbBadpb
  else 0

/-! ### Starting (R464) -/

def State.updStock (s : State) (n : Fin 4) (f : Stock → Stock) : State := s.updEng fun e => { e with stock := tabUpd e.stock n f }

/-- The image halts with a STATE and an EXIT. -/
def State.stockHalt (s : State) (n : Fin 4) (t : Fin 8) (state : Nat) (exit : Byte) : State :=
  ((s.pbPut n 0x40 state).haltThread t fun th => { th with exitCode := exit, panRst := false }).updStock n fun _ => .reset

/-- One store of the image, ended as every access of a thread is (R687). -/
def State.stockStore (s : State) (t : Fin 8) (a : Nat) (v : Word) : State := (s.thrStoreAt t a v).swReset

/-- The words the image stores in order. -/
def State.stores (s : State) (t : Fin 8) (ws : List (Nat × Word)) : State := ws.foldl (fun s x => s.stockStore t x.1 x.2) s

/-- LINE_ADDR, port and role settings of Tables 1-1 and 12-5, the ports still disabled (R464, step 3). -/
def State.stockSettings (s : State) : List (Nat × Word) :=
  let b1 := s.pbWord 0 4
  let b2 := s.pbWord 0 8
  let b3 := s.pbWord 0 0xC
  let role := s.pbRole
  let addr := if bitOf b1 15 then [(0x51084, field 0 (bitsOf b1 8 6))] else []
  let port := match s.pbPort with
    | .plc => [(0x510A4, flag 0 (s.portEn .plc) ||| field 1 (bitsOf b2 1 2) ||| flag 3 (bitOf b2 7)), (0x510A8, field 0 (bitsOf b2 4 3))]
    | .pair => [(0x510C0, s.tide.ctl ||| 1), (0x510B4, s.line.pairCtl &&& 0x19)]
  let miss := bitsOf b3 4 4
  let keeper := s.tide.keeperReg
  let mode := field 0 (if role = 2 then 1 else if role = 3 then 2 else 0)
  let k1 := merge (0x3 : Word) keeper mode ||| flag 7 (role == 2)
  let k2 := if miss = 0 then k1 else putBits k1 8 4 miss
  let roles := if 2 ≤ role then [(0x510DC, field 0 (bitsOf b3 0 4)), (0x510E0, k2)]
    else if bitsOf keeper 0 2 = 0 then [] else [(0x510E0, k1)]
  addr ++ port ++ roles

/-- Filter `k` of a pan applied to a command class, topic 0, any source, into the inbox. -/
def State.stockFilter (s : State) (n : Fin 4) (k cls : Nat) : List (Nat × Word) :=
  let a := 0x50800 + 16 * k
  let port := match s.pbPort with | .plc => flag 3 true | .pair => flag 4 true
  [(a + 4, field 13 cls), (a + 8, 0xFFC0), (a + 12, 0), (a, flag 0 true ||| port ||| field 8 1 ||| field 16 (s.pbCmdrxf n).val)]

/-- The inbox of the first thread: disabled, its fields set, enabled; its ring stands as the owner wrote it (DESIGN CHOICE, log 8). -/
def State.stockInbox (s : State) (n : Fin 4) : List (Nat × Word) :=
  let q := s.pbCmdrxf n
  let a := 0x50180 + 16 * q.val
  let w := (s.rxf n q).ctl
  [(a, putBit w 0 false), (a, putBits (putBits w 0 8 0x81) 8 8 1)]

/-- PAN_CTL.ROLLRSP = 1, with its key. -/
def stockRollrsp : List (Nat × Word) := [(0x50010, 0xC5A1), (0x50004, 1)]

/-- The commands of the harvest pan (R464, step 4). -/
def State.stockHarvest (s : State) (n : Fin 4) (k : Nat) : List (Nat × Word) := s.stockFilter n k 3 ++ stockRollrsp

/-- The string port is enabled. -/
def State.stockEnable (s : State) (t : Fin 8) : State :=
  match s.pbPort with
  | .plc => s.stockStore t 0x510A4 (flag 0 true ||| field 1 (bitsOf (s.pbWord 0 8) 1 2) ||| flag 3 (bitOf (s.pbWord 0 8) 7))
  | .pair => s.stockStore t 0x510B4 (s.line.pairCtl ||| 1)

/-- The image runs: STATE, and what it holds; its thread waits. -/
def State.stockRuns (s : State) (n : Fin 4) (t : Fin 8) : State :=
  ((s.pbPut n 0x40 pbRunning).updThr t fun th => { th with state := .waiting }).updStock n fun x =>
    { x with
      run := .active
      role := if n = 0 then BitVec.ofNat 2 s.pbRole else 0
      hpan := s.pbHpan
      rxf := s.pbCmdrxf n
      kick := n = 0 && bitOf (s.pbWord 0 0x14) 0
      kickAt := s.eng.tnow
      expect := s.pbWord 0 0x1C ++ s.pbWord 0 0x18 }

/-- P0's image starts (R464). With ROLE 0 it sets STATE to running and halts, with an exit code the spec does not state. -/
def State.stockStart0 (s : State) (t : Fin 8) : State :=
  let role := s.pbRole
  if s.pbCheck ≠ 0 then s.stockHalt 0 t s.pbCheck (BitVec.ofNat 8 s.pbCheck)
  else if role = 0 then (s.stockHalt 0 t pbRunning ((Config.freeWord s.free).setWidth 8)).takeFree
  else
    let s1 := s.stores t s.stockSettings
    let s2 := s1.stores t (s1.stockFilter 0 (s1.pbCmdflt 0) 2 ++
      (if role = 1 ∧ s1.pbHpan = 0 then s1.stockHarvest 0 (s1.pbCmdflt 0 + 1) else []) ++ s1.stockInbox 0)
    let s3 := s2.stockEnable t
    if s3.portEn s3.pbPort || s3.pbPort == .plc then s3.stockRuns 0 t else s3.stockHalt 0 t pbBadpb (BitVec.ofNat 8 pbBadpb)

/-- Pan `n` is the harvest pan of P0's running image. -/
def State.harvestPan (s : State) (n : Fin 4) : Bool :=
  s.eng.stock[(0 : Fin 4)].run == .active && s.eng.stock[(0 : Fin 4)].role == 1 && s.eng.stock[(0 : Fin 4)].hpan == n

/-- The image of P1-P3 starts: in the harvest pan it takes the harvest commands; elsewhere it sets STATE to running and halts. -/
def State.stockStart (s : State) (n : Fin 4) (t : Fin 8) : State :=
  let h := s.harvestPan n
  let c := s.pbCheckOther n h
  if c ≠ 0 then s.stockHalt n t c (BitVec.ofNat 8 c)
  else if h then (s.stores t (s.stockHarvest n (s.pbCmdflt n) ++ s.stockInbox n)).stockRuns n t
  else (s.stockHalt n t pbRunning ((Config.freeWord s.free).setWidth 8)).takeFree

/-- The image reads its block: without scratch RAM its first load faults FOREIGN (R487). -/
def State.stockBegin (s : State) (n : Fin 4) (t : Fin 8) : State :=
  if (s.scratchRegion n).2 = 0 then (s.threadFault t fcForeign).updStock n fun _ => .reset
  else if n = 0 then s.stockStart0 t else s.stockStart n t

/-! ### Keepers (R25, R30, R195, R199) -/

/-- The next address after `a`, in turn, of a mask. -/
def nextAddr (m : BitVec 64) (a : Nat) : Option Nat := ((List.range 64).map fun k => (a + 1 + k) % 64).find? fun k => bitOf m k

/-- A SOUND request for an address goes to the sounding slot, unless one is still there or on the line (R119; that the image uses this
slot, and its BRS, are DESIGN CHOICES, log 8). -/
def State.stockSound (s : State) (m : BitVec 64) (kmark : Bool) : State :=
  let x := s.eng.stock[(0 : Fin 4)]
  let busy := s.line.soundOut.isSome || (((s.port s.stringPort).tx.map fun a => a.src == .sound).getD false)
  match nextAddr (putBit m s.line.addr.toNat false) x.turn.toNat, busy with
  | some a, false =>
    let f : Frame := { id := BitVec.ofNat 29 (64 + s.line.addr.toNat), xtd := false, rmt := false, iso := false, brs := true, esi := false
                       seq := (Config.freeWord s.free).setWidth 4, roll := false, stamp := false, more := false, len := 1
                       data := [putBit (BitVec.ofNat 8 a) 7 kmark] }
    ((s.updLine fun l => { l with soundOut := some f }).updStock 0 fun x => { x with turn := BitVec.ofNat 6 a }).takeFree
  | _, _ => s

/-- The sounding turn of a tide period: the sending main keeper's among the expected addresses that did not answer the roll of its last
tide frame (R25), a backup's while it does not send (R195). -/
def State.stockTurn (s : State) : State :=
  let x := s.eng.stock[(0 : Fin 4)]
  if x.role = 2 ∧ s.tide.sending then s.stockSound (x.expect &&& ~~~ s.tide.rollMap) false
  else if x.role = 3 ∧ !s.tide.sending then s.stockSound x.expect true
  else s

/-- PERMIT and the release count of a received tide frame copied into TIDE_KEEPER: by a main keeper in its listen and when it steps down
(R199), by a backup that does not send from the main keeper's frames (R30). -/
def State.stockCopy (s : State) (t : Fin 8) (h : HeardTide) : State :=
  let role := s.eng.stock[(0 : Fin 4)].role
  if role = 2 ∧ h.copies ∨ role = 3 ∧ !s.tide.sending ∧ !h.backup then
    s.stockStore t 0x510E0 (putBits (putBit s.tide.keeperReg 4 h.permit) 16 8 h.rel.toNat)
  else s

/-- What P0's image does about tide frames: the copy, and a turn for each tide frame used or sent. -/
def State.stockTide (s : State) (t : Fin 8) : State :=
  let s1 := match s.tide.noted with
    | some h => (s.updTide fun x => { x with noted := none }).stockCopy t h
    | none => s
  if bitOf s1.eng.thr[t].ev evTide then
    (s1.updThr t fun th => { th with ev := putBit th.ev evTide false }).stockTurn
  else s1

/-- The watchdog is kicked every 8 ms. -/
def State.stockKick (s : State) : State :=
  let x := s.eng.stock[(0 : Fin 4)]
  if x.kick && 1600000 ≤ (s.eng.tnow - x.kickAt).toNat then
    (if s.eng.wdEn then s.kick else s).updStock 0 fun y => { y with kickAt := s.eng.tnow }
  else s

/-! ### Commands (R273, R274) -/

/-- The entries a command asks for: SCHn_CTL and SCHn_OPND of each (R274). -/
def stockSpecs (move : Bool) (f : Frame) : List (Word × Word) :=
  let b := f.be 16 1
  if move then [(field 0 6 ||| field 4 1, field 0 b)]
  else (if b.testBit 0 then [(field 0 2 ||| flag 8 true, field 0 8 ||| field 4 3 ||| field 8 (f.be 18 2))] else []) ++
    (if b.testBit 1 then [(field 0 3, 0)] else [])

/-- The earlier entries of a command are disarmed (R274). -/
def State.stockDisarm (s : State) (t : Fin 8) (es : List (Fin 32)) : State :=
  es.foldl (fun s e => s.schCtl (.thread t) e (s.sched.ent[e].ctlWord &&& 0x13F)) s

/-- An entry armed for a command. -/
def State.stockArm (s : State) (t : Fin 8) (c : StockCmd) (e : Fin 32) (x : Word × Word) : State :=
  (s.schWrite e fun y => { y with tick := BitVec.ofNat 28 (bitsOf c.tick 0 28), sec := c.sec, opnd := x.2 }).schArm (.thread t) e
    (putBit x.1 31 true)

/-- A command that is no repeat arms its entries, or with too few IDLE entries none, which HREFUSE counts. -/
def State.stockAct (s : State) (n : Fin 4) (t : Fin 8) (c : StockCmd) (specs : List (Word × Word)) : State :=
  let same := fun (y : StockCmd) => y.move == c.move && y.ident == c.ident
  let x := s.eng.stock[n]
  if x.cmds.any fun y => same y && y.sec == c.sec && y.tick == c.tick then s
  else
    let s1 := s.stockDisarm t ((x.cmds.filter same).flatMap StockCmd.ents)
    let idle := ((s1.panEntries n).map (idx 32)).filter fun e => s1.sched.ent[e].state == .idle
    if idle.length < specs.length then (s1.pbCount n 0x44).updStock n fun y => { y with cmds := y.cmds.filter fun z => !same z }
    else
      let es := idle.take specs.length
      let s2 := (es.zip specs).foldl (fun s p => s.stockArm t c p.1 p.2) s1
      (s2.pbCount n 0x48).updStock n fun y =>
        { y with cmds := { c with ents := es } :: ((y.cmds.filter fun z => !same z).map fun z =>
            { z with ents := z.ents.filter fun e => !es.contains e }) }

/-- A frame of the inbox: a command of Table 7-6 from the tracked keeper, for this pan (R273, R274). -/
def State.stockCommand (s : State) (n : Fin 4) (t : Fin 8) (f : Frame) : State :=
  let move := f.cls == 2
  let mine := if move then n == 0 && 1 ≤ f.be 16 1 && f.be 16 1 ≤ 6 else f.cls == 3 && s.harvestPan n
  if f.iso || f.topic != 0 || f.len < 20 || !mine || f.source != s.tide.keeper.toNat then s
  else
    s.stockAct n t ⟨move, BitVec.ofNat 8 (f.be 17 1), BitVec.ofNat 32 (f.be 8 4), BitVec.ofNat 32 (f.be 12 4), []⟩ (stockSpecs move f)

/-- The oldest frame of the inbox is taken. -/
def State.stockServe (s : State) (n : Fin 4) (t : Fin 8) : State :=
  let q := s.eng.stock[n].rxf
  match (s.rxf n q).frames with
  | g :: _ =>
    if s.isCode n (.thread t) (s.rxf n q).cons then
      (s.updRxf n q fun rx => { rx with frames := rx.frames.drop 1 }).stockCommand n t (s.slotFrame g)
    else s
  | [] => s

/-! ### A core cycle -/

/-- The image of a pan in one core cycle: it starts, goes on, or has been halted. In DEBUG it rests. -/
def State.stockPan (s : State) (n : Fin 4) : State :=
  let x := s.eng.stock[n]
  let t := x.thr
  match x.run, s.eng.thr[t].state with
  | .off, _ => s
  | _, .halted => s.updStock n fun _ => .reset
  | _, .debug => s
  | .starting, _ => s.stockBegin n t
  | .active, _ =>
    let s1 := (s.updThr t fun th => { th with state := .waiting }).stockServe n t
    if n = 0 then (s1.stockTide t).stockKick else s1

/-- The stock images in one core cycle, P0's first. -/
def State.stockCycle (s : State) : State :=
  if s.coreRuns then (allPans.foldl State.stockPan s).settle else s

end Sys2Proof.Machine
end

