-- ==== Sys2Proof/Machine/Issue.lean ====
section
/-! DEFINITION. The issue of the engine: which thread a core cycle belongs to, the word at its PC, the cycles until it is ready again
(R430-R436, R493, R502). -/

namespace Sys2Proof.Machine

/-- The thread whose own slot this cycle is (R430). -/
def State.slotThread (s : State) : Fin 8 := idx 8 (s.eng.tnow.toNat % 8)

/-- The thread stands for a stock image, whose instructions are not in the spec. -/
def State.isStock (s : State) (t : Fin 8) : Bool := s.eng.stock.toList.any fun x => x.run != .off && x.thr == t

/-- The thread is ready (R431). -/
def State.ready (s : State) (t : Fin 8) : Bool :=
  s.eng.thr[t].state == .running && decide (s.eng.thr[t].readyAt ≤ s.eng.tnow) && !s.isStock t

/-- A step of the debugger waits for the thread's own slot (R466). -/
def State.steps (s : State) (t : Fin 8) : Bool :=
  s.eng.thr[t].state == .debug && s.eng.thr[t].stepping && s.eng.thr[t].waitOn.isNone && !s.isStock t

/-- The thread that issues in this cycle: the owner of the slot, else for a surplus slot the ready thread of the highest priority, ties
to the lower number, that is not STRICT and in sealed mode of the owner's pan (R431, R434, R435). -/
def State.issuing (s : State) : Option (Fin 8) :=
  let o := s.slotThread
  if !s.coreRuns then none
  else if s.ready o || s.steps o then some o
  else bestWaiter s ((List.finRange 8).filter fun t =>
    s.ready t && !s.eng.thr[t].strict && (!s.sealed || s.thrPan t == s.thrPan o))

/-- The word at a thread's PC (R493, R502). -/
def State.fetchWord (s : State) (t : Fin 8) : Word :=
  let pc := s.eng.thr[t].pc
  if bitOf pc 14 then Config.rom (bitsOf pc 0 14) else memWord s.mem ((s.iramRegion (s.thrPan t)).1 + 4 * bitsOf pc 0 14)

/-- The instruction at a thread's PC; an illegal word, and a location outside reach, raise ILLEGAL at the issue (R478, R494). -/
def State.fetched (s : State) (t : Fin 8) : Instr :=
  if s.inReach (s.thrPan t) s.eng.thr[t].pc then (decodeEngine t (s.fetchWord t)).getD (.illegalWordIssue t) else .illegalWordIssue t

/-- The completion time of a load or store (Table 13-5). -/
def State.accessCycles (s : State) (t : Fin 8) (base : Fin 16) (off : BitVec 16) : Nat :=
  match (s.thrPlace (s.thrPan t) (wordAddr (s.effAddr t base off))).map Prod.fst with
  | some (.brine _ _) => 6
  | some (.reg _ _) => 8
  | some (.bit _ _ _) => 8
  | _ => 4

/-- The cycles to the thread's next own slot, for yield (R515). -/
def State.toOwnSlot (s : State) (t : Fin 8) : Nat := 8 - (s.eng.tnow.toNat + 8 - t.val) % 8

/-- The completion time of an instruction (Tables 12-1, 13-3 to 13-7 and 14-2). -/
def State.cyclesOf (s : State) (t : Fin 8) (i : Instr) : Nat :=
  let taken := fun (c : Bool) => if c then 2 else 1
  match i with
  | .mul .. | .mulhu .. | .mulhs .. | .mulImm .. => 4
  | .ldw _ _ b o | .ldh _ _ b o | .ldhs _ _ b o | .ldb _ _ b o | .ldbs _ _ b o | .stw _ _ b o | .sth _ _ b o | .stb _ _ b o =>
    s.accessCycles t b o
  | .beq _ a b _ => taken (s.reg t a == s.reg t b)
  | .bne _ a b _ => taken (s.reg t a != s.reg t b)
  | .blt _ a b _ => taken ((s.reg t a).slt (s.reg t b))
  | .bge _ a b _ => taken (!(s.reg t a).slt (s.reg t b))
  | .bltu _ a b _ => taken (decide (s.reg t a < s.reg t b))
  | .bgeu _ a b _ => taken (!decide (s.reg t a < s.reg t b))
  | .call .. | .jr .. | .jalr .. => 2
  | .yield _ => s.toOwnSlot t
  | .add .. | .sub .. | .and .. | .or .. | .xor .. | .andn .. | .shl .. | .shr .. | .sar .. | .cmp .. | .cmpu .. | .min .. | .max ..
  | .minu .. | .maxu .. | .clz .. | .popc .. | .bswap .. | .addImm .. | .andImm .. | .orImm .. | .xorImm .. | .shlImm .. | .shrImm ..
  | .sarImm .. | .cmpImm .. | .cmpuImm .. | .lui .. | .bext .. | .bexts .. | .bins .. => 1
  | _ => 8

/-- The issue of one core cycle: at most one instruction (R430), whose thread is ready again after its completion time (R432). -/
def engineCycle (s : State) : Out :=
  match s.issuing with
  | none => .next s
  | some t =>
    let i := s.fetched t
    exec i (s.updThr t fun th => { th with readyAt := s.eng.tnow + BitVec.ofNat 64 (s.cyclesOf t i) })

end Sys2Proof.Machine
end

