-- ==== Sys2Proof/Safety.lean ====
section
/-! DEFINITION. What counts as a safe run, and the conditions on a state that statements about commands share. -/

namespace Sys2Proof.Safety

open Sys2Proof.Machine

/-- A step answers a next state. -/
def completes (s : State) : Bool :=
  match step s with
  | .next _ => true
  | _ => false

/-- Thread `t` issues the instruction at its PC: the core runs, the thread is RUNNING or is stepped, no breakpoint that it has not
met stands at its PC, which is within reach of its pan (R431, R466, R467, R493). -/
def canIssue (s : State) (t : Fin 8) : Prop :=
  s.coreRuns = true ∧ s.eng.thr[t].issues = true ∧ s.atBreakpoint t = false ∧ s.inReach (s.thrPan t) s.eng.thr[t].pc = true

/-- The access of a party to the block or window `via` is served: a host port has VIO, is past HPI_READY with the core running, has the
rights of Table 8-4 and no FETCH or READ_BURST still open; a thread issues, and its pan reaches the block or window. No pan reset runs
there, and no software reset waits, which no state a step leaves has. -/
def served (s : State) (p : Party) (via : Via) : Prop :=
  s.sys.swPend = false ∧ s.resetting via = false ∧
    match p with
    | .host h => s.pow.vioOk = true ∧ s.serves = true ∧ s.viaRight h via = .yes ∧ s.host[h.ix].tx = none
    | .thread t => s.coreRuns = true ∧ s.eng.thr[t].issues = true ∧ s.thrReaches t via = true

/-- A transaction that its port serves: VIO, past HPI_READY with the core running, the port not busy, the byte count, the CRC and
the effect point as they must be (R627, R633-R636); no earlier FETCH or READ_BURST of the port is still open. -/
def plain (s : State) (x : Xfer) : Prop :=
  s.sys.swPend = false ∧ s.pow.vioOk = true ∧ s.serves = true ∧ x.busy = false ∧ x.countOk = true ∧ x.crcOk = true ∧ x.reached = true ∧
    s.host[x.port.ix].tx = none

/-- The state in which an access acts: a host's transaction has ended a pending LISTEN or SLEEP request at its CS_N fall (R777). -/
def accessState (s : State) : Party → State
  | .host _ => s.endRequest false
  | .thread _ => s

/-- `t` is `u` but for what the end of a transaction records for its port, and for parity mismatches that a write ends. -/
structure LikeState (t u : State) : Prop where
  eq : t = { u with host := t.host, sys := { u.sys with parBad := t.sys.parBad, shBad := t.sys.shBad } }

/-- The thread that issues a command of the engine's instruction set. -/
def issuer : Instr → Option (Fin 8)
  | .add t _ _ _ | .sub t _ _ _ | .and t _ _ _ | .or t _ _ _ | .xor t _ _ _ | .andn t _ _ _ | .shl t _ _ _ | .shr t _ _ _
  | .sar t _ _ _ | .mul t _ _ _ | .mulhu t _ _ _ | .mulhs t _ _ _ | .cmp t _ _ _ | .cmpu t _ _ _ | .min t _ _ _ | .max t _ _ _
  | .minu t _ _ _ | .maxu t _ _ _ | .clz t _ _ | .popc t _ _ | .bswap t _ _ | .addImm t _ _ _ | .andImm t _ _ _ | .orImm t _ _ _
  | .xorImm t _ _ _ | .shlImm t _ _ _ | .shrImm t _ _ _ | .sarImm t _ _ _ | .mulImm t _ _ _ | .cmpImm t _ _ _ | .cmpuImm t _ _ _
  | .lui t _ _ | .bext t _ _ _ _ | .bexts t _ _ _ _ | .bins t _ _ _ _ | .ldw t _ _ _ | .ldh t _ _ _ | .ldhs t _ _ _ | .ldb t _ _ _
  | .ldbs t _ _ _ | .stw t _ _ _ | .sth t _ _ _ | .stb t _ _ _ | .beq t _ _ _ | .bne t _ _ _ | .blt t _ _ _ | .bge t _ _ _
  | .bltu t _ _ _ | .bgeu t _ _ _ | .call t _ | .jr t _ | .jalr t _ _ | .csrr t _ _ | .csrw t _ _ | .fork t _ _ _ | .join t _ _
  | .halt t _ | .wait t _ | .yield t | .lkAcq t _ _ | .lkTry t _ _ | .lkRel t _ _ | .fput t _ _ _ | .fgetTq t _ _ _ | .fgetRxf t _ _ _
  | .fgetMbx t _ _ _ | .fpeekTq t _ _ _ | .fpeekRxf t _ _ _ | .fpeekMbx t _ _ _ | .fstatTq t _ _ | .fstatRxf t _ _ | .fstatSch t _ _
  | .flush t _ _ | .treadTick t _ | .treadSec t _ | .treadStatus t _ | .sset t _ _ _ | .sclr t _ _ | .fltw t _ _ | .ring t _ _
  | .irqDone t _ _ | .crc24 t _ _ _ | .sluice t | .illegalWordIssue t => some t
  | _ => none

/-- The command runs as an instruction of thread `t` that writes `v` to register `rd` and goes on. -/
def Writes (c : Instr) (s : State) (t : Fin 8) (rd : Reg) (v : Word) : Prop :=
  exec c s = .next ((s.putReg t rd v).advance t)

/-- The command answers a next state of which `P` holds. -/
def Leads (c : Instr) (s : State) (P : State → Prop) : Prop := ∃ u, exec c s = .next u ∧ P u

/-- `u` has the frame of slot `src` copied into slot `dst`: W0, W1, W3 to W7, the low eleven bits and GEN of W2 and the data words of
the frame's length; OWN and OTHR of the destination and every byte outside it stay. With `seen`, the removal that marks `src` as seen
is left out. -/
def Copied (s u : State) (src dst : Nat) (seen : Bool) : Prop :=
  (∀ w, w < 8 → w ≠ 2 → u.slotWord dst w = s.slotWord src w) ∧
  (∀ i, i < 11 ∨ 16 ≤ i → seen = false → (u.slotWord dst 2).getLsbD i = (s.slotWord src 2).getLsbD i) ∧
  (∀ i, 11 ≤ i → i < 16 → (u.slotWord dst 2).getLsbD i = (s.slotWord dst 2).getLsbD i) ∧
  (∀ k, k < dataWords (min 64 (bitsOf (s.slotWord src 1) 0 7)) → u.slotWord dst (8 + k) = s.slotWord src (8 + k)) ∧
  (∀ b, b < 0x20000 + 96 * dst ∨ 0x20000 + 96 * dst + 96 ≤ b → seen = false → memGet u.mem b = memGet s.mem b)

end Sys2Proof.Safety
end

