-- ==== Sys2Proof/Certificates/Slice0/Obligations.lean ====
section
/-! DEFINITION. The statements about the machine. -/

open Sys2Proof Sys2Proof.Machine Sys2Proof.Safety

/-! ### The queue, the idle step, reset -/

/-- A step takes the command at the front of the queue and runs exec on it with the queue's rest. -/
def Obligations.StepTakesTheFrontCommand : Prop :=
  ∀ (s : State) (c : Instr) (cs : List Instr),
    step { s with pending := c :: cs } = exec c { s with pending := cs }

/-- With nothing waiting a step is one cycle of the core clock: TNOW goes on by one unless the cycle resets the controller, and the engine issues at
most one instruction, that at the PC of the thread whose turn it is, decoded by Tables 13-1 to 13-7 and 14-2 (the worked words of Table
13-10, and some of every format beside them; a word of zeros and one of ones are illegal). While the core clock is stopped it changes
nothing. (That an idle step is one core cycle, and what the stock image of the ROM does in it, are the model's choices, logs 16 and 8.) -/
def Obligations.IdleStepIsOneCoreCycle : Prop :=
  (∀ s : State, s.pending = [] →
    let u := s.coreCycle.stockCycle
    (u.issuing = none → step s = .next u) ∧
    (∀ t, u.issuing = some t → ∃ v : State, v = { u with eng := v.eng } ∧ (∀ x, x ≠ t → v.eng.thr[x] = u.eng.thr[x]) ∧
      step s = exec (if u.inReach (u.thrPan t) u.eng.thr[t].pc then (decodeEngine t (u.fetchWord t)).getD (.illegalWordIssue t)
        else .illegalWordIssue t) v) ∧
    (s.coreRuns = false → step s = .next s)) ∧
  (∀ s : State, s.coreRuns = true → s.coreCycle.pow.state ≠ .reset → s.coreCycle.eng.tnow = s.eng.tnow + 1) ∧
  (∀ (s : State) (t : Fin 8), s.issuing = some t → s.coreRuns = true ∧ s.eng.thr[t].issues = true) ∧
  (∀ t : Fin 8,
    decodeEngine t 0x1CA40060 = some (.mulImm t (.g 5) (.g 4) 96) ∧ decodeEngine t 0x28C00002 = some (.lui t (.g 6) 2) ∧
    decodeEngine t 0x04A53000 = some (.add t (.g 5) (.g 5) (.g 6)) ∧ decodeEngine t 0x40E50020 = some (.ldw t 7 5 32) ∧
    decodeEngine t 0x04E70014 = some (.bswap t (.g 7) (.g 7)) ∧ decodeEngine t 0x19070030 = some (.shrImm t (.g 8) (.g 7) 16) ∧
    decodeEngine t 0x2D2701E0 = some (.bext t (.g 9) (.g 7) 0 15) ∧ decodeEngine t 0x7C0F0000 = some (.jr t 15) ∧
    decodeEngine t 0xB4200000 = some (.lkAcq t 1 0) ∧ decodeEngine t 0xC48A1001 = some (.fgetRxf t 4 10 1) ∧
    decodeEngine t 0 = none ∧ decodeEngine t 0xFFFFFFFF = none)

/-- Every command answers a next state in every state, whatever its operands; none touches the queue that the step takes commands
from. A received frame operand is read as the wire carries it. -/
def Obligations.WellFormedCommandsComplete : Prop :=
  (∀ (c : Instr) (s : State), ∃ t, exec c s = .next t) ∧
  (∀ (c : Instr) (s t : State), exec c s = .next t → t.pending = s.pending) ∧
  (∀ (s : State) (port : LinePort) (f : Frame) (sof : Instant) (m : Byte) (e : RxEnd),
    exec (.receiveFrame port f sof m e) s = exec (.receiveFrame port f.norm sof m e) s ∧
    exec (.tideFrameRx port f sof) s = exec (.tideFrameRx port f.norm sof) s ∧
    exec (.soundRequestRx port f sof) s = exec (.soundRequestRx port f.norm sof) s ∧
    exec (.soundResultRx port f) s = exec (.soundResultRx port f.norm) s)

/-! ### Reset -/

/-- What a power-on reset and ROM initialisation leave: the values the spec states for reset. The state after reset meets the
invariants. -/
def Obligations.ResetState : Prop :=
  (State.reset.pow.state = .reset ∧ State.reset.pow.ready = false ∧ State.reset.sys.rstCause = 1 ∧
   State.reset.sys.panLock = false ∧ State.reset.sys.dbgLock = false ∧ State.reset.slu.safe = false ∧ State.reset.slu.run = false ∧
   State.reset.irq.pend = 0 ∧ State.reset.irq.en = 0 ∧ State.reset.mem = [] ∧ State.reset.pending = [] ∧
   (∀ t : Fin 8, State.reset.eng.thr[t].state = .halted) ∧ (∀ l : Fin 32, State.reset.eng.locks[l] = none) ∧
   (∀ e : Fin 32, State.reset.sched.ent[e].state = .idle) ∧
   (∀ n q : Fin 4, (State.reset.tq n q).en = false ∧ (State.reset.tq n q).rlim = 3 ∧ (State.reset.rxf n q).en = false ∧
     (State.reset.rxf n q).wm = 1) ∧
   (∀ g : Nat, g < 1344 → State.reset.slotOwn g = ownHost)) ∧
  (Memory.wf State.reset.mem = true ∧ State.reset.sys.swPend = false ∧ State.reset.sys.panLock = false)

/-! ### Invariants of every step -/

/-- Memory stays in its canonical form: addresses strictly rising, no zero byte listed. -/
def Obligations.EveryStepKeepsTheMemoryForm : Prop :=
  ∀ s t : State, Memory.wf s.mem = true → step s = .next t → Memory.wf t.mem = true

/-- No state that a step leaves has a software reset waiting. -/
def Obligations.NoStepLeavesASoftwareReset : Prop :=
  ∀ s t : State, s.sys.swPend = false → step s = .next t → t.sys.swPend = false

/-- Once PANLOCK is set, every step keeps PANLOCK and every word of the allocation, and once DBGLOCK is set every step keeps it,
unless the step resets the controller. -/
def Obligations.LockBitsStayUntilAReset : Prop :=
  (∀ s t : State, s.sys.panLock = true → step s = .next t →
     t.pow.state = .reset ∨ (t.sys.panLock = true ∧ t.alloc = s.alloc)) ∧
  (∀ s t : State, s.sys.dbgLock = true → step s = .next t → t.pow.state = .reset ∨ t.sys.dbgLock = true)

/-- An OTP word once programmed keeps its value through every step, and no command but OTPWR changes any. -/
def Obligations.OtpWordsAreProgrammedOnce : Prop :=
  (∀ (s t : State) (k : Fin 16), step s = .next t → s.otp.words[k] ≠ 0 → t.otp.words[k] = s.otp.words[k]) ∧
  (∀ (c : Instr) (s t : State), (∀ ws, c ≠ .otpwr ws) → exec c s = .next t → t.otp.words = s.otp.words)

/-! ### Issue, faults -/

/-- A thread that is not ready, or whose core clock is stopped, issues nothing: its instruction leaves the whole state as it is. A
thread at a breakpoint it has not met enters DEBUG instead, with its PC at the instruction, and raises BRK of its pan. At a PC outside
reach every instruction raises ILLEGAL at the issue of that location, and nothing else of it happens. -/
def Obligations.IssueNeedsAReadyThreadInReach : Prop :=
  (∀ (c : Instr) (s : State) (t : Fin 8), issuer c = some t → (s.coreRuns = false ∨ s.eng.thr[t].issues = false) →
     exec c s = .next s) ∧
  (∀ (c : Instr) (s : State) (t : Fin 8), issuer c = some t → s.coreRuns = true → s.eng.thr[t].issues = true →
     s.atBreakpoint t = true → Leads c s fun u => u.eng.thr[t].state = .debug ∧ u.eng.thr[t].pc = s.eng.thr[t].pc ∧
       bitOf u.pans[s.thrPan t].fault 6 = true ∧ u.eng.locks = s.eng.locks ∧ u.mem = s.mem) ∧
  (∀ (c : Instr) (s : State) (t : Fin 8), issuer c = some t → s.coreRuns = true → s.eng.thr[t].issues = true →
     s.atBreakpoint t = false → s.inReach (s.thrPan t) s.eng.thr[t].pc = false → exec c s = .next (s.threadFault t fcIllegal))

/-- An illegal word raises ILLEGAL: the thread is HALTED with FCAUSE ILLEGAL and its PC at the word, its bit of PAN_FAULT is set,
and it holds no lock. -/
def Obligations.IllegalWordFaultsTheThread : Prop :=
  ∀ (s : State) (t : Fin 8), canIssue s t →
    ∃ u, exec (.illegalWordIssue t) s = .next u ∧ u.eng.thr[t].state = .halted ∧ u.eng.thr[t].fcause = 1 ∧
      u.eng.thr[t].pc = s.eng.thr[t].pc ∧ u.eng.thr[t].exitCode = s.eng.thr[t].exitCode ∧
      bitOf u.pans[s.thrPan t].fault (8 + s.thrLocal t) = true ∧ ∀ l : Fin 32, u.eng.locks[l] ≠ some t

/-! ### Registers (chapter 13) -/

/-- Table 13-3: what each register instruction writes to rd, from the values of ra and rb before it. -/
def Obligations.RegisterInstructionsWriteTheirResult : Prop :=
  ∀ (s : State) (t : Fin 8) (rd ra rb : Reg), canIssue s t →
    let a := s.reg t ra
    let b := s.reg t rb
    Writes (.add t rd ra rb) s t rd (a + b) ∧ Writes (.sub t rd ra rb) s t rd (a - b) ∧
    Writes (.and t rd ra rb) s t rd (a &&& b) ∧ Writes (.or t rd ra rb) s t rd (a ||| b) ∧
    Writes (.xor t rd ra rb) s t rd (a ^^^ b) ∧ Writes (.andn t rd ra rb) s t rd (a &&& ~~~b) ∧
    Writes (.shl t rd ra rb) s t rd (a <<< (b.toNat % 32)) ∧ Writes (.shr t rd ra rb) s t rd (a >>> (b.toNat % 32)) ∧
    Writes (.sar t rd ra rb) s t rd (a.sshiftRight (b.toNat % 32)) ∧
    Writes (.mul t rd ra rb) s t rd (BitVec.ofNat 32 (a.toNat * b.toNat)) ∧
    Writes (.mulhu t rd ra rb) s t rd (BitVec.ofNat 32 (a.toNat * b.toNat / 2 ^ 32)) ∧
    Writes (.mulhs t rd ra rb) s t rd (BitVec.ofInt 32 (a.toInt * b.toInt / 2 ^ 32)) ∧
    Writes (.cmp t rd ra rb) s t rd (if a.toInt < b.toInt then 0xFFFFFFFF else if a.toInt = b.toInt then 0 else 1) ∧
    Writes (.cmpu t rd ra rb) s t rd (if a.toNat < b.toNat then 0xFFFFFFFF else if a.toNat = b.toNat then 0 else 1) ∧
    Writes (.min t rd ra rb) s t rd (BitVec.ofInt 32 (min a.toInt b.toInt)) ∧
    Writes (.max t rd ra rb) s t rd (BitVec.ofInt 32 (max a.toInt b.toInt)) ∧
    Writes (.minu t rd ra rb) s t rd (BitVec.ofNat 32 (min a.toNat b.toNat)) ∧
    Writes (.maxu t rd ra rb) s t rd (BitVec.ofNat 32 (max a.toNat b.toNat)) ∧
    (∃ n : Nat, n ≤ 32 ∧ Writes (.clz t rd ra) s t rd (BitVec.ofNat 32 n) ∧ (∀ i, 32 - n ≤ i → a.getLsbD i = false) ∧
      (n < 32 → a.getLsbD (31 - n) = true)) ∧
    Writes (.popc t rd ra) s t rd (BitVec.ofNat 32 ((List.range 32).map fun i => (a.getLsbD i).toNat).sum) ∧
    (∃ v : Word, Writes (.bswap t rd ra) s t rd v ∧ ∀ i j : Nat, i < 4 → j < 8 → v.getLsbD (8 * i + j) = a.getLsbD (8 * (3 - i) + j))

/-- Table 13-4: what each immediate instruction writes to rd. -/
def Obligations.ImmediateInstructionsWriteTheirResult : Prop :=
  ∀ (s : State) (t : Fin 8) (rd ra : Reg) (imm : BitVec 16) (n : BitVec 5), canIssue s t →
    let a := s.reg t ra
    Writes (.addImm t rd ra imm) s t rd (BitVec.ofInt 32 (a.toInt + imm.toInt)) ∧
    Writes (.andImm t rd ra imm) s t rd (BitVec.ofNat 32 (a.toNat &&& imm.toNat)) ∧
    Writes (.orImm t rd ra imm) s t rd (BitVec.ofNat 32 (a.toNat ||| imm.toNat)) ∧
    Writes (.xorImm t rd ra imm) s t rd (BitVec.ofNat 32 (a.toNat ^^^ imm.toNat)) ∧
    Writes (.shlImm t rd ra n) s t rd (a <<< n.toNat) ∧ Writes (.shrImm t rd ra n) s t rd (a >>> n.toNat) ∧
    Writes (.sarImm t rd ra n) s t rd (a.sshiftRight n.toNat) ∧
    Writes (.mulImm t rd ra imm) s t rd (BitVec.ofInt 32 (a.toInt * imm.toInt)) ∧
    Writes (.cmpImm t rd ra imm) s t rd (if a.toInt < imm.toInt then 0xFFFFFFFF else if a.toInt = imm.toInt then 0 else 1) ∧
    Writes (.cmpuImm t rd ra imm) s t rd (if a.toNat < imm.toNat then 0xFFFFFFFF else if a.toNat = imm.toNat then 0 else 1) ∧
    Writes (.lui t rd imm) s t rd (BitVec.ofNat 32 (imm.toNat * 65536))

/-- bext, bexts and bins with position P and width W: the bits of rd; P + W above 32 is ILLEGAL. -/
def Obligations.BitFieldInstructions : Prop :=
  ∀ (s : State) (t : Fin 8) (rd ra : Reg) (pos wid : BitVec 5), canIssue s t →
    let a := s.reg t ra
    let d := s.reg t rd
    let P := pos.toNat
    let W := wid.toNat + 1
    (P + W ≤ 32 →
      (∃ v : Word, Writes (.bext t rd ra pos wid) s t rd v ∧ ∀ i, v.getLsbD i = (decide (i < W) && a.getLsbD (P + i))) ∧
      (∃ v : Word, Writes (.bexts t rd ra pos wid) s t rd v ∧ ∀ i, i < 32 → v.getLsbD i = a.getLsbD (P + min i (W - 1))) ∧
      (∃ v : Word, Writes (.bins t rd ra pos wid) s t rd v ∧
        ∀ i, v.getLsbD i = if P ≤ i ∧ i < P + W then a.getLsbD (i - P) else d.getLsbD i)) ∧
    (32 < P + W →
      exec (.bext t rd ra pos wid) s = .next (s.threadFault t fcIllegal) ∧
      exec (.bexts t rd ra pos wid) s = .next (s.threadFault t fcIllegal) ∧
      exec (.bins t rd ra pos wid) s = .next (s.threadFault t fcIllegal))

/-- What writing a register and going on changes: a g register of the thread (g0 keeps reading zero), or an s register that every
thread of the pan shares, and the PC, which goes on by one in its space; every other register of every thread, all of memory and
every other part of the state stay. A thread that was stepped is in DEBUG again. -/
def Obligations.RegisterWriteBackAndFrame : Prop :=
  ∀ (s : State) (t : Fin 8) (rd : Reg) (v : Word),
    let u := (s.putReg t rd v).advance t
    (∀ r : Reg, u.reg t r = if r = rd ∧ rd ≠ .g 0 then v else s.reg t r) ∧
    (∀ (x : Fin 8) (n : Fin 16), x ≠ t → u.gReg x n = s.gReg x n) ∧
    (∀ (x : Fin 8) (n : Fin 16), s.thrOwner x = s.thrOwner t → u.reg x (.s n) = u.reg t (.s n)) ∧
    (∀ (x : Fin 8) (n : Fin 16), s.thrOwner x ≠ s.thrOwner t → u.reg x (.s n) = s.reg x (.s n)) ∧
    (u.eng.thr[t].pc.toNat = s.eng.thr[t].pc.toNat / 16384 * 16384 + (s.eng.thr[t].pc.toNat % 16384 + 1) % 16384) ∧
    (u.eng.thr[t].state = if s.eng.thr[t].stepping then .debug else s.eng.thr[t].state) ∧
    (∀ x : Fin 8, x ≠ t → u.eng.thr[x] = s.eng.thr[x]) ∧
    u.eng.locks = s.eng.locks ∧ u.eng.tnow = s.eng.tnow ∧ (∀ a, memGet u.mem a = memGet s.mem a) ∧
    u.sys = s.sys ∧ u.pow = s.pow ∧ u.slu = s.slu ∧ u.irq = s.irq ∧ u.line = s.line ∧ u.tide = s.tide ∧ u.cal = s.cal ∧
    u.sched = s.sched ∧ u.tim = s.tim ∧ u.flt = s.flt ∧ u.alloc = s.alloc ∧ u.host = s.host ∧ u.otp = s.otp ∧
    (∀ n : Fin 4, u.pans[n] = { s.pans[n] with sreg := u.pans[n].sreg })

/-! ### Control flow -/

/-- Branches: the PC moves by the signed offset when the condition holds, else to the next instruction; nothing else changes but
that a stepped thread is in DEBUG again. The location an offset away keeps the space and counts the index modulo 16,384. -/
def Obligations.BranchesMoveThePc : Prop :=
  (∀ (s : State) (t : Fin 8) (ra rb : Reg) (off : BitVec 16), canIssue s t →
     let a := s.reg t ra
     let b := s.reg t rb
     let next := fun (c : Instr) (taken : Prop) [Decidable taken] =>
       exec c s = .next (s.jump t (if taken then pcAdd s.eng.thr[t].pc off.toInt else pcAdd s.eng.thr[t].pc 1))
     next (.beq t ra rb off) (a = b) ∧ next (.bne t ra rb off) (a ≠ b) ∧
     next (.blt t ra rb off) (a.toInt < b.toInt) ∧ next (.bge t ra rb off) (b.toInt ≤ a.toInt) ∧
     next (.bltu t ra rb off) (a.toNat < b.toNat) ∧ next (.bgeu t ra rb off) (b.toNat ≤ a.toNat)) ∧
  (∀ (pc : BitVec 15) (off : Int),
     (pcAdd pc off).getLsbD 14 = pc.getLsbD 14 ∧
     (((pcAdd pc off).toNat % 16384 : Nat) : Int) = (((pc.toNat % 16384 : Nat) : Int) + off) % 16384)

/-- call, jr and jalr: the PC, and the register that takes the location of the next instruction; a jump to a value with bits [31:15]
not all zero raises ILLEGAL. -/
def Obligations.CallsAndJumps : Prop :=
  ∀ (s : State) (t : Fin 8) (rd ra : Fin 16) (off : BitVec 16), canIssue s t →
    let pc := s.eng.thr[t].pc
    let ret : Word := (pcAdd pc 1).setWidth 32
    let v := s.gReg t ra
    exec (.call t off) s = .next ((s.putG t 15 ret).jump t (pcAdd pc off.toInt)) ∧
    (v.toNat < 32768 →
      (∃ u, exec (.jr t ra) s = .next u ∧ u.eng.thr[t].pc.toNat = v.toNat ∧ u.eng.thr[t].g = s.eng.thr[t].g) ∧
      ∃ u, exec (.jalr t rd ra) s = .next u ∧ u.eng.thr[t].pc.toNat = v.toNat ∧
        ∀ n : Fin 16, u.gReg t n = if n = rd ∧ n ≠ 0 then ret else s.gReg t n) ∧
    (32768 ≤ v.toNat →
      exec (.jr t ra) s = .next (s.threadFault t fcIllegal) ∧ exec (.jalr t rd ra) s = .next (s.threadFault t fcIllegal))

/-! ### Loads and stores (R486-R492) -/

/-- Loads: for a place within reach and an aligned address, rt takes the addressed part of the word read there, zero- or
sign-extended, with the read's own effects, and the thread goes on. From scratch, instruction and brine RAM the word's bytes are the
memory's. -/
def Obligations.LoadsReadTheAddressedPart : Prop :=
  ∀ (s : State) (t : Fin 8) (rt base : Fin 16) (off : BitVec 16) (x : Place × Nat), canIssue s t →
    let a := ((s.gReg t base).toNat + (off.signExtend 32).toNat) % 2 ^ 32
    s.thrPlace (s.thrPan t) (a - a % 4) = some x →
    let w := (s.thrRead t x).1
    let loads := fun (c : Instr) (size : Nat) (signed : Bool) =>
      a % size = 0 → ∃ v : Word, exec c s = .next ((((s.thrRead t x).2).putG t rt v).advance t) ∧
        ∀ i, i < 32 → v.getLsbD i =
          if i < 8 * size then w.getLsbD (8 * (a % 4) + i) else (signed && w.getLsbD (8 * (a % 4) + 8 * size - 1))
    loads (.ldw t rt base off) 4 false ∧ loads (.ldh t rt base off) 2 false ∧ loads (.ldhs t rt base off) 2 true ∧
    loads (.ldb t rt base off) 1 false ∧ loads (.ldbs t rt base off) 1 true ∧
    (x.1 = .scratch ∨ x.1 = .iram → (s.thrRead t x).2 = s ∧
      ∀ k, k < 4 → w.extractLsb' (8 * k) 8 = memGet s.mem (x.2 + k)) ∧
    (∀ g n, x.1 = .brine g n → (s.thrRead t x).2 = s ∧
      ∀ k, k < 4 → w.extractLsb' (8 * k) 8 = memGet s.mem (0x20000 + 96 * g + 4 * n + k))

/-- A store to scratch RAM: the addressed bytes take the low bytes of rt, lowest first; every other byte of memory, every register
and every other part of the state stay, and the thread goes on. A store to brine RAM: performed when the thread holds the slot,
W2 aside, else refused with OWNREF; the thread goes on either way, and no byte outside the slot's word changes. -/
def Obligations.StoresToMemory : Prop :=
  (∀ (s : State) (t : Fin 8) (rt base : Fin 16) (off : BitVec 16), canIssue s t → s.sys.swPend = false →
     let a := ((s.gReg t base).toNat + (off.signExtend 32).toNat) % 2 ^ 32
     let r := s.scratchRegion (s.thrPan t)
     a - a % 4 < 0x4000 → a - a % 4 < r.2 →
     let stores := fun (c : Instr) (size : Nat) =>
       a % size = 0 → ∃ u, exec c s = .next u ∧ u = { s.advance t with mem := u.mem } ∧
         (∀ k, k < size → memGet u.mem (r.1 + a + k) = (s.gReg t rt).extractLsb' (8 * k) 8) ∧
         (∀ b, b < r.1 + a ∨ r.1 + a + size ≤ b → memGet u.mem b = memGet s.mem b)
     stores (.stw t rt base off) 4 ∧ stores (.sth t rt base off) 2 ∧ stores (.stb t rt base off) 1) ∧
  (∀ (s : State) (t : Fin 8) (rt base : Fin 16) (off : BitVec 16) (g w : Nat) (x : Nat), canIssue s t → s.sys.swPend = false →
     let a := ((s.gReg t base).toNat + (off.signExtend 32).toNat) % 2 ^ 32
     s.thrPlace (s.thrPan t) (a - a % 4) = some (.brine g w, x) → w ≠ 2 →
     let stores := fun (c : Instr) (size : Nat) =>
       a % size = 0 → ∃ u, exec c s = .next u ∧
         (s.slotHeldBy g t = true →
           (∀ k, k < size → memGet u.mem (0x20000 + 96 * g + 4 * w + a % 4 + k) =
             (s.gReg t rt).extractLsb' (8 * k) 8 &&& (slotMask w).extractLsb' (8 * (a % 4 + k)) 8) ∧
           u.pans = s.pans) ∧
         (s.slotHeldBy g t = false → u.mem = s.mem ∧ u.pans[s.slotOwner g].ownRef = true) ∧
         (∀ b, b < 0x20000 + 96 * g + 4 * w ∨ 0x20000 + 96 * g + 4 * w + 4 ≤ b → memGet u.mem b = memGet s.mem b) ∧
         u.eng.thr[t].state ≠ .halted
     stores (.stw t rt base off) 4 ∧ stores (.sth t rt base off) 2 ∧ stores (.stb t rt base off) 1)

/-- Where loads and stores fault: FOREIGN outside the reach of Table 13-5, MISALIGNED off their size, ILLEGAL for a store to
instruction RAM or ROM. The thread halts and nothing else of the access happens. (The order of the faults of one access is the model's
choice, log 22.) -/
def Obligations.AccessesThatFault : Prop :=
  ∀ (s : State) (t : Fin 8) (rt base : Fin 16) (off : BitVec 16), canIssue s t →
    let a := ((s.gReg t base).toNat + (off.signExtend 32).toNat) % 2 ^ 32
    let all := fun (P : Instr → Nat → Prop) =>
      P (.ldw t rt base off) 4 ∧ P (.ldh t rt base off) 2 ∧ P (.ldhs t rt base off) 2 ∧ P (.ldb t rt base off) 1 ∧
        P (.ldbs t rt base off) 1
    let sts := fun (P : Instr → Nat → Prop) => P (.stw t rt base off) 4 ∧ P (.sth t rt base off) 2 ∧ P (.stb t rt base off) 1
    (s.thrPlace (s.thrPan t) (a - a % 4) = none →
      all (fun c _ => exec c s = .next (s.threadFault t fcForeign)) ∧
      sts (fun c _ => exec c s = .next (s.threadFault t fcForeign))) ∧
    (∀ x, s.thrPlace (s.thrPan t) (a - a % 4) = some x →
      all (fun c n => a % n ≠ 0 → exec c s = .next (s.threadFault t fcMisaligned)) ∧
      sts (fun c n => a % n ≠ 0 → x.1.stores = true → exec c s = .next (s.threadFault t fcMisaligned)) ∧
      sts (fun c _ => (x.1 = .iram ∨ ∃ i, x.1 = .rom i) → exec c s = .next (s.threadFault t fcIllegal)))

/-! ### Special registers (Table 13-9) -/

/-- csrr and csrw on every register of Table 13-9; a reserved number, and a write of a read-only one, raise ILLEGAL. -/
def Obligations.SpecialRegisters : Prop :=
  ∀ (s : State) (t : Fin 8) (rd ra : Fin 16), canIssue s t →
    let th := s.eng.thr[t]
    let v := s.gReg t ra
    let reads := fun (n : BitVec 12) (w : Word) => exec (.csrr t rd n) s = .next ((s.putG t rd w).advance t)
    let writes := fun (n : BitVec 12) (f : Thread → Thread) => exec (.csrw t n ra) s = .next ((s.updThr t f).advance t)
    (∃ u, exec (.csrr t rd 0) s = .next u ∧ u.eng.thr[t].tnowHi = s.eng.tnow.extractLsb' 32 32 ∧
      (rd ≠ 0 → u.gReg t rd = s.eng.tnow.extractLsb' 0 32) ∧ ∀ n, n ≠ rd → u.gReg t n = s.gReg t n) ∧
    reads 1 th.tnowHi ∧ reads 2 (th.wake.extractLsb' 0 32) ∧ reads 3 th.wakeHi ∧ reads 4 (if th.wakeArmed then 1 else 0) ∧
    reads 5 (th.evm.setWidth 32) ∧ reads 6 ((s.events t).setWidth 32) ∧
    reads 8 (BitVec.ofNat 32 (s.thrLocal t) ||| BitVec.ofNat 32 (s.thrPan t).val <<< 4 ||| BitVec.ofNat 32 t.val <<< 8) ∧
    reads 9 (BitVec.ofNat 32 (min 65535 (s.charge t)) ||| BitVec.ofNat 32 (min 65535 (s.limit t)) <<< 16) ∧
    reads 10 (s.pans[s.thrPan t].gen.setWidth 32) ∧
    (let wake : BitVec 64 := th.wakeHi ++ v
     writes 2 fun th => { th with wake := wake, wakeArmed := decide (s.eng.tnow.toNat < wake.toNat) }) ∧
    writes 3 (fun th => { th with wakeHi := v }) ∧
    writes 4 (fun th => { th with wakeArmed := th.wakeArmed && v.getLsbD 0 }) ∧
    writes 5 (fun th => { th with evm := BitVec.ofNat 8 (v.toNat % 32) }) ∧
    (∀ n : BitVec 12, n = 7 ∨ 10 < n.toNat → exec (.csrr t rd n) s = .next (s.threadFault t fcIllegal) ∧
      exec (.csrw t n ra) s = .next (s.threadFault t fcIllegal)) ∧
    (∀ n : BitVec 12, n ∈ ([0, 1, 6, 8, 9, 10] : List (BitVec 12)) → exec (.csrw t n ra) s = .next (s.threadFault t fcIllegal))

/-! ### Threads, waits, locks (chapters 11, 12, 14) -/

/-- fork: the lowest-numbered HALTED thread of the pan that awaits no join starts at ra with g1 = rc, and rd takes its pan-local
number; NONE with an empty pool; ILLEGAL for an entry with bits [31:15] not zero. join on a child: at once with its result when
it is halted, which returns it to the pool; else the thread waits while its wake compare is armed, and gets TIMEOUT otherwise.
Any other value of ra gets NOTCHILD. -/
def Obligations.ForkAndJoin : Prop :=
  (∀ (s : State) (t : Fin 8) (rd ra rc : Fin 16), canIssue s t →
     let v := s.gReg t ra
     let free := fun c : Fin 8 => s.thrOwner c = s.thrPan t ∧ s.eng.thr[c].state = .halted ∧ s.eng.thr[c].parent = none
     (32768 ≤ v.toNat → exec (.fork t rd ra rc) s = .next (s.threadFault t fcIllegal)) ∧
     (v.toNat < 32768 → (∀ c, ¬free c) → exec (.fork t rd ra rc) s = .next ((s.putG t rd 0xFFFFFF03).advance t)) ∧
     (v.toNat < 32768 → ∀ c, free c → (∀ d, d < c → ¬free d) →
       ∃ u, exec (.fork t rd ra rc) s = .next u ∧ u.eng.thr[c].state = .running ∧ u.eng.thr[c].pc.toNat = v.toNat ∧
         u.eng.thr[c].parent = some t ∧ u.eng.thr[c].wakeArmed = false ∧ u.eng.thr[c].evm = 0 ∧ u.eng.thr[c].ev = 0 ∧
         u.eng.thr[c].fcause = 0 ∧ u.eng.thr[c].exitCode = 0 ∧ u.eng.thr[c].prio = s.eng.thr[c].prio ∧
         u.eng.thr[c].quota = s.eng.thr[c].quota ∧ (∀ n : Fin 16, u.gReg c n = if n = 1 then s.gReg t rc else 0) ∧
         (rd ≠ 0 → u.gReg t rd = BitVec.ofNat 32 (s.thrLocal c)) ∧ (∀ n, n ≠ rd → u.gReg t n = s.gReg t n) ∧ u.mem = s.mem)) ∧
  (∀ (s : State) (t : Fin 8) (rd ra : Fin 16), canIssue s t →
     let named := (s.panThreads (s.thrPan t))[(s.gReg t ra).toNat]?
     (∀ c : Fin 8, named = some c.val → c ≠ t → s.eng.thr[c].parent = some t →
       let x := s.eng.thr[c]
       (x.state = .halted → ∃ u, exec (.join t rd ra) s = .next u ∧ u.eng.thr[c].parent = none ∧ u.eng.thr[c].state = .halted ∧
         (rd ≠ 0 → u.gReg t rd = if x.panRst then 0xFFFFFF07 else if x.fcause ≠ 0 then 0xFFFFFE00 + x.fcause.setWidth 32
           else x.exitCode.setWidth 32)) ∧
       (x.state ≠ .halted → s.eng.thr[t].wakeArmed = true → ∃ u, exec (.join t rd ra) s = .next u ∧
         u.eng.thr[t].state = .waiting ∧ u.eng.thr[t].waitOn = some (.join rd c) ∧ u.eng.thr[c] = x) ∧
       (x.state ≠ .halted → s.eng.thr[t].wakeArmed = false →
         exec (.join t rd ra) s = .next ((s.putG t rd 0xFFFFFF01).advance t))) ∧
     ((named = none ∨ named = some t.val ∨ ∃ c : Fin 8, named = some c.val ∧ s.eng.thr[c].parent ≠ some t) →
       exec (.join t rd ra) s = .next ((s.putG t rd 0xFFFFFF02).advance t)))

/-- halt: the thread is HALTED with its operand in EXIT; WAKE is disarmed, its wait is over, it holds no lock and is no thread's
parent. wait: at once with the pending selected events, whose edge events clear; else the thread waits while its wake compare is
armed, and gets TIMEOUT otherwise. yield goes on to the next instruction. -/
def Obligations.HaltWaitAndYield : Prop :=
  (∀ (s : State) (t : Fin 8) (code : Byte), canIssue s t →
     ∃ u, exec (.halt t code) s = .next u ∧ u.eng.thr[t].state = .halted ∧ u.eng.thr[t].exitCode = code ∧
       u.eng.thr[t].wakeArmed = false ∧ u.eng.thr[t].waitOn = none ∧ (∀ l : Fin 32, u.eng.locks[l] ≠ some t) ∧
       (∀ x : Fin 8, u.eng.thr[x].parent ≠ some t) ∧ u.sys = s.sys ∧ u.tide = s.tide) ∧
  (∀ (s : State) (t : Fin 8) (rd : Fin 16), canIssue s t →
     let e := s.events t &&& s.eng.thr[t].evm
     (e ≠ 0 → ∃ u, exec (.wait t rd) s = .next u ∧ (rd ≠ 0 → u.gReg t rd = e.setWidth 32) ∧
       u.eng.thr[t].ev = s.eng.thr[t].ev &&& ~~~e ∧ u.eng.thr[t].state ≠ .waiting ∧ u.irq = s.irq) ∧
     (e = 0 → s.eng.thr[t].wakeArmed = true → ∃ u, exec (.wait t rd) s = .next u ∧ u.eng.thr[t].state = .waiting ∧
       u.eng.thr[t].waitOn = some (.events rd) ∧ u.eng.thr[t].wake = s.eng.thr[t].wake) ∧
     (e = 0 → s.eng.thr[t].wakeArmed = false → ∃ u, exec (.wait t rd) s = .next u ∧ u.eng.thr[t].state ≠ .waiting ∧
       ∀ n : Fin 16, u.gReg t n = if n = rd ∧ n ≠ 0 then 0xFFFFFF01 else s.gReg t n) ∧
     exec (.yield t) s = .next (s.advance t))

/-- lk.acq and lk.try: FOREIGN beyond the pan's locks, LOCK_ORDER below a held lock or on it, the lock when it is free; else lk.try
returns BUSY, and lk.acq waits while the wake compare is armed and gets TIMEOUT otherwise. lk.rel: NOTHELD of a lock the thread
does not hold; else the lock is free, or passes at once to the waiter of the highest priority, ties to the lower thread number,
whose wait ends ACQUIRED. -/
def Obligations.Locks : Prop :=
  (∀ (s : State) (t : Fin 8) (rd : Fin 16) (n : Fin 32), canIssue s t →
     let named := (s.panLocks (s.thrPan t))[n.val]?
     let both := fun (r : Out) => exec (.lkAcq t rd n) s = r ∧ exec (.lkTry t rd n) s = r
     (named = none → both (.next (s.threadFault t fcForeign))) ∧
     (∀ l : Fin 32, named = some l.val →
       ((∃ k : Fin 32, l ≤ k ∧ s.eng.locks[k] = some t) → both (.next (s.threadFault t fcLockOrder))) ∧
       ((∀ k : Fin 32, l ≤ k → s.eng.locks[k] ≠ some t) →
         (s.eng.locks[l] = none → ∃ u, both (.next u) ∧ u.eng.locks[l] = some t ∧
           (∀ k : Fin 32, k ≠ l → u.eng.locks[k] = s.eng.locks[k]) ∧ (rd ≠ 0 → u.gReg t rd = 0)) ∧
         (s.eng.locks[l] ≠ none →
           exec (.lkTry t rd n) s = .next ((s.putG t rd 0xFFFFFF04).advance t) ∧
           (s.eng.thr[t].wakeArmed = true → ∃ u, exec (.lkAcq t rd n) s = .next u ∧ u.eng.thr[t].state = .waiting ∧
             u.eng.thr[t].waitOn = some (.lock rd l) ∧ u.eng.locks = s.eng.locks) ∧
           (s.eng.thr[t].wakeArmed = false → exec (.lkAcq t rd n) s = .next ((s.putG t rd 0xFFFFFF01).advance t)))))) ∧
  (∀ (s : State) (t : Fin 8) (rd : Fin 16) (n l : Fin 32), canIssue s t → (s.panLocks (s.thrPan t))[n.val]? = some l.val →
     let waits := fun w : Fin 8 => s.eng.thr[w].state = .waiting ∧ ∃ r, s.eng.thr[w].waitOn = some (.lock r l)
     (s.eng.locks[l] ≠ some t → exec (.lkRel t rd n) s = .next ((s.putG t rd 0xFFFFFF05).advance t)) ∧
     (s.eng.locks[l] = some t →
       ∃ u, exec (.lkRel t rd n) s = .next u ∧ (rd ≠ 0 → u.gReg t rd = 0) ∧
         (∀ k : Fin 32, k ≠ l → u.eng.locks[k] = s.eng.locks[k]) ∧
         ((∀ w, ¬waits w) → u.eng.locks[l] = none) ∧
         (∀ w r, s.eng.thr[w].state = .waiting → s.eng.thr[w].waitOn = some (.lock r l) →
           (∀ x, waits x → x ≠ w → s.eng.thr[x].prio < s.eng.thr[w].prio ∨ (s.eng.thr[x].prio = s.eng.thr[w].prio ∧ w < x)) →
           u.eng.locks[l] = some w ∧ u.eng.thr[w].state ≠ .waiting ∧ u.eng.thr[w].waitOn = none ∧ (r ≠ 0 → u.gReg w r = 0))))

/-- WAKE reached: it is disarmed, TNOW is at or past it, and a wait for a lock or a join ends with TIMEOUT. A breakpoint hit puts a
RUNNING thread that has not met it yet into DEBUG before the instruction, and sets BRK of its pan. (That the event moves TNOW up to WAKE is the model's choice,
log 17.) -/
def Obligations.WakeCompareAndBreakpoint : Prop :=
  ∀ (s : State) (t : Fin 8), s.coreRuns = true →
    (s.eng.thr[t].wakeArmed = true → ∃ u, exec (.wakeCompareReached t) s = .next u ∧ u.eng.thr[t].wakeArmed = false ∧
      s.eng.thr[t].wake ≤ u.eng.tnow ∧ s.eng.tnow ≤ u.eng.tnow ∧ u.eng.locks = s.eng.locks ∧
      (∀ rd l, s.eng.thr[t].state = .waiting → s.eng.thr[t].waitOn = some (.lock rd l) →
        u.eng.thr[t].state ≠ .waiting ∧ u.eng.thr[t].waitOn = none ∧ (rd ≠ 0 → u.gReg t rd = 0xFFFFFF01)) ∧
      (∀ rd c, s.eng.thr[t].state = .waiting → s.eng.thr[t].waitOn = some (.join rd c) →
        u.eng.thr[t].state ≠ .waiting ∧ u.eng.thr[t].waitOn = none ∧ (rd ≠ 0 → u.gReg t rd = 0xFFFFFF01))) ∧
    (s.eng.thr[t].state = .running → s.eng.thr[t].bpMet = false → (∃ (k : Fin 4) (b : Breakpoint), s.eng.bp[k] = some b ∧ b.pan = s.thrPan t ∧
        b.pc = s.eng.thr[t].pc ∧ bitOf b.mask (s.thrLocal t) = true) →
      ∃ u, exec (.breakpointHit t) s = .next u ∧ u.eng.thr[t].state = .debug ∧ u.eng.thr[t].pc = s.eng.thr[t].pc ∧
        bitOf u.pans[s.thrPan t].fault 6 = true ∧ u.mem = s.mem)

/-! ### Frames by instructions (R517-R521) -/

/-- fput of a held frame by the queue's producer, where the checks pass: the item joins the queue as QUEUED in a FREE slot with the
source's data words, the source slot stays, rd takes ACCEPTED. At the thread's limit it raises QUOTA; without a FREE slot, by a party
that is not PROD, or from a slot not held, it is REFUSED_FULL and nothing is copied. -/
def Obligations.FputQueuesAHeldFrame : Prop :=
  ∀ (s : State) (t : Fin 8) (rd ra : Fin 16) (q : Fin 4), canIssue s t →
    let n := s.thrPan t
    let tq := s.tq n q
    let refused := fun u : State => u.mem = s.mem ∧ (u.tq n q).items = tq.items ∧ (rd ≠ 0 → u.gReg t rd = 10)
    (s.slotGlobal n (s.gReg t ra).toNat = none → exec (.fput t rd ra q) s = .next (s.threadFault t fcForeign)) ∧
    (∀ g, s.slotGlobal n (s.gReg t ra).toNat = some g →
      (s.isCode n (.thread t) tq.prod = false → ∃ u, exec (.fput t rd ra q) s = .next u ∧ refused u ∧ u.pans[n].ownRef = true) ∧
      (s.isCode n (.thread t) tq.prod = true → s.slotHeldBy g t = false →
        ∃ u, exec (.fput t rd ra q) s = .next u ∧ refused u ∧ u.pans[n].ownRef = true) ∧
      (s.isCode n (.thread t) tq.prod = true → s.slotHeldBy g t = true → s.freeSlots n tq = [] →
        ∃ u, exec (.fput t rd ra q) s = .next u ∧ refused u) ∧
      (s.isCode n (.thread t) tq.prod = true → s.slotHeldBy g t = true → (s.offerJudge n q g).1 = stAccepted →
        (s.limit t ≤ s.charge t → exec (.fput t rd ra q) s = .next (s.threadFault t fcQuota)) ∧
        (s.charge t < s.limit t → (s.freeSlots n tq).contains g = false →
          ∃ (u : State) (d : Nat), exec (.fput t rd ra q) s = .next u ∧ d ∈ s.freeSlots n tq ∧
            (u.tq n q).items = tq.items ++ [⟨d, .queued, false, none⟩] ∧ (rd ≠ 0 → u.gReg t rd = 15) ∧
            (∀ w, w < 24 → u.slotWord g w = s.slotWord g w) ∧
            (∀ k, k < dataWords (bitsOf (s.slotWord g 1) 0 7) → k < 16 → u.slotWord d (8 + k) = s.slotWord g (8 + k)))))

/-- fget.tq, fget.rxf and fget.mbx copy the oldest completion or frame, or a mailbox not yet seen, into a held slot and remove it,
or mark it seen; fpeek copies and removes nothing. With nothing to take the result is EMPTY; without the right, NOTHELD with
OWNREF. -/
def Obligations.FgetCopiesAndRemoves : Prop :=
  (∀ (s : State) (t : Fin 8) (rd ra : Fin 16) (q : Fin 4) (dst : Nat), canIssue s t →
     let n := s.thrPan t
     s.slotGlobal n (s.gReg t ra).toNat = some dst → s.slotHeldBy dst t = true →
     let ok := fun (c : Instr) (P : State → Prop) => ∃ u, exec c s = .next u ∧ (rd ≠ 0 → u.gReg t rd = 0) ∧ P u
     (s.isCode n (.thread t) (s.tq n q).prod = true → ∀ g rest, (s.tq n q).done = g :: rest →
       ok (.fgetTq t rd ra q) (fun u => Copied s u g dst false ∧ (u.tq n q).done = rest) ∧
       ok (.fpeekTq t rd ra q) (fun u => Copied s u g dst false ∧ u.pans = s.pans)) ∧
     (s.isCode n (.thread t) (s.tq n q).prod = true → (s.tq n q).done = [] →
       exec (.fgetTq t rd ra q) s = .next ((s.putG t rd 0xFFFFFF06).advance t) ∧
       exec (.fpeekTq t rd ra q) s = .next ((s.putG t rd 0xFFFFFF06).advance t)) ∧
     (s.isCode n (.thread t) (s.rxf n q).cons = true → ∀ g rest, (s.rxf n q).frames = g :: rest →
       ok (.fgetRxf t rd ra q) (fun u => Copied s u g dst false ∧ (u.rxf n q).frames = rest ∧ (u.rxf n q).part = (s.rxf n q).part) ∧
       ok (.fpeekRxf t rd ra q) (fun u => Copied s u g dst false ∧ u.pans = s.pans)) ∧
     (s.isCode n (.thread t) (s.rxf n q).cons = true → (s.rxf n q).frames = [] →
       exec (.fgetRxf t rd ra q) s = .next ((s.putG t rd 0xFFFFFF06).advance t) ∧
       exec (.fpeekRxf t rd ra q) s = .next ((s.putG t rd 0xFFFFFF06).advance t)) ∧
     (∀ c ∈ [Instr.fgetTq t rd ra q, .fpeekTq t rd ra q], s.isCode n (.thread t) (s.tq n q).prod = false →
       Leads c s fun u => (rd ≠ 0 → u.gReg t rd = 0xFFFFFF05) ∧ u.pans[n].ownRef = true ∧ u.mem = s.mem) ∧
     (∀ c ∈ [Instr.fgetRxf t rd ra q, .fpeekRxf t rd ra q], s.isCode n (.thread t) (s.rxf n q).cons = false →
       Leads c s fun u => (rd ≠ 0 → u.gReg t rd = 0xFFFFFF05) ∧ u.pans[n].ownRef = true ∧ u.mem = s.mem)) ∧
  (∀ (s : State) (t : Fin 8) (rd ra : Fin 16) (k : BitVec 11) (dst g : Nat), canIssue s t →
     let n := s.thrPan t
     s.slotGlobal n (s.gReg t ra).toNat = some dst → s.slotHeldBy dst t = true → s.slotGlobal n k.toNat = some g →
     s.mailboxOf g = true → g ≠ dst →
     (bitOf (s.slotWord g 2) 9 = false →
       (∃ u, exec (.fgetMbx t rd ra k) s = .next u ∧ (rd ≠ 0 → u.gReg t rd = 0) ∧ Copied s u g dst true ∧
         bitOf (u.slotWord g 2) 9 = true)) ∧
     (bitOf (s.slotWord g 2) 9 = true → exec (.fgetMbx t rd ra k) s = .next ((s.putG t rd 0xFFFFFF06).advance t)) ∧
     (∃ u, exec (.fpeekMbx t rd ra k) s = .next u ∧ (rd ≠ 0 → u.gReg t rd = 0) ∧ Copied s u g dst false))

/-- fstat returns its word and changes nothing else; flush returns its report and empties the queue of QUEUED items. -/
def Obligations.FstatAndFlush : Prop :=
  ∀ (s : State) (t : Fin 8) (rd : Fin 16) (q : Fin 4) (k e : Fin 32), canIssue s t →
    let n := s.thrPan t
    let tq := s.tq n q
    let rx := s.rxf n q
    (tq.level < 256 → tq.done.length < 256 → exec (.fstatTq t rd q) s = .next ((s.putG t rd
      (BitVec.ofNat 32 (tq.last.toNat + 256 * tq.level + 65536 * tq.done.length + 16777216 * tq.trunc.toNat))).advance t)) ∧
    (rx.frames.length < 256 → exec (.fstatRxf t rd q) s = .next ((s.putG t rd
      (BitVec.ofNat 32 (rx.frames.length + 256 * rx.ovfCnt.toNat + 65536 * rx.ovf.toNat + 16777216 * rx.part.toNat))).advance t)) ∧
    ((s.panEntries n)[k.val]? = some e.val → ∃ w : Word, exec (.fstatSch t rd k) s = .next ((s.putG t rd w).advance t) ∧
      w.toNat % 4 = (match s.sched.ent[e].state with | .idle => 0 | .armed => 1 | .committed => 2) ∧
      w.toNat / 16 % 16 = s.sched.ent[e].result.toNat ∧
      w.toNat / 65536 = (if s.sched.ent[e].result = 2 then 13 else if s.sched.ent[e].result = 3 then 14 else 0)) ∧
    ((s.panEntries n)[k.val]? = none → exec (.fstatSch t rd k) s = .next (s.threadFault t fcForeign)) ∧
    (∃ u, exec (.flush t rd q) s = .next u ∧ (u.tq n q).opened = none ∧ (∀ i ∈ (u.tq n q).items, i.st = .onWire) ∧
      (rd ≠ 0 → (u.gReg t rd).toNat % 256 = (tq.items.filter fun i => i.st == .queued).length % 256 ∧
        (u.gReg t rd).getLsbD 8 = tq.filling.isSome ∧ (u.gReg t rd).getLsbD 9 = tq.items.any fun i => i.st == .onWire))

/-! ### Tide time, CRC, the schedule, filters, interrupts by instructions (R522-R529) -/

/-- tread returns TIDE_TICK and latches TIDE_SEC for the thread; the latch; the fields of TIDE_STAT every thread may read. crc24
feeds the low N bits of ra, the highest first, through CRC-24 from the low 24 bits of rd; N outside 1 to 32 is ILLEGAL. -/
def Obligations.TreadAndCrc24 : Prop :=
  (∀ (s : State) (t : Fin 8) (rd : Fin 16), canIssue s t →
     Leads (.treadTick t rd) s (fun u => (rd ≠ 0 → (u.gReg t rd).toNat = s.tide.tick.toNat) ∧
       u.tide.latch[(Party.thread t).ix] = s.tide.sec ∧ u.tide.tick = s.tide.tick ∧ u.tide.sec = s.tide.sec ∧
       (∀ n, n ≠ rd → u.gReg t n = s.gReg t n)) ∧
     exec (.treadSec t rd) s = .next ((s.putG t rd s.tide.latch[(Party.thread t).ix]).advance t) ∧
     ∃ w : Word, exec (.treadStatus t rd) s = .next ((s.putG t rd w).advance t) ∧
       w.toNat % 256 = (match s.tide.lock with | .free => 0 | .acquire => 1 | .locked => 2 | .holdover => 3) ∧
       w.toNat / 256 % 256 = s.tide.keeper.toNat ∧ w.getLsbD 16 = s.tide.backup ∧ w.getLsbD 17 = s.tide.auth ∧
       w.getLsbD 18 = s.tide.hold ∧ w.toNat < 524288) ∧
  (∀ (s : State) (t : Fin 8) (rd ra : Fin 16) (n : BitVec 6), canIssue s t →
     (n.toNat = 0 ∨ 32 < n.toNat → exec (.crc24 t rd ra n) s = .next (s.threadFault t fcIllegal)) ∧
     (1 ≤ n.toNat → n.toNat ≤ 32 → ∃ c : Nat → BitVec 24, c 0 = (s.gReg t rd).setWidth 24 ∧
       (∀ i, i < n.toNat → c (i + 1) =
         if (c i).getLsbD 23 = (s.gReg t ra).getLsbD (n.toNat - 1 - i) then c i <<< 1 else (c i <<< 1) ^^^ 0x864CFB#24) ∧
       exec (.crc24 t rd ra n) s = .next ((s.putG t rd ((c n.toNat).setWidth 32)).advance t)))

/-- sset writes the fields of an IDLE entry from a register group and arms it: ARMED when the checks of Table 7-4 pass and the instant
is not past, BADARG when they do not; an entry that is not IDLE shows WREJ alone. sclr disarms an ARMED entry, unless its COMMITTED
transition has come, which stands. Both return SCHn_STAT.
An entry the pan does not have is FOREIGN; a group that does not begin at g1 to g12 is ILLEGAL. -/
def Obligations.SchedulesBySsetAndSclr : Prop :=
  ∀ (s : State) (t : Fin 8) (rd ra : Fin 16) (n : Fin 32), canIssue s t →
    let r := fun k : Nat => s.gReg t (Fin.ofNat 16 (ra.val + k))
    let named := (s.panEntries (s.thrPan t))[n.val]?
    let group := 1 ≤ ra.val ∧ ra.val ≤ 12
    let act := bitsOf (r 2) 0 4
    (¬group → exec (.sset t rd ra n) s = .next (s.threadFault t fcIllegal)) ∧
    (named = none → (group → exec (.sset t rd ra n) s = .next (s.threadFault t fcForeign)) ∧
      exec (.sclr t rd n) s = .next (s.threadFault t fcForeign)) ∧
    (∀ e : Fin 32, named = some e.val →
      (group → s.sched.ent[e].state = .idle → s.sys.panLock = true → 1 ≤ act → act ≤ 6 → bitsOf (r 2) 4 2 ≠ 3 →
        bitsOf (r 0) 0 28 < 200000000 → s.checkArm (s.thrPan t) (some t) act (r 3) = .ok →
        s.isPast ⟨r 1, (r 0).setWidth 28⟩ = false →
        Leads (.sset t rd ra n) s fun u => u.sched.ent[e].state = .armed ∧ u.sched.ent[e].tick = (r 0).setWidth 28 ∧
          u.sched.ent[e].sec = r 1 ∧ u.sched.ent[e].opnd = r 3 ∧ u.sched.ent[e].act = act ∧
          (rd ≠ 0 → (u.gReg t rd).toNat % 4 = 1) ∧ ∀ f, f ≠ e → u.sched.ent[f] = s.sched.ent[f]) ∧
      (group → s.sched.ent[e].state = .idle → s.checkArm (s.thrPan t) (some t) act (r 3) ≠ .ok →
        Leads (.sset t rd ra n) s fun u => u.sched.ent[e].state = .idle ∧ u.sched.ent[e].result = 5 ∧
          (rd ≠ 0 → (u.gReg t rd).toNat / 16 % 16 = 5)) ∧
      (group → s.sched.ent[e].state ≠ .idle →
        Leads (.sset t rd ra n) s fun u => u.sched.ent[e] = { s.sched.ent[e] with wrej := true } ∧
          (rd ≠ 0 → (u.gReg t rd).getLsbD 9 = true)) ∧
      (s.sched.ent[e].state = .armed → s.commitDue e = false → Leads (.sclr t rd n) s fun u => u.sched.ent[e].state = .idle ∧
        u.sched.ent[e].result = 4 ∧ (rd ≠ 0 → (u.gReg t rd).toNat % 256 = 64)) ∧
      (s.sched.ent[e].state = .armed → s.commitDue e = true → Leads (.sclr t rd n) s fun u =>
        u.sched.ent[e] = { s.sched.ent[e] with state := .committed, wrej := true }) ∧
      (s.sched.ent[e].state = .committed → Leads (.sclr t rd n) s fun u =>
        u.sched.ent[e] = { s.sched.ent[e] with wrej := true }))

/-- ring: a doorbell source of the thread's pan that is neither pending nor in service becomes pending; a number that is none sets
PAN_FAULT.ACCESS. irq.done: BUSY, NOTHELD, or the completion and the claim of the lowest deliverable source, 0 or 127 without one. (That register code 0 is the absence of a source is the
model's reading, log 24.) -/
def Obligations.RingAndIrqDone : Prop :=
  ∀ (s : State) (t : Fin 8) (rd ra : Fin 16) (n : BitVec 7), canIssue s t →
    let m := s.thrPan t
    let v := s.gReg t ra
    let x : Fin 10 := engTarget t
    (∀ k : Fin 128, k.val = (v.toNat + n.toNat) % 128 →
      (96 ≤ k.val → k.val ≤ 119 → s.srcOwner k.val = m → bitOf s.irq.pend k = false → s.irq.inService k = false →
        Leads (.ring t ra n) s fun u => bitOf u.irq.pend k = true ∧ (∀ j : Fin 128, j ≠ k → bitOf u.irq.pend j = bitOf s.irq.pend j) ∧
          u.irq.cnt = s.irq.cnt) ∧
      ((k.val < 96 ∨ 119 < k.val ∨ s.srcOwner k.val ≠ m) → Leads (.ring t ra n) s fun u => bitOf u.pans[m].fault 0 = true)) ∧
    (∀ k, s.irq.eng[t] = some k → ra = 0 → exec (.irqDone t rd ra) s = .next ((s.putG t rd 0xFFFFFF04).advance t)) ∧
    (∀ k, s.irq.eng[t] = some k → ra ≠ 0 → v.toNat ≠ k.toNat → exec (.irqDone t rd ra) s = .next ((s.putG t rd 0xFFFFFF05).advance t)) ∧
    (s.irq.eng[t] = none → ra ≠ 0 → exec (.irqDone t rd ra) s = .next ((s.putG t rd 0xFFFFFF05).advance t)) ∧
    (s.irq.eng[t] = none → ra = 0 → (∀ k, s.deliverable s.irq.claimEn x k = false) →
      Leads (.irqDone t rd ra) s fun u => u.irq.eng = s.irq.eng ∧ u.irq.pend = s.irq.pend ∧
        (rd ≠ 0 → u.gReg t rd = if bitOf s.irq.lost x then 127 else 0)) ∧
    (s.irq.eng[t] = none → ra = 0 → ∀ k : Fin 128, s.deliverable s.irq.claimEn x k = true →
      (∀ j, j < k → s.deliverable s.irq.claimEn x j = false) →
      Leads (.irqDone t rd ra) s fun u => u.irq.eng[t] = some (BitVec.ofFin k) ∧ bitOf u.irq.pend k = false ∧
        (rd ≠ 0 → (u.gReg t rd).toNat = k.val)) ∧
    (∀ k : BitVec 7, s.irq.eng[t] = some k → ra ≠ 0 → v.toNat = k.toNat → s.irq.cnt[k.toFin] = 0 →
      (∀ j, s.deliverable s.irq.claimEn x j = false) →
      Leads (.irqDone t rd ra) s fun u => u.irq.eng[t] = none)

/-! ### The interrupt controller (chapter 15) -/

/-- IC_PEND_SET, IC_PEND_CLR, IC_EN_SET and IC_EN_CLR act on the sources they name: in the system block the sources of P0 whose bits
are 1, in a window the selected source. An arrival pends a source that is neither pending nor in service, else it counts, and at 15
sets OVF. -/
def Obligations.SetAndClearBitsOfSources : Prop :=
  ∀ (s : State) (p : Party) (via : Via) (w : Fin 4) (v : Word), served s p via →
    (match via with | .sys => True | .win n => s.winClosed n = false) →
    let named := fun k : Fin 128 => match via with
      | .sys => k.val / 32 = w.val ∧ v.getLsbD (k.val % 32) = true ∧ s.panSrc 0 k.val = true
      | .win n => v.getLsbD 0 = true ∧ s.selSrc p n = some k
    let each := fun (c : Instr) (on off : Irq → Fin 128 → Prop) =>
      Leads c s fun u => ∀ k, (named k → on u.irq k) ∧ (¬named k → off u.irq k)
    let same := fun (q : Irq) (k : Fin 128) => bitOf q.pend k = bitOf s.irq.pend k ∧ bitOf q.en k = bitOf s.irq.en k ∧
      bitOf q.ovf k = bitOf s.irq.ovf k ∧ q.cnt[k] = s.irq.cnt[k]
    each (.icPendSet p via w v) (fun q k =>
      if bitOf s.irq.pend k = true ∨ s.irq.inService k = true then
        bitOf q.pend k = bitOf s.irq.pend k ∧ (if s.irq.cnt[k] = 15 then bitOf q.ovf k = true ∧ q.cnt[k] = 15
          else bitOf q.ovf k = bitOf s.irq.ovf k ∧ q.cnt[k] = s.irq.cnt[k] + 1)
      else bitOf q.pend k = true ∧ q.cnt[k] = s.irq.cnt[k] ∧ bitOf q.ovf k = bitOf s.irq.ovf k) same ∧
    each (.icPendClr p via w v) (fun q k => bitOf q.pend k = false ∧ q.cnt[k] = 0 ∧ bitOf q.ovf k = false ∧
      bitOf q.en k = bitOf s.irq.en k) same ∧
    each (.icEnSet p via w v) (fun q k => bitOf q.en k = true ∧ bitOf q.pend k = bitOf s.irq.pend k) same ∧
    each (.icEnClr p via w v) (fun q k => bitOf q.en k = false ∧ bitOf q.pend k = bitOf s.irq.pend k) same

/-- A host's claim at its own target, by the enable bits of eight core cycles ago, takes the deliverable source of the highest
priority, ties to the lower number: it leaves pending
and its level stands on the stack. With none it reads 127 where one was lost to another target, else 0. A completion of the stack's
top pops it and acts on the count; any other sets ORD and pops nothing. UNWIND empties the stack. -/
def Obligations.HostClaimsAndCompletions : Prop :=
  ∀ (s : State) (h : HostPort) (via : Via) (v : Word), served s (.host h) via →
    (match via with | .sys => s.panPort 0 = h | .win n => s.winClosed n = false) →
    let x : Fin 10 := ⟨h.ix.val, by omega⟩
    let best := fun k : Fin 128 => s.deliverable s.irq.claimEn x k = true ∧ ∀ j, s.deliverable s.irq.claimEn x j = true → j ≠ k →
      s.irq.prio[j] < s.irq.prio[k] ∨ (s.irq.prio[j] = s.irq.prio[k] ∧ k < j)
    (∀ k, best k → Leads (.icClaim (.host h) via h) s fun u => u.out.toNat = k.val ∧ bitOf u.irq.pend k = false ∧
      u.irq.stack[h.ix] = ⟨BitVec.ofFin k, s.irq.prio[k]⟩ :: s.irq.stack[h.ix] ∧ u.irq.cnt = s.irq.cnt ∧
      u.host[h.ix].last = 0 ∧ u.host[h.ix].resp = [u.out]) ∧
    ((∀ k, s.deliverable s.irq.claimEn x k = false) → Leads (.icClaim (.host h) via h) s fun u =>
      u.out = (if bitOf s.irq.lost x then 127 else 0) ∧ u.irq.pend = s.irq.pend ∧ u.irq.stack = s.irq.stack) ∧
    (∀ e rest, s.irq.stack[h.ix] = e :: rest → e.src.toNat = v.toNat % 128 → Leads (.icDone (.host h) via h v) s fun u =>
      u.irq.stack[h.ix] = rest ∧ u.irq.ord = s.irq.ord ∧
      (s.irq.cnt[e.src.toFin] = 0 → u.irq.pend = s.irq.pend ∧ u.irq.cnt = s.irq.cnt) ∧
      (s.irq.cnt[e.src.toFin] ≠ 0 → bitOf u.irq.pend e.src.toNat = true ∧ u.irq.cnt[e.src.toFin] = s.irq.cnt[e.src.toFin] - 1)) ∧
    ((∀ e, s.irq.stack[h.ix].head? = some e → e.src.toNat ≠ v.toNat % 128) → Leads (.icDone (.host h) via h v) s fun u =>
      u.irq.stack = s.irq.stack ∧ u.irq.ord[h.ix] = true) ∧
    (s.irq.stack[h.ix].length ≤ 15 → (match via with | .sys => v.getLsbD h.ix.val = true | .win _ => v.getLsbD 8 = false ∧ v.getLsbD 9 = true) →
      (match via with | .sys => True | .win n => s.panPort n = h ∧ s.keyArmed (Via.win n).scope (.host h) = true) →
      Leads (.icUnwind (.host h) via v) s fun u => u.irq.stack[h.ix] = [])

/-- A doorbell rung in the system block, by a DOORBELL command, or by a thread through its window, arrives at a doorbell source of the
pan concerned; a number that is none sets PAN_FAULT.ACCESS. A hold-off that ends holds its target no longer. -/
def Obligations.DoorbellsAndHoldoffs : Prop :=
  ∀ s : State,
    let rung := fun (c : Instr) (k : Fin 128) => bitOf s.irq.pend k = false → s.irq.inService k = false →
      Leads c s fun u => bitOf u.irq.pend k = true ∧ ∀ j : Fin 128, j ≠ k → bitOf u.irq.pend j = bitOf s.irq.pend j
    (∀ (p : Party) (v : Word) (k : Fin 128), served s p .sys → v.toNat % 128 = k.val →
      (96 ≤ k.val → k.val ≤ 119 → s.srcOwner k.val = 0 → rung (.icDoorbell p .sys v) k) ∧
      ((k.val < 96 ∨ 119 < k.val ∨ s.srcOwner k.val ≠ 0) → Leads (.icDoorbell p .sys v) s fun u => bitOf u.pans[(0 : Fin 4)].fault 0 = true)) ∧
    (∀ (x : Xfer) (n : Fin 4) (v : Word) (k : Fin 128), plain s x → v.toNat = k.val → 96 ≤ k.val → k.val ≤ 119 →
      s.srcOwner k.val ∈ s.portPans x.port → rung (.hostDoorbell x v) k ∧ rung (.icDoorbell (.host x.port) (.win n) v) k) ∧
    (∀ (t : Fin 8) (v : Word) (k : Fin 128), s.sys.swPend = false → s.coreRuns = true → s.eng.thr[t].issues = true → v.toNat % 128 = k.val →
      96 ≤ k.val → k.val ≤ 119 → s.srcOwner k.val = s.thrPan t → rung (.icDoorbell (.thread t) (.win (s.thrPan t)) v) k) ∧
    (∀ (g : Fin 8) (x : Fin 10), s.coreRuns = true → Leads (.holdoffEnd g x) s fun u => bitOf u.irq.held[g] x = false ∧
      (∀ (f : Fin 8) (y : Fin 10), (f, y) ≠ (g, x) → bitOf u.irq.held[f] y = bitOf s.irq.held[f] y) ∧ u.irq.pend = s.irq.pend)

/-! ### Timers (chapter 16) -/

/-- The registers of a timer: TIMn_CTL at once while the timer is disabled and its settings are allowed, buffered while it stays
enabled; CNT from the writer's hold only while disabled, else CFGERR; a read of a low half latches the high half for the reader; a
CAPNOW captures, or sets CAPOVF when the queue holds four, unless a capture of that core cycle stands already; a PIN action of that core
cycle keeps OUT; a read of CAPQ takes the oldest capture. `g` is the timer by its global number, whichever view names it. -/
def Obligations.TimerRegisters : Prop :=
  ∀ (s : State) (p : Party) (via : Via) (n g : Fin 8) (v : Word), served s p via →
    let x := s.tim.tim[g]
    let at' := fun (w : Fin 8) => s.regAt via (timAt via n w.val) = .tim g w
    let c : Word := match via with | .sys => v | .win m => renumber (s.viewToGlobal m) v
    let others := fun (u : State) => ∀ k : Fin 8, k ≠ g → u.tim.tim[k] = s.tim.tim[k]
    (at' 0 → x.en = false → s.timForeign g { x with ctl := c } = false → ({ x with ctl := c } : Timer).illegal g = false →
      Leads (.timCtlWrite p via n v) s fun u => u.tim.tim[g].ctl = c ∧ u.tim.tim[g].cnt = x.cnt ∧ others u) ∧
    (at' 0 → x.en = true → v.getLsbD 0 = true →
      Leads (.timCtlWrite p via n v) s fun u => u.tim.tim[g] = { x with ctlSh := some c } ∧ others u) ∧
    (at' 2 → Leads (.timCntWrite p via n v) s fun u => u.tim.tim[g] =
      (if x.en then { x with cfgErr := true } else { x with cnt := s.tim.hold[p.ix][g].cnt ++ v }) ∧ others u) ∧
    (∀ (r : TimPair) (w : Fin 8), w = (match r with | .cnt => 2 | .reload => 4 | .mtch => 6) → at' w →
      let c := s.timPair g r
      Leads (.timLoRead p via n r) s fun u => u.out.toNat = c.toNat % 2 ^ 32 ∧ u.tim.tim = s.tim.tim ∧
        (u.tim.latch[p.ix][g].get r).toNat = c.toNat / 2 ^ 32) ∧
    (at' 1 → v.getLsbD 12 = true → Leads (.timCapnow p via n v) s fun u => u.tim.tim[g].cnt = x.cnt ∧
      u.tim.tim[g].oe = v.getLsbD 0 ∧
      (x.pinAt = some s.eng.tnow → u.tim.tim[g].out = x.out) ∧
      (x.pinAt ≠ some s.eng.tnow → (∀ a, x.actAt = some a → a.1 ≠ s.eng.tnow) → u.tim.tim[g].out = v.getLsbD 1) ∧
      (x.capAt ≠ s.eng.tnow ∨ x.capBy = 0 → x.capq.length < 4 → u.tim.tim[g].capq = x.capq ++ [x.cnt] ∧ u.tim.tim[g].capF = true) ∧
      (x.capAt ≠ s.eng.tnow ∨ x.capBy = 0 → 4 ≤ x.capq.length → u.tim.tim[g].capq = x.capq ∧ u.tim.tim[g].capOvf = true)) ∧
    (s.regAt via (capqAt via n) = .capq g false → Leads (.timCapqRead p via n) s fun u =>
      u.tim.tim[g].capq = x.capq.drop 1 ∧ u.out.toNat = (x.capq.headD 0).toNat % 2 ^ 32 ∧
      u.tim.latch[p.ix][g].capq.toNat = (x.capq.headD 0).toNat / 2 ^ 32 ∧ others u)

/-- A running timer's wrap: the count is 0 and WRAPF set; its match: the count is MATCH and MATCHF set. OUT takes the actions, but for a
PIN action of the same core cycle, which stands. The event that MEV selects is on its way to the slaves, which it reaches a core cycle
later; no other timer changes. A timer that does not run has neither. (That the events bring the count to the instant is the model's
choice, log 17.) -/
def Obligations.TimerWrapAndMatch : Prop :=
  ∀ (s : State) (n : Fin 8), s.coreRuns = true →
    let x := s.tim.tim[n]
    let act := fun (a : Nat) (out : Bool) => if x.pinAt = some s.eng.tnow then x.out else
      if a = 1 then true else if a = 2 then false else if a = 3 then !out else out
    let sent := fun (u : State) (k : Nat) => u.tim.links = s.tim.links ++ (if x.mev = k then [n] else []) ∧
      ∀ k : Fin 8, k ≠ n → u.tim.tim[k] = s.tim.tim[k]
    (s.timRunning n = true → x.mtch ≠ 0 → Leads (.timerWrap n) s fun u => u.tim.tim[n].cnt = 0 ∧ u.tim.tim[n].wrapF = true ∧
      u.tim.tim[n].matchF = x.matchF ∧ u.tim.tim[n].out = act x.wact x.out ∧ sent u 0) ∧
    (s.timRunning n = true → x.mtch ≠ 0 → x.mtch ≤ x.reload → Leads (.timerMatch n) s fun u => u.tim.tim[n].cnt = x.mtch ∧
      u.tim.tim[n].matchF = true ∧ u.tim.tim[n].wrapF = x.wrapF ∧ u.tim.tim[n].out = act x.mact x.out ∧ sent u 1) ∧
    (s.timRunning n = true → x.mtch = 0 → Leads (.timerMatch n) s fun u => u.tim.tim[n].cnt = 0 ∧ u.tim.tim[n].matchF = true ∧
      u.tim.tim[n].wrapF = true) ∧
    (x.reload < x.mtch → exec (.timerMatch n) s = .next s) ∧
    (s.timRunning n = false → exec (.timerWrap n) s = .next s ∧ exec (.timerMatch n) s = .next s)

/-! ### The engine's registers (chapter 12) -/

/-- GO after PANLOCK and its scrub starts the lowest thread of each enabled pan that has a thread to start, at ROM where ROMPAN says
so, else at 0; before PANLOCK it is ignored. KICK restarts the watchdog's period. After PANLOCK, START starts a thread that is
HALTED and awaits no join at its PC, with cleared registers; before it, and on any other thread, it starts nothing. HALT halts it with
its exit code kept. -/
def Obligations.EngineRegisters : Prop :=
  ∀ (s : State) (p : Party) (v : Word),
    (served s p .sys → v.getLsbD 0 = true → s.eng.go = false → s.eng.auth = false →
      (s.sys.panLock = true → s.sys.scrub = false → s.otp.authReq = false → s.otp.romOnly = false →
        Leads (.engGo p v) s fun u => u.eng.go = true ∧ u.eng.started = true ∧ u.eng.romPan.toNat = v.toNat / 2 % 16 ∧
          ∀ (n : Fin 4) (t : Fin 8), s.panEn n = true → (s.panThreads n).head? = some t.val → s.eng.thr[t].state = .halted →
            s.eng.thr[t].parent = none → u.eng.thr[t].state = .running ∧
              u.eng.thr[t].pc = (if v.getLsbD (1 + n.val) then 0x4000 else 0) ∧ ∀ r, u.gReg t r = 0) ∧
      (s.sys.panLock = false → Leads (.engGo p v) s fun u => u.eng.go = false ∧ u.eng.thr = s.eng.thr)) ∧
    (served s p .sys → v.getLsbD 0 = false → v.getLsbD 6 = true → s.eng.wdEn = true → Leads (.engKick p v) s fun u =>
      u.eng.wdLeft = s.eng.wdt.toNat * 3200000 ∧ u.eng.wdt = s.eng.wdt ∧ u.eng.wdEn = true ∧ u.eng.thr = s.eng.thr) ∧
    (∀ (via : Via) (n t : Fin 8), served s p via → s.regAt via (tctlAt via n) = .tctl t →
      (v.getLsbD 5 = true → v.getLsbD 6 = false → s.sys.panLock = true → s.eng.thr[t].state = .halted → s.eng.thr[t].parent = none →
        Leads (.threadStart p via n v) s fun u => u.eng.thr[t].state = .running ∧ u.eng.thr[t].pc = s.eng.thr[t].pc ∧
          u.eng.thr[t].wakeArmed = false ∧ u.eng.thr[t].evm = 0 ∧ u.eng.thr[t].fcause = 0 ∧ u.eng.thr[t].exitCode = 0 ∧
          (∀ r, u.gReg t r = 0) ∧ u.eng.thr[t].prio.toNat = v.toNat % 8 ∧ ∀ x, x ≠ t → u.eng.thr[x] = s.eng.thr[x]) ∧
      (v.getLsbD 5 = true → v.getLsbD 6 = false →
        (s.sys.panLock = false ∨ s.eng.thr[t].state ≠ .halted ∨ s.eng.thr[t].parent ≠ none) →
        Leads (.threadStart p via n v) s fun u => u.eng.thr[t].state = s.eng.thr[t].state ∧ u.eng.thr[t].g = s.eng.thr[t].g) ∧
      (v.getLsbD 5 = false → v.getLsbD 6 = true → s.eng.thr[t].state ≠ .halted →
        Leads (.threadHaltWrite p via n v) s fun u => u.eng.thr[t].state = .halted ∧ u.eng.thr[t].exitCode = s.eng.thr[t].exitCode ∧ u.eng.thr[t].pc = s.eng.thr[t].pc ∧
          (∀ l : Fin 32, u.eng.locks[l] ≠ some t) ∧ u.eng.thr[t].wakeArmed = false)) ∧
    (s.coreRuns = true → s.eng.auth = true →
      (s.imagesOk = true → Leads .authenticationDone s fun u => u.eng.go = true ∧ u.eng.auth = false) ∧
      (s.imagesOk = false → Leads .authenticationDone s fun u => u.eng = { s.eng with auth := false, cfgErr := true }))

/-! ### The schedule's registers and actions (chapter 7) -/

/-- SCHn_CTL: ARM on an IDLE entry arms it when Table 7-4's checks pass and its instant is not past, and completes it BADARG when they
do not; ARM = 0 writes an IDLE entry's settings and cancels an ARMED one; an ARM of an entry that is not IDLE, and any write of a
COMMITTED one, show WREJ alone. An ARMED entry commits 40 ticks before its instant and not earlier; a disarming write that meets the
transition finds it COMMITTED. -/
def Obligations.ScheduleArming : Prop :=
  ∀ (s : State) (p : Party) (n : Fin 4) (k e : Fin 32) (v : Word), served s p (.win n) →
    s.regAt (.win n) (schCtlAt k) = .schCtl e →
    let x := s.sched.ent[e]
    let others := fun (u : State) => ∀ f : Fin 32, f ≠ e → u.sched.ent[f] = s.sched.ent[f]
    let act := bitsOf v 0 4
    (x.state = .idle → s.sys.panLock = true → 1 ≤ act → act ≤ 6 → bitsOf v 4 2 ≠ 3 → x.tick.toNat < 200000000 →
      s.checkArm n p.holder act x.opnd = .ok → s.isPast x.instant = false → s.schOwner e = n →
      Leads (.scheduleArm p n k v) s fun u => u.sched.ent[e].state = .armed ∧ u.sched.ent[e].act = act ∧
        u.sched.ent[e].latePol = bitsOf v 4 2 ∧ u.sched.ent[e].evt = v.getLsbD 8 ∧ u.sched.ent[e].tick = x.tick ∧
        u.sched.ent[e].sec = x.sec ∧ u.sched.ent[e].opnd = x.opnd ∧ others u) ∧
    (x.state = .idle → s.schOwner e = n → (s.checkArm n p.holder act x.opnd ≠ .ok ∨ bitsOf v 4 2 = 3 ∨ s.sys.panLock = false ∨
        200000000 ≤ x.tick.toNat) →
      Leads (.scheduleArm p n k v) s fun u => u.sched.ent[e].state = .idle ∧ u.sched.ent[e].result = 5 ∧ others u ∧
        bitOf u.pans[n].schev (s.schLocal e) = true) ∧
    (x.state ≠ .idle → Leads (.scheduleArm p n k v) s fun u => u.sched.ent[e] = { x with wrej := true } ∧ others u) ∧
    (x.state = .idle → Leads (.scheduleDisarm p n k v) s fun u =>
      u.sched.ent[e] = { x with ctl := u.sched.ent[e].ctl } ∧ u.sched.ent[e].act = act ∧ others u) ∧
    (x.state = .armed → s.commitDue e = true → Leads (.scheduleDisarm p n k v) s fun u =>
      u.sched.ent[e] = { x with state := .committed, wrej := true } ∧ others u) ∧
    (x.state = .armed → s.commitDue e = false → Leads (.scheduleDisarm p n k v) s fun u => u.sched.ent[e].state = .idle ∧
      u.sched.ent[e].result = 4 ∧
      others u ∧ ∀ g, x.slot = some g → u.slotWord g 2 &&& 0x1F = 4) ∧
    (x.state = .committed → Leads (.scheduleDisarm p n k v) s fun u => u.sched.ent[e] = { x with wrej := true } ∧ others u) ∧
    (s.coreRuns = true → x.state = .armed → s.ahead x.instant ≤ 40 → Leads (.scheduleCommit e) s fun u =>
      u.sched.ent[e] = { x with state := .committed } ∧ others u ∧ u.mem = s.mem ∧ u.pans = s.pans) ∧
    (40 < s.ahead x.instant → s.reached x.instant = false → exec (.scheduleCommit e) s = .next s)

/-- A COMMITTED entry's action at its instant, and not before: THREAD starts the thread or is REFUSED; IRQ pends its source; PIN drives
its pin or is REFUSED; CAPTURE captures the selected timers; TX makes its frame a candidate of its pan; CHANNEL changes the plan of an
idle or disabled port, or waits for the bus idle, at which it changes the plan and completes. The entry is IDLE with its RESULT. Of two
entries of one pan and instant the lower-numbered acts first. A pulse's end drives the pin low. (That an entry that waits stays
COMMITTED, and that a port waiting for its ten recessive bits counts as idle, are the model's readings, log 26.) -/
def Obligations.ScheduleActions : Prop :=
  (∀ (s : State) (e : Fin 32), s.coreRuns = true → s.sched.ent[e].state = .committed → (∀ c ∈ s.line.chanPend, c.1 ≠ e) →
     let x := s.sched.ent[e]
     let n := s.schOwner e
     let o := x.opnd
     let done := fun (u : State) (r : BitVec 4) => u.sched.ent[e].state = .idle ∧ u.sched.ent[e].result = r ∧
       u.sched.ent[e].unsync = (s.tide.lock != .locked)
     (s.reached x.instant = false → ∀ c ∈ [Instr.schTxAction e, .schPinAction e, .schCaptureAction e, .schThreadAction e,
        .schIrqAction e, .schChannelAction e], exec c s = .next s) ∧
     (∀ k : Fin 32, k < e → s.sched.ent[k].state = .committed → s.schOwner k = n → s.sched.ent[k].instant = x.instant →
        s.sched.ent[k].act ≠ 6 → (∀ c ∈ s.line.chanPend, c.1 ≠ k) → s.reached x.instant = true → x.act = 5 →
        Leads (.schIrqAction e) s fun u => u.sched.ent[k].state = .idle) ∧
     (s.reached x.instant = true → s.firesBefore e = [] →
     (x.act = 4 → ∀ t : Fin 8, (s.panThreads n)[bitsOf o 16 3]? = some t.val → Leads (.schThreadAction e) s fun u =>
       if s.sys.panLock = true ∧ s.eng.thr[t].state = .halted ∧ s.eng.thr[t].parent = none then
         done u 1 ∧ u.eng.thr[t].state = .running ∧ u.eng.thr[t].pc.toNat = bitsOf o 0 14
       else done u 6 ∧ u.eng.thr[t].pc = s.eng.thr[t].pc) ∧
     (x.act = 5 → ∀ k : Fin 128, k.val = o.toNat % 128 → srcExists k.val = true → bitOf s.irq.pend k = false → s.irq.inService k = false →
       Leads (.schIrqAction e) s fun u => done u 1 ∧ bitOf u.irq.pend k = true) ∧
     (x.act = 2 → bitsOf o 0 4 < 8 → ∀ k : Fin 8, (s.panTimers n)[bitsOf o 0 4]? = some k.val → Leads (.schPinAction e) s fun u =>
       if s.tim.tim[k].oe then done u 1 ∧ u.tim.tim[k].pulse = (bitsOf o 4 2 == 3) ∧
         u.tim.tim[k].out = (if bitsOf o 4 2 = 1 then false else if bitsOf o 4 2 = 2 then !s.tim.tim[k].out else true)
       else done u 6 ∧ u.tim.tim = s.tim.tim) ∧
     (x.act = 2 → bitsOf o 0 4 = 8 → Leads (.schPinAction e) s fun u => done u 1 ∧ u.sched.syncPulse = (bitsOf o 4 2 == 3) ∧
       u.sched.syncOut = (if bitsOf o 4 2 = 1 then false else if bitsOf o 4 2 = 2 then !s.sched.syncOut else true)) ∧
     (x.act = 3 → Leads (.schCaptureAction e) s fun u => done u 1 ∧
       ∀ (i : Nat) (k : Fin 8), (s.panTimers n)[i]? = some k.val → (o = 0 ∨ o.getLsbD i = true) → s.tim.tim[k].capq.length < 4 →
         (s.tim.tim[k].capAt ≠ s.eng.tnow ∨ s.tim.tim[k].capBy = 0) →
         u.tim.tim[k].capq = s.tim.tim[k].capq ++ [s.tim.tim[k].cnt] ∧ u.tim.tim[k].capF = true) ∧
     (x.act = 1 → ∀ g, x.slot = some g → s.deadlinePassed g = false → Leads (.schTxAction e) s fun u => done u 1 ∧
       u.sched.ent[e].slot = none ∧ (∃ f : FiredTx, u.sched.fired = s.sched.fired ++ [f] ∧ f.slot = g ∧ f.pan = n ∧
         f.q.val = bitsOf o 12 2 ∧ f.armedBy = x.armedBy ∧ f.gen = s.pans[n].gen) ∧ u.mem = s.mem) ∧
     (x.act = 6 → ∀ pl : BitVec 3, s.planOf o = some pl.toNat → s.planAllowed pl.toNat = true →
       ((s.portEn .plc = false ∨ s.line.plc.use = .idle ∨ s.line.plc.use = .waitTen ∨ s.line.plc.use = .suspended) →
         Leads (.schChannelAction e) s fun u => done u 1 ∧ u.line.plan = pl ∧ u.line.planSh = none ∧ u.sched.ent[e].late = 0) ∧
       (s.portEn .plc = true → s.line.plc.use = .sending ∨ s.line.plc.use = .receiving →
         Leads (.schChannelAction e) s fun u => u.sched.ent[e].state = .committed ∧ u.line.plan = s.line.plan ∧
           u.line.chanPend = s.line.chanPend ++ [(e, pl, false)])))) ∧
  (∀ s : State, s.coreRuns = true →
     (∀ (pin : Fin 9) (k : Fin 8), pin.val = k.val → Leads (.pulseEnd pin) s fun u =>
       u.tim.tim[k] = { s.tim.tim[k] with pulse := false, tail := false, out := s.tim.tim[k].out && !s.tim.tim[k].pulse } ∧
       (∀ j, j ≠ k → u.tim.tim[j] = s.tim.tim[j]) ∧ u.sched = s.sched) ∧
     (s.sched.syncPulse = true → Leads (.pulseEnd 8) s fun u => u.sched.syncOut = false ∧ u.sched.syncPulse = false ∧ u.tim = s.tim) ∧
     (∀ e pl rest, s.line.chanPend = (e, pl, false) :: rest → (s.portEn .plc = false ∨ s.line.plc.use = .idle ∨ s.line.plc.use = .waitTen ∨
         s.line.plc.use = .suspended) →
       Leads .channelChange s fun u => u.line.plan = pl ∧ u.line.planSh = none ∧ u.line.chanPend = rest ∧
         u.sched.ent[e].state = .idle ∧ u.sched.ent[e].result = 1) ∧
     (∀ c rest, s.line.chanPend = c :: rest → s.portEn .plc = true → (s.line.plc.use = .sending ∨ s.line.plc.use = .receiving) →
       exec .channelChange s = .next s))

/-! ### Queues, FIFOs, slots, filters (chapters 9, 10) -/

/-- The producer's header opens an item in a FREE slot, which one the spec leaves open; each data word joins it; COMMIT gives it one
outcome: ACCEPTED queues the item with its words, TRUNCATED one with too few words or none open, BAD_LEN one with too many,
REFUSED_FULL one that found no FREE slot. A party that is not the producer changes nothing but OWNREF and the refusal count. -/
def Obligations.SubmittingAnItem : Prop :=
  ∀ (s : State) (p : Party) (n q : Fin 4) (v : Word), served s p (.win n) → s.winClosed n = false →
    let tq := s.tq n q
    let prod := s.isCode n p tq.prod
    let ended := fun (code : Nat) => Leads (.tqCommit p n q) s fun u =>
      (u.tq n q).opened = none ∧ (u.tq n q).last.toNat = code ∧ u.out.toNat % 256 = code
    (prod = true → Leads (.tqSubmitWord p n q v) s fun u => ∃ i : OpenItem, (u.tq n q).opened = some i ∧ i.hdr = v ∧ i.words = [] ∧
      (∀ g, i.slot = some g → g ∈ s.freeSlots n tq ∨ (tq.filling = some g)) ∧
      (i.slot = none → s.freeSlots n tq = []) ∧ (u.tq n q).items = tq.items ∧ u.mem = s.mem) ∧
    (prod = true → ∀ i, tq.opened = some i → i.words.length < 40 → Leads (.tqSdataWord p n q v) s fun u =>
      (u.tq n q) = { tq with opened := some { i with words := i.words ++ [v] } } ∧ u.mem = s.mem) ∧
    (prod = true → tq.opened = none → ended 11) ∧
    (prod = true → ∀ i, tq.opened = some i → i.slot = none → ended 10) ∧
    (prod = true → ∀ i g, tq.opened = some i → i.slot = some g →
      (i.words.length < i.need → ended 11) ∧ (i.need < i.words.length → ended 12) ∧
      (i.words.length = i.need → i.badWords = false → s.badForm (s.itemFrame i) = false →
        s.lacksRight n (s.itemFrame i) = false → s.tooLong n tq.port (s.itemFrame i) = false →
        ended 15 ∧ Leads (.tqCommit p n q) s fun u => (u.tq n q).items = tq.items ++ [⟨g, .queued, false, none⟩] ∧
          (∀ w k, i.dataWords[k]? = some w → u.slotWord g (8 + k) = w) ∧ bitsOf (u.slotWord g 1) 0 7 = i.len % 128 ∧
          bitsOf (u.slotWord g 2) 14 2 = 2)) ∧
    (prod = false → (∀ c ∈ [Instr.tqSubmitWord p n q v, .tqSdataWord p n q v, .tqCommit p n q], Leads c s fun u =>
      u.pans[n].ownRef = true ∧ (u.tq n q).opened = tq.opened ∧ (u.tq n q).items = tq.items ∧ u.mem = s.mem))

/-- A completion and a received frame are read a word at a time: reading all of its words, or a completion's W7, takes it; less leaves
it, and counts in PART for a frame. An empty head and a party without the right get zeros. -/
def Obligations.CollectingCompletionsAndFrames : Prop :=
  ∀ (s : State) (h : HostPort) (n q : Fin 4) (k : Nat), served s (.host h) (.win n) → s.winClosed n = false → 1 ≤ k → k ≤ 64 →
    let tq := s.tq n q
    let rx := s.rxf n q
    let answers := fun (c : Instr) (last : BitVec 5) (P : State → Prop) => Leads c s fun u =>
      u.host[h.ix].last = last ∧ u.host[h.ix].resp.length = k ∧ P u ∧ u.mem = s.mem
    (s.isCode n (.host h) tq.prod = true → ∀ g rest, tq.done = g :: rest →
      answers (.tqCplCollect (.host h) n q k) (if 8 ≤ k then 0 else 12) fun u =>
        (u.tq n q).done = (if 8 ≤ k then rest else tq.done) ∧
          ∀ w, w < k → w < s.rxWords g → u.host[h.ix].resp[w]? = some (s.slotWord g w)) ∧
    (s.isCode n (.host h) rx.cons = true → ∀ g rest, rx.frames = g :: rest →
      answers (.rxfFetchRead (.host h) n q k) (if s.rxWords g ≤ k then 0 else 12) fun u =>
        (u.rxf n q).frames = (if s.rxWords g ≤ k then rest else rx.frames) ∧
          (u.rxf n q).part = (if s.rxWords g ≤ k then rx.part else satInc8 rx.part) ∧
          ∀ w, w < k → w < s.rxWords g → u.host[h.ix].resp[w]? = some (s.slotWord g w)) ∧
    (s.isCode n (.host h) tq.prod = true → tq.done = [] → answers (.tqCplCollect (.host h) n q k) 11 fun u => (u.tq n q).done = []) ∧
    (s.isCode n (.host h) rx.cons = true → rx.frames = [] → answers (.rxfFetchRead (.host h) n q k) 11 fun u => u.rxf n q = rx) ∧
    (s.isCode n (.host h) tq.prod = false → answers (.tqCplCollect (.host h) n q k) 10 fun u =>
      u.pans[n].ownRef = true ∧ u.tq n q = tq) ∧
    (s.isCode n (.host h) rx.cons = false → answers (.rxfFetchRead (.host h) n q k) 10 fun u =>
      u.pans[n].ownRef = true ∧ u.rxf n q = rx)

/-- TQn_CTL and RXFn_CTL: EN with an allowed ring passes its slots to LINE, with none of the ring's old items; a ring that is not
allowed is refused with CFGERR; clearing EN of an empty queue, or of a FIFO, passes the slots to HOST. FLUSH leaves no QUEUED item. -/
def Obligations.QueueAndFifoControl : Prop :=
  ∀ (s : State) (p : Party) (n q : Fin 4) (v : Word), served s p (.win n) → s.winClosed n = false →
    let tq := s.tq n q
    let rx := s.rxf n q
    let txRing := s.ringSlots n tq.base tq.depth
    let rxRing := s.ringSlots n rx.base rx.depth
    (tq.en = false → v.getLsbD 0 = true → v.getLsbD 3 = false →
      (s.ringOk n q tq.base tq.depth = true → Leads (.tqCtlWrite p n q v) s fun u => (u.tq n q).en = true ∧
        (u.tq n q).items = [] ∧ (u.tq n q).done = [] ∧ (u.tq n q).trunc = 0 ∧ ∀ g ∈ txRing, u.slotOwn g = ownLine) ∧
      (s.ringOk n q tq.base tq.depth = false → Leads (.tqCtlWrite p n q v) s fun u => (u.tq n q).en = false ∧
        (u.tq n q).cfgErr = true ∧ u.mem = s.mem)) ∧
    (tq.en = true → v.getLsbD 0 = false → v.getLsbD 3 = false → tq.items = [] → tq.done = [] → tq.opened = none →
      Leads (.tqCtlWrite p n q v) s fun u => (u.tq n q).en = false ∧ ∀ g ∈ txRing, u.slotOwn g = ownHost) ∧
    Leads (.tqFlush p n q) s (fun u => (u.tq n q).opened = none ∧ (∀ i ∈ (u.tq n q).items, i.st = .onWire) ∧
      (u.tq n q).en = tq.en) ∧
    (rx.en = false → v.getLsbD 0 = true →
      (s.ringOk n (q.val + 4) rx.base rx.depth = true → Leads (.rxfCtlWrite p n q v) s fun u => (u.rxf n q).en = true ∧
        (u.rxf n q).frames = [] ∧ ∀ g ∈ rxRing, u.slotOwn g = ownLine) ∧
      (s.ringOk n (q.val + 4) rx.base rx.depth = false → Leads (.rxfCtlWrite p n q v) s fun u => (u.rxf n q).en = false ∧
        (u.rxf n q).cfgErr = true ∧ u.mem = s.mem)) ∧
    (rx.en = true → v.getLsbD 0 = false → Leads (.rxfCtlWrite p n q v) s fun u => (u.rxf n q).en = false ∧ (u.rxf n q).frames = [] ∧
      ∀ g ∈ rxRing, u.slotOwn g = ownHost)

/-- A holder's write of W2 passes the slot: OWN, OTHR and SEEN change, no other bit, when the new holder is the host or a thread of the
pan below its limit; a write that names LINE, 3, no thread of the pan, or a thread at its limit that does not hold the slot already,
changes nothing but OWNREF. A write of a mailbox's W2 with SEEN = 1 sets SEEN and nothing else. -/
def Obligations.PassingASlot : Prop :=
  ∀ (s : State) (p : Party) (slot : Fin 1344) (v : Word), s.sys.swPend = false →
    let g := slot.val
    (match p with
      | .host h => s.pow.vioOk = true ∧ s.serves = true ∧ s.hostRight h (slotAddr g 2) = .yes ∧ s.host[h.ix].tx = none
      | .thread t => s.coreRuns = true ∧ s.eng.thr[t].issues = true ∧ s.slotOwner g = s.thrPan t) →
    let n := s.slotOwner g
    let old := s.slotWord g 2
    let line := bitsOf old 14 2 = 2
    (s.holds p g = true →
      (bitsOf v 14 2 = 0 → Leads (.slotW2Write p slot v) s fun u => u.slotWord g 2 = merge 0xFA00 old v ∧
        u.slotOwn g = ownHost ∧ u.pans = s.pans ∧ ∀ w, w < 24 → w ≠ 2 → u.slotWord g w = s.slotWord g w) ∧
      (bitsOf v 14 2 = 1 → ∀ x : Fin 8, (s.panThreads n)[bitsOf v 11 3]? = some x.val → s.charge x < s.limit x →
        Leads (.slotW2Write p slot v) s fun u => u.slotWord g 2 = merge 0xFA00 old v ∧ u.slotHeldBy g x = true) ∧
      ((2 ≤ bitsOf v 14 2 ∨ (bitsOf v 14 2 = 1 ∧ ((s.panThreads n)[bitsOf v 11 3]? = none ∨
          ∃ x : Fin 8, (s.panThreads n)[bitsOf v 11 3]? = some x.val ∧ s.limit x ≤ s.charge x ∧ s.slotHeldBy g x = false))) →
        Leads (.slotW2Write p slot v) s fun u => u.mem = s.mem ∧ u.pans[n].ownRef = true)) ∧
    (line → s.mailboxOf g = true → Leads (.mailboxSeenWrite p slot v) s fun u =>
      u.slotWord g 2 = old ||| 0x200 ∧ (∀ a, a < 0x20000 + 96 * g + 8 ∨ 0x20000 + 96 * g + 12 ≤ a → memGet u.mem a = memGet s.mem a) ∧
        u.pans = s.pans) ∧
    (s.holds p g = false → (line → s.mailboxOf g = false) → Leads (.slotW2Write p slot v) s fun u => u.mem = s.mem ∧
      u.pans[n].ownRef = true)

/-- FLTn_CTL makes the four shadow words of a filter pending, and fltw writes all four; their application puts all four in effect
when the entry passes the checks, and discards all four with CFGERR when it does not; one with a bad parity bit is discarded unapplied. -/
def Obligations.FiltersApplyAsAWhole : Prop :=
  (∀ (s : State) (p : Party) (n : Fin 4) (k f : Fin 128) (v : Word),
     let x := s.flt[f]
     (served s p (.win n) → s.regAt (.win n) (0x800 + 16 * k.val) = .flt f 0 → Leads (.filterCtlWrite p n k v) s fun u =>
       u.flt[f] = { x with ctlSh := some v, ready := true, writer := p.holder } ∧ (∀ j, j ≠ f → u.flt[j] = s.flt[j]) ∧ u.mem = s.mem) ∧
     (s.coreRuns = true → x.ready = true → x.ctlSh.isSome = true → (∃ e ∈ s.sys.shBad, e.1 = .flt f 0) →
       Leads (.filterApply f) s fun u => u.flt[f].ctl = x.ctl ∧ u.flt[f].a = x.a ∧ u.flt[f].b = x.b ∧ u.flt[f].d = x.d ∧
         u.flt[f].pending = false ∧ (∀ j, j ≠ f → u.flt[j] = s.flt[j]) ∧ u.mem = s.mem) ∧
     (s.coreRuns = true → x.ready = true → (∀ e ∈ s.sys.shBad, ∀ w, e.1 ≠ .flt f w) → ∀ y : Filter, y = x.taken →
       (y.badForm = true ∨ s.badMailbox (s.fltOwner f) y = true → Leads (.filterApply f) s fun u => u.flt[f].cfgErr = true ∧
         u.flt[f].ctl = x.ctl ∧ u.flt[f].a = x.a ∧ u.flt[f].b = x.b ∧ u.flt[f].d = x.d ∧ u.flt[f].pending = false ∧ u.mem = s.mem) ∧
       (y.badForm = false → s.badMailbox (s.fltOwner f) y = false → (y.dest = 3 → s.hasCap (s.fltOwner f) .bridge = true) →
         Leads (.filterApply f) s fun u => u.flt[f] = { y with cfgErr := false, past := x.pastAt s.now.ticks } ∧ y.pending = false ∧
           (∀ w, x.ctlSh = some w → y.ctl = putBit w 30 false) ∧ (x.ctlSh = none → y.ctl = putBit x.ctl 30 false) ∧
           y.a = x.aSh.getD x.a ∧ y.b = x.bSh.getD x.b ∧ y.d = x.dSh.getD x.d ∧ (∀ j, j ≠ f → u.flt[j] = s.flt[j])) ∧
       (y.badForm = false → s.badMailbox (s.fltOwner f) y = false → y.dest = 3 → s.hasCap (s.fltOwner f) .bridge = false →
         Leads (.filterApply f) s fun u => u.flt[f].cfgErr = true ∧ bitOf u.pans[s.fltOwner f].fault 1 = true)) ∧
     (x.ready = false → exec (.filterApply f) s = .next s)) ∧
  (∀ (s : State) (t : Fin 8) (ra : Fin 16) (n : Fin 128), canIssue s t →
     let r := fun k : Nat => s.gReg t (Fin.ofNat 16 (ra.val + k))
     let named := (s.panFilters (s.thrPan t))[n.val]?
     let group := 1 ≤ ra.val ∧ ra.val ≤ 12
     (¬group → exec (.fltw t ra n) s = .next (s.threadFault t fcIllegal)) ∧
     (group → named = none → exec (.fltw t ra n) s = .next (s.threadFault t fcForeign)) ∧
     (group → ∀ k : Fin 128, named = some k.val → Leads (.fltw t ra n) s fun u =>
       u.flt[k] = { s.flt[k] with ctlSh := some (r 0), aSh := some (r 1), bSh := some (r 2), dSh := some (r 3), ready := true
                                  writer := some t } ∧
       (∀ j, j ≠ k → u.flt[j] = s.flt[j]) ∧ u.eng.thr[t].pc = pcAdd s.eng.thr[t].pc 1 ∧ u.mem = s.mem))

/-! ### Pans (chapter 8) -/

/-- PANLOCK with an allocation that passes the checks freezes it and starts the scrub, with the scratch and brine RAM of P1 to P3 zero; one that fails
sets ALLOCERR to the first check that fails and changes nothing else. The scrub's end opens the windows. A pan reset halts its threads,
frees its locks, bumps its generation and closes its window until it is done. -/
def Obligations.PanlockAndPanReset : Prop :=
  ∀ (s : State) (p : Party) (n : Fin 4) (v : Word),
    (served s p .sys → s.keyArmed 0 p = true → s.sys.panLock = false →
      (s.allocCheck = 0 → Leads (.panlock p) s fun u => u.sys.panLock = true ∧ u.sys.scrub = true ∧ u.sys.allocErr = 0 ∧
        u.alloc = s.alloc ∧ u.sys.dbgLock = s.sys.dbgLock ∧ (∀ m : Fin 4, m ≠ 0 → u.pans[m].tq = .replicate 4 .reset ∧
          ∀ b : Nat, (inRegion (u.scratchRegion m) b = true ∨
            ∃ k : Nat, k < 42 ∧ u.unitOwner k = m ∧ slotAddr (32 * k) 0 ≤ b ∧ b < slotAddr (32 * k + 32) 0) → memGet u.mem b = 0)) ∧
      (s.allocCheck ≠ 0 → Leads (.panlock p) s fun u => u.sys.panLock = false ∧ u.sys.allocErr.toNat = s.allocCheck ∧
        u.alloc = s.alloc ∧ u.pans = s.pans ∧ u.mem = s.mem ∧ u.eng = s.eng ∧ u.sched = s.sched)) ∧
    (s.coreRuns = true → Leads .scrubDone s fun u => u = { s with sys := { s.sys with scrub := false } }) ∧
    (s.panEn n = true → s.pans[n].rstBusy = false →
      let isReset := fun (u : State) => u.pans[n].rstBusy = true ∧ u.pans[n].gen = s.pans[n].gen + 1 ∧
        (∀ t : Fin 8, s.thrPan t = n → u.eng.thr[t].state = .halted) ∧ (∀ l : Fin 32, s.lockOwner l = n → u.eng.locks[l] = none) ∧
        (∀ e : Fin 32, s.schOwner e = n → u.sched.ent[e].state = .idle) ∧ u.pans[n].sreg = s.pans[n].sreg ∧
        (∀ m : Fin 4, m ≠ n → u.pans[m] = s.pans[m]) ∧ u.alloc = s.alloc ∧ u.tide = s.tide
      (served s p .sys → s.keyArmed 0 p = true → v.toNat % 16 = 2 ^ n.val → Leads (.sysPanrst p v) s isReset) ∧
      (served s p (.win n) → s.winClosed n = false → s.keyArmed (Via.win n).scope p = true → v.getLsbD 8 = true →
        Leads (.panCtlReset p n v) s isReset)) ∧
    (s.coreRuns = true → s.pans[n].rstBusy = true → Leads (.panResetScrubDone n) s fun u => u.pans[n].rstBusy = false ∧
      bitOf u.pans[n].fault 5 = true ∧ u.pans[n].gen = s.pans[n].gen ∧ u.mem = s.mem)

/-- Every millisecond each pan's bucket gains RATE bytes up to BURST, by its budget after a pending one in the ceiling applies. In sealed
mode the window passes at its boundary to the next pan that has one. A pending rate or policy with good parity applies as it stands, or
is refused with CFGERR, and no longer waits; a pending budget that applies by itself cuts the bucket to its BURST. -/
def Obligations.BudgetsWindowsAndShadows : Prop :=
  ∀ s : State, s.coreRuns = true →
    (Leads .millisecondTick s fun u => ∀ n : Fin 4, u.pans[n].budgetSh = none ∧
      (s.pans[n].budgetSh = none → u.pans[n].budget = s.pans[n].budget ∧
        u.pans[n].token.toNat = min s.pans[n].burst (s.pans[n].token.toNat + s.pans[n].rate)) ∧
      (∀ b, s.pans[n].budgetSh = some b → (∀ e ∈ s.sys.shBad, e.1 ≠ .budget n) → bitsOf b 0 16 ≤ bitsOf (s.ceiling n) 0 16 → bitsOf b 16 16 ≤ bitsOf (s.ceiling n) 16 16 →
        u.pans[n].budget = b ∧ u.pans[n].token.toNat = min (bitsOf b 16 16) (s.pans[n].token.toNat + bitsOf b 0 16))) ∧
    (s.sealed = true → ∀ n, s.panEn n = true → s.windowOf n ≠ 0 → (∀ m, s.panEn m = true → s.windowOf m ≠ 0 → m = n ∨ m < n ∧ m ≤ s.window ∨ n < m) →
      s.window < n → Leads .sealedWindowBoundary s fun u => u.window = n ∧ u.windowFrom = s.eng.tnow ∧ u.alloc = s.alloc) ∧
    (s.sealed = true → ∀ n, s.panEn n = true → s.windowOf n ≠ 0 → (∀ m, s.panEn m = true → s.windowOf m ≠ 0 → n ≤ m ∧ m ≤ s.window) →
      Leads .sealedWindowBoundary s fun u => u.window = n ∧ u.windowFrom = s.eng.tnow ∧ u.alloc = s.alloc) ∧
    (∀ (n : Fin 4) (b : Word), s.pans[n].budgetSh = some b → (∀ e ∈ s.sys.shBad, e.1 ≠ .budget n) →
      bitsOf b 0 16 ≤ bitsOf (s.ceiling n) 0 16 → bitsOf b 16 16 ≤ bitsOf (s.ceiling n) 16 16 →
      Leads (.shadowApply (.budget n)) s fun u => u.pans[n].budget = b ∧ u.pans[n].budgetSh = none ∧
        u.pans[n].token.toNat = min (bitsOf b 16 16) s.pans[n].token.toNat) ∧
    (∀ r : Word, s.tide.rateSh = some r → s.tide.rateVia = .sys → (∀ e ∈ s.sys.shBad, e.1 ≠ .rate) → Leads (.shadowApply .rate) s fun u => u.tide.rateSh = none ∧
      (if -20000 ≤ r.toInt ∧ r.toInt ≤ 20000 then u.tide.rate = r ∧ u.tide.cfgErr = s.tide.cfgErr
        else u.tide.rate = s.tide.rate ∧ u.tide.cfgErr = true)) ∧
    (∀ v : Word, s.line.policySh = some v → s.portIdle .plc = true → (∀ e ∈ s.sys.shBad, e.1 ≠ .policy) → Leads (.shadowApply .policy) s fun u => u.line.policySh = none ∧
      (if bitsOf v 0 3 ≤ bitsOf v 4 3 ∧ bitsOf v 8 6 ≠ 0 then u.line.policy = v else u.line.policy = s.line.policy ∧ u.line.cfgErr = true))

/-! ### Registers, keys, rights (chapters 8, 18, 19) -/

/-- A key: writing 0xC5A1 arms the party's key of the scope, any other value disarms it and sets KEYFAIL. A keyed write with the key armed
has its effect and uses the key up; without it, it changes nothing but KEYFAIL. -/
def Obligations.KeysGuardKeyedRegisters : Prop :=
  ∀ (s : State) (p : Party) (v : Word),
    (∀ (via : Via) (c : Fin 5), served s p via → c = via.scope → (match via with | .sys => True | .win n => s.winClosed n = false) →
      (v = 0xC5A1 → Leads (.keyWrite p via v) s fun u => u.keyArmed c p = true ∧
        (∀ (d : Fin 5) (q : Party), (d, q) ≠ (c, p) → u.keyArmed d q = s.keyArmed d q) ∧ u.sys.keyFail = s.sys.keyFail ∧ u.pans = s.pans) ∧
      (v ≠ 0xC5A1 → Leads (.keyWrite p via v) s fun u => u.keyArmed c p = false ∧
        (match via with | .sys => u.sys.keyFail = true | .win n => bitOf u.pans[n].fault 2 = true))) ∧
    (served s p .sys → s.keyArmed 0 p = false → s.sys.keyFail = true →
      (∀ c ∈ [Instr.panlock p, .sysPanrst p v, .sysSwrst p v, .lineRejoin p v], Leads c s fun u =>
        LikeState u (accessState s p) ∧ u.sys.keys = s.sys.keys)) ∧
    (∀ h : HostPort, served s (.host h) .sys → s.keyArmed 0 (.host h) = false →
      (∀ c ∈ [Instr.panlock (.host h), .sysPanrst (.host h) v, .sysSwrst (.host h) v, .lineRejoin (.host h) v], Leads c s fun u =>
        u.host[h.ix].last = 9 ∧ u.sys.keyFail = true ∧ u.sys.panLock = s.sys.panLock ∧ u.line = s.line)) ∧
    (served s p .sys → s.keyArmed 0 p = true →
      (v.getLsbD 0 = true → Leads (.sysSwrst p v) s fun u => u.pow.state = .reset ∧ u.sys.rstCause = 8 ∧ u.slu.safe = s.slu.safe ∧
        u.line.plc.guard = s.line.plc.guard) ∧
      (v.getLsbD 1 = true → v.getLsbD 2 = false → s.line.plc.conf = .held → Leads (.lineRejoin p v) s fun u =>
        u.line.plc.conf = .active ∧ u.line.plc.tecCnt = 0 ∧ u.line.plc.recCnt = 0 ∧ u.line.plc.guard = false ∧
        u.keyArmed 0 p = false))

/-- A register write by its address, by a host in its map or a thread in its own: SYS_CTL, a PAN_ALLOC word before PANLOCK and after it,
SUP_CTL; a bit alias sets or clears its one bit and leaves the others. -/
def Obligations.RegisterAndAliasWrites : Prop :=
  ∀ (s : State) (p : Party) (v : Word), served s p .sys →
    let base := match p with | .host _ => 0 | .thread _ => 0x51000
    let bits := match p with | .host _ => 0x8000 | .thread _ => 0x68000
    (∀ a : BitVec 24, a.toNat = base + 4 → Leads (.registerWrite p a v) s fun u =>
      u.sys.ctl = merge 3 s.sys.ctl v ∧ u.mem = s.mem ∧ u.alloc = s.alloc) ∧
    (∀ (a : BitVec 24) (k : Fin 48), a.toNat = base + 0x140 + 4 * k.val →
      (s.sys.panLock = false → Leads (.registerWrite p a v) s fun u => u.alloc[k] = merge (allocMask k.val) s.alloc[k] v ∧
        ∀ j : Fin 48, j ≠ k → u.alloc[j] = s.alloc[j]) ∧
      (s.sys.panLock = true → Leads (.registerWrite p a v) s fun u => u.alloc = s.alloc ∧ bitOf u.pans[(0 : Fin 4)].fault 0 = true)) ∧
    (∀ (a : BitVec 24) (b : Nat), b < 2 → a.toNat = bits + 128 * 1 + 4 * b → Leads (.aliasWrite p a v) s fun u =>
      ∀ i, i < 32 → u.sys.ctl.getLsbD i = if i = b then v.getLsbD 0 else s.sys.ctl.getLsbD i) ∧
    (∀ a : BitVec 24, a.toNat = bits + 128 * 16 → Leads (.aliasWrite p a v) s fun u =>
      ∀ i, i < 32 → u.pow.supCtl.getLsbD i = if i = 0 then v.getLsbD 0 else s.pow.supCtl.getLsbD i)

/-! ### Host transactions (chapter 18) -/

/-- A plain transaction: READ and READ_BURST return the words of scratch RAM, WRITE and WRITE_BURST store them lowest byte first, STATUS
returns the port's word and clears ERRCNT, SUBMIT, COMMIT and FETCH reach the queue they name. A burst in two parts, with
CS_N held low between them, is the burst in one. A port that is not served, or whose transaction is stalled, changes nothing but its own
record: its code in LAST, and ERRCNT. -/
def Obligations.HostTransactions : Prop :=
  ∀ (s : State) (x : Xfer),
    let h := x.port
    let ends := fun (c : Instr) (last : BitVec 5) (P : State → Prop) => Leads c s fun u => u.host[h.ix].last = last ∧ P u
    let refused := fun (c : Instr) (last : BitVec 5) => ends c last fun u =>
      u.host[h.ix].errCnt = satInc8 s.host[h.ix].errCnt ∧ u = { s with host := u.host, pow := u.pow } ∧ u.pow = { s.pow with req := none }
    (∀ (a : BitVec 24) (v : Word), plain s x → s.hostRight h a.toNat = .yes → a.toNat % 4 = 0 → 0x50000 ≤ a.toNat → a.toNat < 0x54000 →
      ends (.hostRead x a) 0 (fun u => u.host[h.ix].resp = [memWord s.mem a.toNat] ∧ u.mem = s.mem) ∧
      ends (.hostWrite x a v) 0 (fun u => (∀ k, k < 4 → memGet u.mem (a.toNat + k) = v.extractLsb' (8 * k) 8) ∧
        (∀ b, b < a.toNat ∨ a.toNat + 4 ≤ b → memGet u.mem b = memGet s.mem b) ∧ u.eng = s.eng ∧ u.pans = s.pans)) ∧
    (∀ (a : BitVec 24) (n : Nat) (vs : List Word), plain s x → 1 ≤ n → n ≤ 64 → vs.length = n → a.toNat % 4 = 0 → 0x50000 ≤ a.toNat →
      a.toNat + 4 * n ≤ 0x54000 → (∀ k, k < n → s.hostRight h (a.toNat + 4 * k) = .yes) →
      ends (.hostReadBurst x a ⟨n, false⟩) 0 (fun u =>
        u.host[h.ix].resp = (List.range n).map (fun k => memWord s.mem (a.toNat + 4 * k)) ∧ u.host[h.ix].tx = none) ∧
      (∀ k m : Nat, k + m = n → Leads (.hostReadBurst x a ⟨k, true⟩) s fun u =>
        exec (.hostReadBurst x a ⟨m, false⟩) u = exec (.hostReadBurst x a ⟨n, false⟩) s) ∧
      ends (.hostWriteBurst x a vs) 0 (fun u => ∀ (k : Nat) (v : Word), vs[k]? = some v → memWord u.mem (a.toNat + 4 * k) = v)) ∧
    (plain s x → ends (.hostStatus x) 0 fun u => u.host[h.ix].errCnt = 0 ∧ u.host[h.ix].resp = [(s.endRequest false).statusWord h] ∧
      u.mem = s.mem ∧ u.eng = s.eng) ∧
    (∀ (a : BitVec 24) (n q : Fin 4), plain s x → served s (.host h) (.win n) → s.winClosed n = false → s.isCode n (.host h) (s.tq n q).prod = true →
      (∀ v : Word, a.toNat = 0x1000 + 0x1000 * n.val + tqAt q 2 → ends (.hostSubmit x a [v]) 0 fun u =>
        ∃ i : OpenItem, (u.tq n q).opened = some i ∧ i.hdr = v ∧ i.words = []) ∧
      (a.toNat = 0x1000 + 0x1000 * n.val + tqAt q 4 → (s.tq n q).opened = none → ends (.hostCommit x a) 0 fun u =>
        (u.tq n q).last.toNat = 11) ∧
      (∀ g rest, a.toNat = 0x1000 + 0x1000 * n.val + tqAt q 5 → (s.tq n q).done = g :: rest →
        ends (.hostFetch x a ⟨8, false⟩ true) 0 fun u => (u.tq n q).done = rest ∧
          u.host[h.ix].resp = (List.range 8).map (fun w => s.slotWord g w))) ∧
    (s.pow.vioOk = true → s.serves = false → s.sys.swPend = false → s.host[h.ix].tx = none → ∀ (a : BitVec 24) (v : Word),
      refused (.hostRead x a) 1 ∧ refused (.hostWrite x a v) 1 ∧ refused (.hostDoorbell x v) 1) ∧
    (s.pow.vioOk = true → s.serves = true → s.sys.swPend = false → s.host[h.ix].tx = none → refused (.transactionStall h) 4 ∧
      ∀ op, badCommand op = true → refused (.badcmdTransaction h op) 3) ∧
    (s.pow.vioOk = false → ∀ (a : BitVec 24) (v : Word), exec (.hostRead x a) s = .next s ∧ exec (.hostWrite x a v) s = .next s ∧
      exec (.hostStatus x) s = .next s)

/-- The debug command of a port on a thread of its pan, without DBGLOCK or DBGOFF: HALT stops a thread that is not HALTED in DEBUG, RESUME and STEP let a
debugged thread go on, READ_REG and WRITE_REG reach its registers, the breakpoint operations take and free a comparator. With DBGLOCK
every operation is REFUSED and changes nothing but the port's record. (The order of the checks and the forms that the spec leaves open are
the model's readings, log 36.) -/
def Obligations.DebugCommands : Prop :=
  ∀ (s : State) (x : Xfer) (n : Fin 4) (k : Nat) (t : Fin 8) (target : Byte), plain s x → k < 8 →
    target.toNat = 16 * n.val + k → (s.panThreads n)[k]? = some t.val → n ∈ s.portPans x.port →
    let h := x.port
    let th := s.eng.thr[t]
    let gives := fun (c : Instr) (code : Nat) (P : State → Prop) => Leads c s fun u => u.host[h.ix].last = 0 ∧
      ((u.host[h.ix].resp.headD 0).toNat % 256 = code) ∧ P u
    (s.sys.dbgLock = false → s.otp.dbgOff = false →
      (th.state ≠ .halted →
        gives (.dbgHalt x target) 0 (fun u => u.eng.thr[t].state = .debug ∧ u.eng.thr[t].pc = th.pc ∧ u.eng.thr[t].waitOn = th.waitOn)) ∧
      (th.state = .halted → gives (.dbgHalt x target) 3 (fun u => u.eng = s.eng)) ∧
      (th.state = .debug → th.waitOn = none → gives (.dbgResume x target) 0 (fun u => u.eng.thr[t].state = .running ∧ u.eng.thr[t].pc = th.pc) ∧
        gives (.dbgStep x target) 0 (fun u => u.eng.thr[t].issues = true ∧ u.eng.thr[t].stepping = true)) ∧
      (th.state ≠ .debug → gives (.dbgResume x target) 3 (fun u => u.eng = s.eng) ∧ gives (.dbgStep x target) 3 (fun u => u.eng = s.eng)) ∧
      (∀ (i : Byte) (v : Word) (r : Fin 16), 1 ≤ i.toNat → i.toNat = r.val → th.state = .debug →
        gives (.dbgReadReg x target i) 0 (fun u => u.host[h.ix].resp[1]? = some (s.gReg t r) ∧ u.eng = s.eng) ∧
        gives (.dbgWriteReg x target i v) 0 (fun u => u.gReg t r = v ∧ ∀ q, q ≠ r → u.gReg t q = s.gReg t q)) ∧
      (∀ v : Word, th.state = .debug → gives (.dbgWriteReg x target 16 v) 0 fun u => u.eng.thr[t].pc = v.setWidth 15) ∧
      (∀ (v : Word) (c : Fin 4), s.eng.bp[c] = none → (∀ d, d < c → s.eng.bp[d] ≠ none) → gives (.dbgSetBreakpoint x target 0 v) 0 fun u =>
        u.eng.bp[c] = some ⟨v.setWidth 15, n, BitVec.ofNat 8 (bitsOf v 16 8)⟩ ∧ (u.host[h.ix].resp[1]? = some (BitVec.ofNat 32 c.val))) ∧
      (∀ v : Word, (∀ d : Fin 4, s.eng.bp[d] ≠ none) → gives (.dbgSetBreakpoint x target 0 v) 2 fun u => u.eng = s.eng) ∧
      (∀ (c : Fin 4) (i : Byte) (b : Breakpoint), i.toNat = c.val → s.eng.bp[c] = some b → b.pan = n →
        gives (.dbgClearBreakpoint x target i) 0 fun u => u.eng.bp[c] = none ∧ ∀ d, d ≠ c → u.eng.bp[d] = s.eng.bp[d])) ∧
    (s.sys.dbgLock = true → ∀ c ∈ [Instr.dbgHalt x target, .dbgResume x target, .dbgStep x target, .dbgReadReg x target 1,
        .dbgWriteReg x target 1 0, .dbgSetBreakpoint x target 0 0, .dbgClearBreakpoint x target 0],
      gives c 1 fun u => u.eng = s.eng ∧ u.pans = s.pans)

/-! ### Tide time and the calendar (chapters 5, 17) -/

/-- The tide registers: a read of TIDE_TICK latches TIDE_SEC for the reader; TIDE_OFFS on a sending keeper with a busy bus waits, and
sums up; TIDE_KEEPER keeps its reserved bits. The calendar: CAL_DATE goes into the writer's hold; CAL_TIME on a controller that neither
sends nor is FREE is denied, an impossible date is BAD; its read gives the time of day and latches the date. -/
def Obligations.TideAndCalendarRegisters : Prop :=
  ∀ (s : State) (p : Party) (via : Via) (v : Word), served s p via → (match via with | .sys => True | .win n => s.winClosed n = false) →
    let keeper := s.hasCap via.pan .keeper = true
    Leads (.tideTickRead p via) s (fun u => u.out.toNat = s.tide.tick.toNat ∧ u.tide.latch[p.ix] = s.tide.sec ∧
      u.tide.sec = s.tide.sec ∧ u.tide.tick = s.tide.tick) ∧
    (keeper → s.keyArmed via.scope p = true → s.tide.sending = true → s.busIdle = false → Leads (.tideOffsStep p via v) s fun u =>
      u.tide.stepPend = some (s.tide.stepPend.getD 0 + v.toInt) ∧ u.tide.stepSoft = true ∧ u.tide.sec = s.tide.sec ∧
      u.tide.tick = s.tide.tick ∧ u.keyArmed via.scope p = false) ∧
    (keeper → s.keyArmed via.scope p = true → s.tide.sending = false → Leads (.tideOffsStep p via v) s fun u =>
      u.tide = s.tide ∧ bitOf u.pans[via.pan].fault 0 = true) ∧
    (keeper → bitsOf v 0 2 < 3 → 2 ≤ bitsOf v 8 4 → Leads (.tideKeeperWrite p via v) s fun u =>
      u.tide.keeperReg = merge 0x00FF0FF3 s.tide.keeperReg v ∧
      (bitsOf v 0 2 = 0 → u.tide.sending = false ∧ u.tide.listening = false)) ∧
    (keeper → bitsOf v 0 2 = 3 ∨ bitsOf v 8 4 < 2 → Leads (.tideKeeperWrite p via v) s fun u => u.tide.keeperReg = s.tide.keeperReg ∧
      u.tideErr via = true) ∧
    Leads (.calDateWrite p via v) s (fun u => u.cal.hold[p.ix] = v ∧ (∀ q : Fin 10, q ≠ p.ix → u.cal.hold[q] = s.cal.hold[q]) ∧
      u.tide = s.tide) ∧
    (s.hasCap via.pan .calset = true → s.tide.sending = false → s.tide.lock ≠ .free → Leads (.calTimeWrite p via v) s fun u =>
      u.tide = s.tide ∧ u.cal.pend = s.cal.pend ∧ (via = .sys → u.cal.deny = true)) ∧
    (s.hasCap via.pan .calset = true → s.tide.sending = true ∨ s.tide.lock = .free → calValid s.cal.hold[p.ix] v = false →
      Leads (.calTimeWrite p via v) s fun u => u.tide = s.tide ∧ u.cal.pend = s.cal.pend ∧ (via = .sys → u.cal.bad = true)) ∧
    (s.hasCap via.pan .calset = true → s.tide.sending = true ∨ s.tide.lock = .free → calValid s.cal.hold[p.ix] v = true →
      s.busIdle = false → Leads (.calTimeWrite p via v) s fun u => u.tide = s.tide ∧
        u.cal.pend = some ((secOf s.cal.hold[p.ix] v * ticksPerSec : Nat) - (s.now.ticks : Int))) ∧
    Leads (.calTimeRead p via) s (fun u => u.out.toNat = s.tide.sec.toNat % 60 + 256 * (s.tide.sec.toNat % 3600 / 60) +
      65536 * (s.tide.sec.toNat % 86400 / 3600) ∧ u.cal.latch[p.ix] = dateOf s.tide.sec.toNat ∧ u.tide = s.tide)

/-- The events of tide time: a second wraps TIDE_TICK to 0 and counts TIDE_SEC; a boundary makes a keeper's frame due and counts one not
sent, unless its frame has gone out early; a missed period counts until a standby keeper starts sending, LOCKED; LOCKED falls to
HOLDOVER, ACQUIRE and HOLDOVER to FREE; a listen that hears nothing ends in sending; a pending move of the clock, and a pending delay,
take effect at the bus idle; each second of a slew changes its rate by at most 1 ppm, never beyond TIDE_CTL.SLEWRATE. -/
def Obligations.TideEvents : Prop :=
  ∀ s : State, s.coreRuns = true →
    let t := s.tide
    Leads .tideSecond s (fun u => u.tide.tick = 0 ∧ u.tide.sec = t.sec + 1) ∧
    (t.sending = true → t.early = false → Leads .tideBoundary s fun u => u.tide.due = true ∧
      u.tide.tskip = (if t.due then t.tskip + 1 else t.tskip) ∧ u.tide.rateSh = none) ∧
    (t.sending = true → t.early = true → Leads .tideBoundary s fun u => u.tide.early = false ∧ u.tide.due = t.due ∧
      u.tide.tskip = t.tskip ∧ u.tide.rateSh = none) ∧
    (t.sending = false → exec .tideBoundary s = .next s) ∧
    (t.sending = false → t.lastRx ≠ none → s.portOn s.stringPort = true → s.portIso s.stringPort = false →
      bitsOf t.keeperReg 0 2 = 2 → t.missing < 15 →
      (t.missing + 1 < bitsOf t.keeperReg 8 4 → Leads .missingPeriod s fun u => u.tide.missing = t.missing + 1 ∧ u.tide.sending = false) ∧
      (s.busOff s.stringPort = false → bitsOf t.keeperReg 8 4 ≤ t.missing + 1 → Leads .missingPeriod s fun u => u.tide.sending = true ∧ u.tide.lock = .locked ∧
        u.tide.due = true ∧ u.tide.takeover = true)) ∧
    (t.sending = false → t.lock = .locked → Leads .holdoverTimeout s fun u => u.tide.lock = .holdover ∧ u.tide.sec = t.sec) ∧
    (t.sending = false → t.lock = .acquire → Leads .acquireTimeout s fun u => u.tide.lock = .free) ∧
    (t.sending = false → t.lock = .holdover → Leads .holdmaxExpiry s fun u => u.tide.lock = .free) ∧
    (t.listening = true → t.heard = none → s.busOff s.stringPort = false → Leads .keeperListenEnd s fun u => u.tide.sending = true ∧ u.tide.listening = false ∧
      u.tide.lock = .locked ∧ u.tide.sec = t.sec ∧ u.tide.tick = t.tick) ∧
    (s.busIdle = true → s.cal.pend = none → ∀ d : Int, t.stepPend = some d → Leads .clockMove s fun u =>
      u.now = instantOf ((s.now.ticks : Int) + (d + t.adjPend)) ∧ u.tide.stepPend = none ∧ u.tide.adjPend = 0) ∧
    (s.busIdle = true → ∀ (k : Bool) (d : BitVec 16), s.line.dlyPend = some (k, d) → Leads .delayApply s fun u => u.line.dlyPend = none ∧
      (if k then u.line.dlyBackup else u.line.dlyMain) = ⟨d, decide (d.toNat ≤ 1400), decide (1400 < d.toNat)⟩) ∧
    (t.slewing = true → Leads .slewProgress s fun u =>
      let lim := bitsOf t.ctl 16 7
      u.tide = { t with slewRate := u.tide.slewRate } ∧ 1 ≤ u.tide.slewRate ∧ u.tide.slewRate ≤ t.slewRate + 1 ∧
        t.slewRate ≤ u.tide.slewRate + 1 ∧ (t.slewRate ≤ lim → 1 ≤ lim → u.tide.slewRate ≤ lim)) ∧
    (t.slewing = false → exec .slewProgress s = .next s)

/-! ### Frames of the string port (chapters 2, 5) -/

/-- Tide and SOUND frames on a string port that takes frames: a tide frame of the first keeper heard is tracked, and refreshes the
keep-alive; it disciplines the clock unless R183 leaves it unused; an addressed request gets its echo after the echo slot from an
estimated clock, and holds the node's own SOFs back to the end of its IFS; a result for this address gives the delay register its mark
names. -/
def Obligations.StringPortFrames : Prop :=
  ∀ (s : State) (port : LinePort) (f : Frame) (i : Instant), f.norm = f → port = s.stringPort → s.takes port = true → s.portIso port = false →
    (isTide f = true → tideMalformed f = false → s.tide.sending = false → s.tide.lastTracked = none → s.tide.listening = false →
      s.usable f = false → Leads (.tideFrameRx port f i) s fun u => u.tide.heardAny = true ∧ u.tide.keeper.toNat = f.source ∧
        u.tide.lastTracked = some i.ticks ∧ u.tide.epoch = s.tide.epoch ∧ u.tide.backup = s.tide.backup ∧ u.tide.offs = s.tide.offs ∧
        u.tide.lock = s.tide.lock ∧ u.slu.fresh = bitOf (f.data.getD 8 0) 7 ∧ u.slu.lastRel = some (f.data.getD 12 0)) ∧
    (isTide f = true → tideMalformed f = false → s.tide.sending = false → s.tide.lastTracked = none → s.tide.listening = false →
      s.usable f = true → Leads (.tideFrameRx port f i) s fun u => u.tide.heardAny = true ∧ u.tide.missing = 0 ∧ u.tide.keeper.toNat = f.source ∧
        u.tide.lastTracked = some i.ticks ∧ u.tide.epoch = BitVec.ofNat 16 (f.be 10 2) ∧ u.tide.backup = bitOf (f.data.getD 8 0) 6 ∧
        u.slu.fresh = bitOf (f.data.getD 8 0) 7 ∧ u.slu.lastRel = some (f.data.getD 12 0)) ∧
    (isTide f = true → tideMalformed f = false → s.tide.sending = false → s.tide.lastTracked = none → s.tide.listening = false →
      s.tide.lock = .free → Leads (.tideFrameRx port f i) s fun u => u.tide.lock = .acquire ∧ u.tide.steps = s.tide.steps + 1 ∧
        u.tide.stepPend ≠ none) ∧
    (f.isSoundReq = true → soundMalformed f = false → bitsOf (f.data.headD 0) 0 6 = s.line.addr.toNat → s.tide.fest = true →
      s.canDrive port = true → s.lifeUnder = .synced → Leads (.soundRequestRx port f i) s fun u =>
        (u.port port).answer.echo = some (instantOf ((i.ticks + s.nominalE port f / 5 : Nat) : Int)) ∧ u.tide = s.tide ∧
        (s.tide.sending = false → (u.port port).sofHold = some (s.soundEnd port f i))) ∧
    (f.iso = false → f.cls = 0 → f.topic = 1 → bitOf (f.data.headD 0) 6 = true → soundMalformed f = false →
      bitsOf (f.data.headD 0) 0 6 = s.line.addr.toNat → s.busIdle = false → Leads (.soundResultRx port f) s fun u =>
        u.line.dlyPend = some (bitOf (f.data.headD 0) 7, BitVec.ofNat 16 (f.be 1 2)) ∧ u.line.dlyMain = s.line.dlyMain) ∧
    (tideMalformed f = true → Leads (.tideFrameRx port f i) s fun u => u.tide = s.tide ∧ u.slu = s.slu)

/-! ### The line ports (chapters 1 to 4, 10) -/

/-- Port events. Enabling a disabled port makes it wait for ten recessive bits, and is refused with BTERR for a pair timing that breaks
R67 or R811; ten recessive bits make it idle; a passive port's suspension ends; a search dwells on the next allowed plan; a noise average
gives RANK, the allowed plans by rising noise, and BETTER or the low-margin source when the prediction at CEIL is below 0 dB; the oldest count change commits, and the confinement state follows the counts; recessive
sequences count through Quarantine; an item still queued at its deadline completes EXPIRED and leaves its queue. -/
def Obligations.LinePortEvents : Prop :=
  ∀ (s : State) (port : LinePort),
    let x := s.port port
    (∀ p : Party, served s p .sys →
      (s.portEn .plc = false → s.line.plc.closing = false → Leads (.linePortEnable p .plc) s fun u => u.portEn .plc = true ∧
        u.line.plc.use = .waitTen ∧ (s.stringPort = .plc → u.tide.heardAny = false)) ∧
      (s.portEn .pair = false → s.line.pair.closing = false → ¬ (bitOf s.line.pairCtl 3 = true ∧ bitOf s.line.pairCtl 4 = true) →
        ¬ (s.isoMode = true ∧ bitOf s.slu.ctl 2 = true ∧ bitOf s.slu.ctl 3 = false) →
        (s.pairTimingOk = true → Leads (.linePortEnable p .pair) s fun u => u.portEn .pair = true ∧ u.line.pair.use = .waitTen) ∧
        (s.pairTimingOk = false → Leads (.linePortEnable p .pair) s fun u => u.portEn .pair = false ∧ u.line.btErr = true))) ∧
    (s.coreRuns = true → x.use = .waitTen → s.portOn port = true →
      exec (.portIdleSync port) s = .next (s.updPort port fun x => { x with use := .idle })) ∧
    (s.coreRuns = true → x.use = .suspended →
      exec (.passiveSuspensionEnd port) s = .next (s.updPort port fun x => { x with use := .idle })) ∧
    (s.coreRuns = true → s.line.searching = true → Leads .searchDwellEnd s fun u =>
      let own := s.line.plan
      let may := fun q : BitVec 3 => s.planAllowed q.toNat = true ∧ q ≠ own
      u.line.searching = true ∧ u.line.plan = own ∧ u.line.plc.use = .waitTen ∧
      (s.line.dwell = own → (u.line.dwell = own ∧ ∀ q, ¬ may q) ∨ (may u.line.dwell ∧ ∀ q, may q → u.line.dwell ≤ q)) ∧
      (s.line.dwell ≠ own → (u.line.dwell = own ∧ ∀ q, may q → q ≤ s.line.dwell) ∨
        (may u.line.dwell ∧ s.line.dwell < u.line.dwell ∧ ∀ q, may q → s.line.dwell < q → u.line.dwell ≤ q))) ∧
    (∀ c12 c34 c56 : Int × Int, s.coreRuns = true → s.portEn .plc = true → Leads (.noiseAverage c12 c34 c56) s fun u =>
      let noise := noiseOfPlans c12 c34 c56
      let low := s.predAtCeil < 0
      let other := ∃ p, s.planAllowed p = true ∧ p ≠ s.line.plan.toNat ∧ 0 ≤ s.planEstimate noise p
      (u.line.better = true ↔ low ∧ other) ∧ u.line.plan = s.line.plan ∧
        (∃ ps : List Nat, ps.Nodup ∧ (∀ p, p ∈ ps ↔ s.planAllowed p = true) ∧
          ps.Pairwise (fun p q => noiseOf noise p ≤ noiseOf noise q) ∧ ∀ i : Fin 6, bitsOf u.line.rank (3 * i.val) 3 = ps.getD i.val 0) ∧
        (u.line.better ≠ s.line.better → bitOf u.irq.pend 28 = true ∨ u.irq.inService 28 = true) ∧
        (low → ¬ other → bitOf u.irq.pend 30 = true ∨ u.irq.inService 30 = true) ∧
        (u.line.better = s.line.better → ¬ low ∨ other → u.irq = s.irq)) ∧
    (∀ (now : Nat) (c : CountChange) (cs : List CountChange), s.coreRuns = true → x.commits = c :: cs → s.busOff port = false →
      let tec := (min 256 (max 0 ((x.tecCnt : Int) + c.dTec))).toNat
      let rec' := (min 511 (max 0 ((x.recCnt : Int) + c.dRec))).toNat
      let limit := if s.portIso port then 128 else 96
      Leads (.countCommit port now) s fun u => (u.port port).tecCnt = tec ∧ (u.port port).recCnt = rec' ∧
        (tec = 256 → (u.port port).conf = .quarantine ∧ (u.port port).qcnt = 0 ∧ (u.port port).commits = []) ∧
        (tec < 256 → (u.port port).commits = cs ∧
          (u.port port).conf = if limit ≤ tec ∨ limit ≤ rec' then .passive else .active)) ∧
    (s.coreRuns = true → x.conf = .quarantine →
      let len := if s.portIso port then 128 else 64
      let back := x.rejoin = true ∨ (bitOf s.line.ctl 0 = true ∧ x.guard = false)
      (x.qcnt + 1 < len → Leads (.quarantineSequence port) s fun u => (u.port port).qcnt = x.qcnt + 1 ∧ (u.port port).conf = .quarantine) ∧
      (len ≤ x.qcnt + 1 → back → Leads (.quarantineSequence port) s fun u => (u.port port).conf = .active ∧ (u.port port).tecCnt = 0 ∧
        (u.port port).recCnt = 0) ∧
      (len ≤ x.qcnt + 1 → ¬ back → Leads (.quarantineSequence port) s fun u => (u.port port).conf = .held ∧
        (u.port port).tecCnt = x.tecCnt)) ∧
    (∀ (n q : Fin 4) (g : Nat), s.coreRuns = true → (s.slotDeadline g).isSome = true →
      ((s.tq n q).items.any fun i => i.slot == g && i.st == .queued) = true →
      Leads (.deadlineExpiry (.queue n q g)) s fun u =>
        (u.tq n q).items = (s.tq n q).items.filter (fun i => i.slot != g) ∧ u.line.plc = s.line.plc ∧ u.line.pair = s.line.pair)

/-- A SOF opportunity of a port that can start: the released last-gasp frame goes first; the hardware's own frame, tide before a
SOUND result, and the pans' choice go out by their identifiers; the pan pays LEN + 8 bytes; with nothing to send, nothing is launched.
The end of an attempt takes the frame off the wire; an error costs one retry; lost arbitration costs none and pays the tokens back; an
own tide frame that is SENT refreshes the keep-alive; a class-0 frame has no ack error. -/
def Obligations.SofAndAttempts : Prop :=
  ∀ (s : State) (port : LinePort),
    let sofs := fun (P : State → Prop) => Leads (.sofOpportunity port) s P
    let sends := fun (u : State) (k : TxSource) => (u.port port).use = .sending ∧
      ∃ a : TxAttempt, (u.port port).tx = some a ∧ a.src = k ∧ a.sof = s.now
    let cand := if s.offers port then (s.noteHolds port).panChoice port else none
    let gasp := if s.offers port then s.gaspSlot port else none
    (s.canStart port = false ∨ s.coreRuns = false ∨ s.portEn port = false → exec (.sofOpportunity port) s = .next s.settle) ∧
    (s.canDrive port = false → sofs fun u => u.line.plc = s.line.plc ∧ u.line.pair = s.line.pair ∧ u.mem = s.mem ∧ u.tide = s.tide ∧
      ∀ n : Fin 4, u.pans[n].token = s.pans[n].token) ∧
    (s.canStart port = true → s.canDrive port = true → s.portEn port = true →
      (∀ g, gasp = some g → sofs fun u => sends u (.gasp g) ∧ u.line.rrLast = 0 ∧ ∀ n : Fin 4, u.pans[n].token = s.pans[n].token) ∧
      (∀ (k : Nat) (o : Own), gasp = none → s.ownDue port = some (k, o) → (∀ n c, cand = some (n, c) → k ≤ arbKey c.frame) →
        sofs fun u => (∀ n : Fin 4, u.pans[n].token = s.pans[n].token) ∧ u.line.rrLast = s.line.rrLast ∧
          (match o with
            | .tide => sends u .tide ∧ u.tide.due = false ∧ ∀ a, (u.port port).tx = some a → a.frame.len = 16 ∧ a.frame.stamp = true ∧
                a.frame.source = s.line.addr.toNat ∧ a.frame.be 0 4 = s.tide.sec.toNat ∧ a.frame.be 4 4 = s.tide.tick.toNat
            | .sound f => sends u .sound ∧ u.line.soundOut = none ∧ ∀ a, (u.port port).tx = some a → a.frame = f)) ∧
      (∀ (n : Fin 4) (c : Candidate), gasp = none → cand = some (n, c) → (∀ k o, s.ownDue port = some (k, o) → arbKey c.frame < k) →
        sofs fun u => sends u c.src ∧ u.line.rrLast = n ∧ u.pans[n].token.toNat = s.pans[n].token.toNat - (c.frame.len + 8)) ∧
      (gasp = none → cand = none → s.ownDue port = none → sofs fun u => (u.port port).tx = none ∧ u.mem = s.mem ∧ u.tide = s.tide)) ∧
    (∀ e : TxEnd, (s.port port).tx = none → exec (.transmitAttempt port e) s = .next s) ∧
    (∀ a : TxAttempt, (s.port port).tx = some a →
      (∀ e : TxEnd, (∀ heard, e ≠ .ackError heard) ∨ s.portIso port = true ∨ a.frame.cls ≠ 0 →
        Leads (.transmitAttempt port e) s fun u => (u.port port).tx = none) ∧
      (∀ heard, s.portIso port = false → a.frame.cls = 0 → exec (.transmitAttempt port (.ackError heard)) s = .next s) ∧
      (∀ ack act onsets after, a.src = .tide → (s.port port).closing = false → s.portIso port = false →
        Leads (.transmitAttempt port (.valid ack act onsets after)) s fun u =>
          u.tide.due = s.tide.due ∧ u.slu.fresh = bitOf (a.frame.data.getD 8 0) 7 ∧ u.slu.lastRel = some (a.frame.data.getD 12 0)) ∧
      (∀ (n q : Fin 4) (g : Nat), a.src = .queue n q g → s.alive a = true → s.wasFlushed n q g = false → s.deadlinePassed g = false →
        let waits := fun (u : State) (ack : Bool) => ∀ i ∈ (u.tq n q).items, i.slot = g → i.st = .queued ∧ i.last = some (a.sof, ack)
        (∀ ack sg, s.rcnt g < s.rlim g → Leads (.transmitAttempt port (.error ack sg)) s fun u => u.rcnt g = s.rcnt g + 1 ∧ waits u ack) ∧
        Leads (.transmitAttempt port .lost) s fun u => u.rcnt g = s.rcnt g ∧ waits u false ∧
          u.pans[n].token.toNat = min s.pans[n].burst (s.pans[n].token.toNat + (a.frame.len + 8))))

/-- A frame on a port that does not take it changes no line, memory or pan. A valid frame is delivered: the one filter that took it when
it was evaluated, for a FIFO with a free slot, puts it behind the frames there; with no taker no pan changes. A frame whose LEN or FLAGS
break Table 3-14 ends in that form error. An error gives the answer and the flag that the port's state allows, and the counts of Table
4-3, which wait for their commit on a native port; an ACK bit error is one of a port that answers. -/
def Obligations.Receptions : Prop :=
  ∀ (s : State) (port : LinePort) (f : Frame) (i : Instant) (m : Byte), f.norm = f →
    (s.takes port = false ∨ f.iso ≠ s.portIso port → ∀ e, Leads (.receiveFrame port f i m e) s fun u =>
      u.line = s.line ∧ u.mem = s.mem ∧ u.pans = s.pans ∧ u.tide = s.tide) ∧
    (∀ (x : RxErr) (after : Option Signalling), s.formError f = some x →
      exec (.receiveFrame port f i m (.valid after)) s = exec (.receiveFrame port f i m (.error x (after.getD ⟨0, 0, 0⟩))) s) ∧
    (s.takes port = true → f.iso = s.portIso port → s.formError f = none →
      (∀ after, s.takers port f i = [] → Leads (.receiveFrame port f i m (.valid after)) s fun u => u.mem = s.mem ∧
        ∀ n q : Fin 4, (u.rxf n q).frames = (s.rxf n q).frames) ∧
      (s.portIso port = false → s.busOff port = false → Leads (.receiveFrame port f i m (.valid none)) s fun u =>
        (u.port port).answer = ⟨s.answers port, false, s.rollChip port f i, none⟩ ∧
        (u.port port).commits = (s.port port).commits ++ [⟨0, -1⟩]) ∧
      (∀ (n : Fin 4) (k : Fin 128) (q : Fin 4) (after : Option Signalling), s.takers port f i = [(n, k)] →
        (s.flt[k].asOf (s.evalAt port f i)).dest = 1 → (s.flt[k].asOf (s.evalAt port f i)).tgt = q.val → (s.rxf n q).en = true →
        (∃ g, g ∈ s.ringSlots n (s.rxf n q).base (s.rxf n q).depth ∧ g ∉ (s.rxf n q).frames) →
        Leads (.receiveFrame port f i m (.valid after)) s fun u => ∃ g, (u.rxf n q).frames = (s.rxf n q).frames ++ [g] ∧
          g ∈ s.ringSlots n (s.rxf n q).base (s.rxf n q).depth ∧ g ∉ (s.rxf n q).frames ∧
          (f.iso = false → (u.slotFrame g).data = f.data ∧ (u.slotFrame g).len = f.len)) ∧
      (∀ (x : RxErr) (sg : Signalling), s.portIso port = false → s.busOff port = false → x ≠ .ackBit ∨ s.answers port = true →
        Leads (.receiveFrame port f i m (.error x sg)) s fun u =>
          let flags := if s.flags port then min sg.flags (sg.delim + 1) else 0
          (u.port port).answer = ⟨!x.noAck && s.answers port, s.flags port, if x = .eof then s.rollChip port f i else none, none⟩ ∧
          (u.port port).commits = (s.port port).commits ++ [⟨0, if x = .ackBit then 8 else 1⟩] ++ List.replicate flags ⟨0, 8⟩ ++
            List.replicate sg.runs ⟨0, 8⟩ ++ List.replicate sg.delim ⟨0, 1⟩ ∧
          u.mem = s.mem) ∧
      (∀ sg, s.answers port = false → Leads (.receiveFrame port f i m (.error .ackBit sg)) s fun u => u.line = s.line ∧ u.mem = s.mem ∧
        u.pans = s.pans))

/-! ### The shutdown path (chapter 6) -/

/-- Every request latches SAFE and its CAUSE bit, drives RUN low and clears both release steps; RELLAT takes the last release count. A
detected burst latches on its port alone and drops the count changes that wait; SAFE_IN latches and, with PINTX, is sent as a burst:
in LISTEN after the wake, in SLEEP never; a FIRE write and the sluice instruction latch and send bursts on every port that carries them; a FIRE write with DETPLC
out of range is refused whole, and one without its key does nothing to the shutdown path. -/
def Obligations.SluiceRequestsLatchSafe : Prop :=
  ∀ s : State,
    let latched := fun (u : State) (k : Nat) => u.slu.safe = true ∧ bitOf u.slu.cause k = true ∧ u.slu.run = false ∧
      u.slu.tideOk = false ∧ u.slu.localOk = false ∧ (∀ j, j ≠ k → bitOf u.slu.cause j = bitOf s.slu.cause j) ∧
      u.slu.relVal = s.slu.lastRel.isSome ∧ ∀ r, s.slu.lastRel = some r → u.slu.relLat = r
    let bursts := fun (u : State) (pair : Bool) => s.slu.burst = 0 → bitOf u.slu.burst 0 = s.plcSluice ∧
      bitOf u.slu.burst 1 = (s.portEn .pair && pair) ∧ (s.plcSluice = false → (s.portEn .pair && pair) = false → u.slu.txNone = true)
    (∀ port : LinePort, s.detects port = true → Leads (.sluiceDetected port) s fun u =>
      latched u (match port with | .plc => 2 | .pair => 3) ∧ bitOf u.slu.det (match port with | .plc => 0 | .pair => 1) = true ∧
      (u.port port).commits = [] ∧ (u.port port).tx = none ∧ u.slu.burst = s.slu.burst) ∧
    (∀ port : LinePort, s.detects port = false → exec (.sluiceDetected port) s = .next s) ∧
    (s.pow.state ≠ .reset → (s.latching && bitOf s.irq.latch 1) = false → Leads .safeInAssert s fun u => latched u 0 ∧
      u.slu.safeIn = true ∧ (bitOf s.slu.ctl 1 = true → s.coreRuns = true → bursts u (bitOf s.slu.ctl 2)) ∧
      (bitOf s.slu.ctl 1 = false ∨ s.coreRuns = false → u.slu.burst = s.slu.burst) ∧
      (bitOf s.slu.ctl 1 = true → s.pow.state = .listen → u.slu.burstPend = true)) ∧
    (s.pow.state = .reset → exec .safeInAssert s = .next { s with slu := { s.slu with safeIn := true } }) ∧
    (∀ t : Fin 8, canIssue s t →
      (s.hasCap (s.thrPan t) .sluice = true → Leads (.sluice t) s fun u => latched u 1 ∧ bursts u (bitOf s.slu.ctl 2)) ∧
      (s.hasCap (s.thrPan t) .sluice = false → Leads (.sluice t) s fun u => u.slu = s.slu ∧ u.eng.thr[t].state = .halted)) ∧
    (∀ (p : Party) (v : Word), served s p .sys → bitOf v 0 = true → s.hasCap 0 .sluice = true →
      (s.keyArmed 0 p = true → 6 ≤ bitsOf v 8 5 → bitsOf v 8 5 ≤ 16 →
        (bitOf v 2 = true → s.pairAtMega = true ∧ (s.isoMode = false ∨ bitOf v 3 = true)) →
        Leads (.sluFire p .sys v) s fun u => latched u 1 ∧ u.slu.ctl = merge 0x1F0E s.slu.ctl v ∧ bursts u (bitOf v 2) ∧
          u.keyArmed 0 p = false) ∧
      (s.keyArmed 0 p = true → bitsOf v 8 5 < 6 ∨ 16 < bitsOf v 8 5 → Leads (.sluFire p .sys v) s fun u =>
        u.slu = { s.slu with cfgErr := true }) ∧
      (s.keyArmed 0 p = false → Leads (.sluFire p .sys v) s fun u => u.slu = s.slu)) ∧
    (∀ (p : Party) (n : Fin 4) (v : Word), served s p (.win n) → s.winClosed n = false → s.hasCap n .sluice = true →
      s.keyArmed (Via.win n).scope p = true → bitOf v 0 = true → Leads (.sluFire p (.win n) v) s fun u =>
        latched u 1 ∧ bursts u (bitOf s.slu.ctl 2) ∧ u.keyArmed (Via.win n).scope p = false)

/-- The way back: the local step by its keyed write; SAFE is released when each step that is not waived stands and neither SAFE_IN nor
a detected burst holds it, the CAUSE bits and both steps with it; the end of what blocked releases a SAFE that waited. The end of the own
burst is the end of that bit; a lapsed keep-alive drives RUN low. RUN rises again in RUN with SAFE released, the keep-alive fresh and
no parity fault that PARSAFE holds. -/
def Obligations.SluiceReleaseAndKeepAlive : Prop :=
  ∀ s : State,
    let released := fun (u : State) => u.slu.safe = false ∧ u.slu.cause = 0 ∧ u.slu.tideOk = false ∧ u.slu.localOk = false ∧
      (s.pow.state = .run → s.slu.fresh = true → (s.sys.cfgPar && bitOf s.sys.ctl 0) = false → u.slu.run = true)
    let permits := fun (c : Instr) => s.slu.safe = true → s.slu.localOk = false →
      (s.slu.tideOk = true ∨ s.slu.waive = 1 → s.slu.safeIn = false → s.slu.det = 0 → Leads c s released) ∧
      (s.slu.tideOk = false → s.slu.waive ≠ 1 → Leads c s fun u => u.slu.safe = true ∧ u.slu.localOk = true ∧ u.slu.cause = s.slu.cause) ∧
      (s.slu.safeIn = true ∨ s.slu.det ≠ 0 → Leads c s fun u => u.slu.safe = true ∧ u.slu.localOk = true ∧ u.slu.cause = s.slu.cause)
    (∀ (p : Party) (v : Word), served s p .sys → s.keyArmed 0 p = true → s.hasCap 0 .sluice = true → bitOf v 0 = true →
      permits (.sluPermitGo p .sys v)) ∧
    (∀ (p : Party) (n : Fin 4) (v : Word), served s p (.win n) → s.winClosed n = false → s.keyArmed (Via.win n).scope p = true →
      s.hasCap n .sluice = true → bitOf v 0 = false → bitOf v 1 = true → permits (.sluPermitGo p (.win n) v)) ∧
    (∀ safeIn plc pair : Bool, s.pow.state ≠ .reset → s.slu.safe = true → s.stepsMet = true →
      (s.slu.safeIn = true → safeIn = true) → (bitOf s.slu.det 0 = true → plc = true) → (bitOf s.slu.det 1 = true → pair = true) →
      Leads (.releaseUnblocked safeIn plc pair) s released) ∧
    (∀ safeIn plc pair : Bool, s.stepsMet = false → Leads (.releaseUnblocked safeIn plc pair) s fun u => u.slu.safe = s.slu.safe ∧
      u.slu.safeIn = (s.slu.safeIn && !safeIn) ∧ bitOf u.slu.det 0 = (bitOf s.slu.det 0 && !plc) ∧
      bitOf u.slu.det 1 = (bitOf s.slu.det 1 && !pair)) ∧
    (∀ port : LinePort, Leads (.sluiceBurstEnd port) s fun u => u = { s with slu := { s.slu with burst := u.slu.burst } } ∧
      (∀ i, i < 2 → bitOf u.slu.burst i = (bitOf s.slu.burst i && i != (match port with | .plc => 0 | .pair => 1)))) ∧
    (s.pow.state ≠ .reset → Leads .keepaliveExpiry s fun u => u.slu.fresh = false ∧ u.slu.run = false ∧ u.slu.safe = s.slu.safe) ∧
    (s.pow.state = .reset → exec .keepaliveExpiry s = .next s)

/-! ### Resets, supply, pins, clocks, power states, OTP (chapters 12, 19, 23, 25) -/

/-- Every reset leaves the state after reset with its one RSTCAUSE bit, and keeps what its cause keeps: power-on and supply resets keep
nothing of the shutdown path, the others keep SAFE with its release state and the bus-off guards. RESET_N under 200 ns is no reset, from
1 us on it is one. The test instructions hold the controller in reset. HPI_READY after a reset starts RUN with memory zero and what the
OTP words give. -/
def Obligations.ResetsAndStartUp : Prop :=
  ∀ s : State,
    let reset := fun (u : State) (k : Nat) (keep : Bool) => u.pow.state = .reset ∧ u.pow.ready = false ∧
      u.sys.rstCause = BitVec.ofNat 6 (2 ^ k) ||| (if k ≠ 0 ∧ s.pow.tapHold = true then 2 else 0) ∧ u.sys.panLock = false ∧ u.sys.dbgLock = false ∧ u.mem = [] ∧
      u.alloc = State.reset.alloc ∧ u.eng = State.reset.eng ∧ u.irq = State.reset.irq ∧ u.tide = State.reset.tide ∧
      u.pans = State.reset.pans ∧ u.flt = State.reset.flt ∧ u.sched = State.reset.sched ∧ u.cal = State.reset.cal ∧
      u.slu.safe = (keep && s.slu.safe) ∧ u.slu.cause = (if keep then s.slu.cause else 0) ∧ u.slu.run = false ∧
      u.slu.fresh = false ∧ u.line.plc.guard = (keep && s.line.plc.guard) ∧ u.line.pair.guard = (keep && s.line.pair.guard) ∧
      u.line.plc.tecCnt = 0 ∧ u.portsOff = true ∧ u.otp.words = s.otp.words ∧ u.pending = s.pending
    Leads .powerOnReset s (fun u => reset u 0 false) ∧
    (∀ ns : Nat, (1000 ≤ ns → Leads (.resetNAssert ns) s fun u => reset u 1 true) ∧
      (ns < 200 → exec (.resetNAssert ns) s = .next s) ∧
      (200 ≤ ns → ns < 1000 → Leads (.resetNAssert ns) s fun u => reset u 1 true ∨ u = { s with free := s.free + 1 })) ∧
    Leads .supplyReset s (fun u => reset u 2 false ∧ u.pow.below = true) ∧
    (s.watching = true → Leads .watchdogExpiry s fun u => reset u 5 true) ∧
    (s.watching = false → exec .watchdogExpiry s = .next s) ∧
    (s.pow.vioOk = true → Leads (.tapTestInstruction true) s fun u => reset u 1 true ∧ u.pow.tapHold = true) ∧
    (s.pow.vioOk = true → ∀ c ∈ [Instr.tapTestInstruction false, .tapReset],
      exec c s = .next { s with pow := { s.pow with tapHold := false } }) ∧
    (s.pow.vioOk = false → ∀ c ∈ [Instr.tapTestInstruction true, .tapTestInstruction false, .tapReset], exec c s = .next s) ∧
    (∀ bad : BitVec 16, s.pow.state = .reset → s.pow.tapHold = false → Leads (.hpiReady bad) s fun u => u.pow.state = .run ∧
      u.pow.ready = true ∧ u.pow.pllLock = true ∧ u.mem = [] ∧ u.irq.deferred = [] ∧
      (bad.getLsbD 0 = false → u.line.addr.toNat = s.otp.words[0].toNat % 64 ∧ u.slu.waive.toNat = s.otp.words[0].toNat / 64 % 4 ∧
        u.otp.authReq = s.otp.words[0].getLsbD 8 ∧ u.otp.dbgOff = s.otp.words[0].getLsbD 9 ∧
        u.otp.romOnly = s.otp.words[0].getLsbD 10) ∧
      (bad.getLsbD 0 = true → u.line.addr = 0 ∧ u.slu.waive = 0 ∧ u.otp.authReq = true ∧ u.otp.dbgOff = true ∧ u.otp.romOnly = true) ∧
      (bad ≠ 0 → u.sys.otpErr = true) ∧ (s.slu.safeIn = true → u.slu.safe = true ∧ bitOf u.slu.cause 0 = true) ∧
      (s.slu.safe = true → s.slu.localOk = false → s.otp.words[0].toNat / 64 % 4 ≠ 2 → u.slu.safe = true)) ∧
    (∀ bad : BitVec 16, s.pow.state ≠ .reset ∨ s.pow.tapHold = true → exec (.hpiReady bad) s = .next s)

/-- Supply, pins and clocks. A warning sets BELOW, raises source 2 and with LASTGASP releases the frame of TQ3 or notes LGNONE; its end
raises source 3; in LISTEN and SLEEP both are recorded, and in reset or without the PLL their arrivals wait. NODRV follows VDRV, raises
source 28 at a change, and ends the frame and the burst on the power line; VIO closes
the host ports. A selected WAKE edge raises source 15, and a rest ends its request; latches hold the edges while the core clock stands;
the loss of the PLL cuts the frames on the wire and stops the core, and its lock starts it again with TNOW made up. -/
def Obligations.SupplyPinsAndClocks : Prop :=
  ∀ s : State,
    let raised := fun (u : State) (k : Fin 128) => bitOf u.irq.pend k.val = true ∨ u.irq.inService k = true
    let rests := s.pow.state = .listen ∨ s.pow.state = .sleep
    (s.pow.below = false → s.coreRuns = true → Leads .supplyWarning s fun u => u.pow.below = true ∧ raised u 2 ∧
      (bitOf s.pow.supCtl 0 = true →
        (∀ g, (s.tq 0 3).lgasp = true → (s.tq 0 3).en = true → s.queueHead 0 3 = some g →
          u.line.gasp = if s.line.gasp.contains g then s.line.gasp else s.line.gasp ++ [g]) ∧
        ((s.tq 0 3).lgasp = false ∨ (s.tq 0 3).en = false ∨ s.queueHead 0 3 = none → u.pow.lgNone = true ∧ u.line = s.line))) ∧
    (s.pow.below = true → exec .supplyWarning s = .next s) ∧
    (s.coreRuns = false → ¬ rests → (s.pow.below = false → Leads .supplyWarning s fun u => u.pow.below = true ∧
        u.irq.deferred = s.irq.deferred ++ [2] ∧ (s.pow.state = .reset → u.line = s.line)) ∧
      (s.pow.below = true → Leads .supplyWarningEnd s fun u => u.pow.below = false ∧
        u.irq.deferred = if s.pow.state = .reset then s.irq.deferred else s.irq.deferred ++ [3])) ∧
    (s.pow.below = true → s.coreRuns = true → Leads .supplyWarningEnd s fun u => u.pow.below = false ∧ raised u 3 ∧ u.line = s.line) ∧
    (s.pow.below = false → exec .supplyWarningEnd s = .next s) ∧
    (rests → (s.pow.below = false → Leads .supplyWarning s fun u => u.pow.below = true ∧ u.pow.latWarn = some true ∧ u.irq = s.irq) ∧
      (s.pow.below = true → Leads .supplyWarningEnd s fun u => u.pow.below = false ∧ u.pow.latWarn = some false ∧ u.irq = s.irq)) ∧
    Leads .vdrvLoss s (fun u => u.line.nodrv = true ∧ u.pow.vdrvOk = false ∧ u.line.plc.tx = none ∧ bitOf u.slu.burst 0 = false ∧
      u.line.pair.tx = s.line.pair.tx ∧ (s.line.nodrv = false → s.coreRuns = true → raised u 28)) ∧
    Leads .vdrvRestored s (fun u => u.line = { s.line with nodrv := false } ∧ u.pow = { s.pow with vdrvOk := true } ∧
      (s.line.nodrv = true → s.coreRuns = true → raised u 28)) ∧
    exec .vioLoss s = .next { s with pow := { s.pow with vioOk := false } } ∧
    exec .vioRestored s = .next { s with pow := { s.pow with vioOk := true } } ∧
    (∀ rising : Bool, let selected := s.pow.slpWake.getLsbD (if rising then 0 else 1)
      (s.coreRuns = true → selected = true → Leads (.wakePinEdge rising) s fun u => raised u 15 ∧ u.pow.req = none) ∧
      (s.latching = true → selected = true → Leads (.wakePinEdge rising) s fun u => bitOf u.irq.latch 0 = true ∧ u.pow = s.pow) ∧
      (s.pow.state = .reset ∨ selected = false → exec (.wakePinEdge rising) s = .next s)) ∧
    (∀ (n : Fin 8) (rising : Bool),
      (s.coreRuns = true → Leads (.tpPinEdge n rising) s fun u => u.tim.tim[n].pin = rising ∧
        (s.tim.tim[n].tpEdge.testBit (if rising then 0 else 1) = true → s.srcOwner (40 + n.val) = s.timOwner n.val →
          raised u ⟨40 + n.val, by omega⟩)) ∧
      (s.latching = true → Leads (.tpPinEdge n rising) s fun u => u.tim.tim[n].pin = rising ∧
        (s.tim.tim[n].tpEdge.testBit (if rising then 0 else 1) = true → bitOf u.irq.latch (2 + n.val) = true)) ∧
      (s.pow.state = .reset → Leads (.tpPinEdge n rising) s fun u => u.tim.tim[n].pin = rising ∧ u.irq = s.irq)) ∧
    (s.coreRuns = true → Leads .pllLockLoss s fun u => u.coreRuns = false ∧ u.pow.state = .run ∧ u.sys.pllErr = true ∧
      u.line.plc.tx = none ∧ u.line.pair.tx = none ∧ u.eng.tnow = s.eng.tnow) ∧
    (s.coreRuns = false → exec .pllLockLoss s = .next s) ∧
    (∀ iv : Interval, s.pow.state = .run → s.pow.pllLock = false → Leads (.pllRelock iv) s fun u => u.coreRuns = true ∧ raised u 1 ∧
      u.eng.tnow = s.eng.tnow + BitVec.ofNat 64 iv.cycles) ∧
    (∀ on : Bool, Leads (.lfCrystalChange on) s fun u => u.pow.lfxOk = on ∧
      u.pow.lfAct = (on && bitOf s.pow.clkCtl 0 && s.pow.state != .reset) ∧
      (on = false → bitOf s.pow.clkCtl 0 = true → u.sys.lfErr = true)) ∧
    (∀ ppm : Int, exec (.rcCalibration ppm) s =
      .next (if bitOf s.pow.clkCtl 1 && s.coreRuns then { s with pow := { s.pow with rcCorr := ppm } } else s))

/-- A LISTEN or SLEEP request stands until the conditions hold, then the state is entered: the PLL stays on in LISTEN alone and RUN falls
in SLEEP; a LISTEN request that the lead of an armed instant would end at once is dropped; a wake answers RUN with its cause, the state it left and TNOW made up. The scrubber's first mismatch sets CFGPAR with its place;
with PARSAFE it latches SAFE, with PARRST it resets; a pass that finds nothing changes nothing. OTPRD shows the words but KEY; OTPWR
programs words that are still zero; neither does anything without VIO. -/
def Obligations.PowerStatesScrubberOtp : Prop :=
  ∀ s : State,
    (∀ p : Party, served s p .sys → Leads (.reqListen p) s (fun u => u.pow.req = some .listen ∧ u.pow.state = s.pow.state) ∧
      Leads (.reqSleep p) s (fun u => u.pow.req = some .sleep ∧ u.pow.state = s.pow.state)) ∧
    (∀ st, s.pow.req = some st → s.mayRest = true → st = .listen → s.leading = true →
      exec .powerStateEntry s = .next (s.endRequest true)) ∧
    (∀ st, s.pow.req = some st → s.mayRest = true → st ≠ .listen ∨ s.leading = false → Leads .powerStateEntry s fun u => u.pow.state = st ∧ u.pow.req = none ∧
      u.pow.pllLock = (st == .listen) ∧ u.irq.latch = 0 ∧ u.eng.tnow = s.eng.tnow ∧ u.mem = s.mem ∧ (st = .sleep → u.slu.run = false)) ∧
    (s.pow.req = none ∨ s.mayRest = false → exec .powerStateEntry s = .next s) ∧
    (∀ (cause : BitVec 7) (iv : Interval), s.pow.state = .listen ∨ s.pow.state = .sleep → Leads (.wakeUp cause iv) s fun u =>
      u.pow.state = .run ∧ u.pow.pllLock = true ∧ u.pow.wcause = cause ∧ u.pow.last = (if s.pow.state = .sleep then 2 else 1) ∧
      u.eng.tnow = s.eng.tnow + BitVec.ofNat 64 iv.cycles ∧ u.irq.latch = 0) ∧
    (∀ (cause : BitVec 7) (iv : Interval), s.pow.state = .run ∨ s.pow.state = .reset → exec (.wakeUp cause iv) s = .next s) ∧
    (s.coreRuns = true → s.sys.parBad = [] → s.sys.shBad = [] → s.sys.cfgPar = false → exec (.scrubberPass [] ⟨[], []⟩) s = .next s) ∧
    (∀ a : Nat, s.coreRuns = true → s.sys.parBad = [] → s.sys.shBad = [] → s.sys.cfgPar = false → s.cfgAddr a = true →
      bitOf s.sys.ctl 1 = false → Leads (.scrubberPass [a] ⟨[], []⟩) s fun u => u.sys.cfgPar = true ∧ u.sys.ploc.toNat = a ∧ u.sys.pshad = false ∧
        (bitOf u.irq.pend 4 = true ∨ u.irq.inService 4 = true) ∧
        (bitOf s.sys.ctl 0 = true → u.slu.safe = true ∧ bitOf u.slu.cause 4 = true ∧ u.slu.run = false) ∧
        (bitOf s.sys.ctl 0 = false → u.slu.safe = s.slu.safe)) ∧
    (∀ a : Nat, s.coreRuns = true → s.sys.parBad = [] → s.sys.shBad = [] → s.sys.cfgPar = false → s.cfgAddr a = true →
      bitOf s.sys.ctl 1 = true → Leads (.scrubberPass [a] ⟨[], []⟩) s fun u => u.pow.state = .reset ∧
        u.sys.rstCause = 16 ||| (if s.pow.tapHold = true then 2 else 0) ∧ u.sys.ploc.toNat = a ∧
        u.slu.safe = (s.slu.safe || bitOf s.sys.ctl 0)) ∧
    (∀ ws : Tab Word 16, s.pow.vioOk = false → exec .otprd s = .next s ∧ exec (.otpwr ws) s = .next s) ∧
    (s.pow.vioOk = true → Leads .otprd s fun u => (∀ k : Fin 16, u.otp.shift[k] = if 6 ≤ k.val ∧ k.val ≤ 9 then 0 else s.otp.words[k]) ∧
      u.otp.words = s.otp.words ∧ u.sys = s.sys) ∧
    (∀ ws : Tab Word 16, s.pow.vioOk = true → Leads (.otpwr ws) s fun u => u.otp.shift = ws ∧ u.otp.key = s.otp.key ∧
      ∀ k : Fin 16, u.otp.words[k] = if s.otp.words[k] = 0 then ws[k] else s.otp.words[k])
end

