-- ==== Sys2Proof/Laws/State.lean ====
section
/-! SUPPORT. One lemma for each part of the state under each update of a part: no proof unfolds a record update. -/

namespace Sys2Proof.Machine

/-! ### Tables -/

/-- An entry after a change of entry `i`, by its position. -/
theorem tabUpd_getElem {α : Type} {n : Nat} (t : Tab α n) (i : Fin n) (f : α → α) (j : Nat) (hj : j < n) :
    (tabUpd t i f)[j] = if i.val = j then f t[i] else t[j] := by
  simp only [tabUpd, Vector.getElem_set]

/-- An entry after a change of entry `i`. -/
theorem tabUpd_get {α : Type} {n : Nat} (t : Tab α n) (i j : Fin n) (f : α → α) :
    (tabUpd t i f)[j] = if i = j then f t[j] else t[j] := by
  show (tabUpd t i f)[j.val] = _
  rw [tabUpd_getElem]
  by_cases h : i = j
  · subst h; simp
  · have h' : i.val ≠ j.val := fun e => h (Fin.ext e)
    simp [h, h']

/-- The changed entry. -/
@[simp] theorem tabUpd_get_self {α : Type} {n : Nat} (t : Tab α n) (i : Fin n) (f : α → α) :
    (tabUpd t i f)[i.val] = f t[i] := by
  simp [tabUpd_getElem]

/-- Another entry. -/
theorem tabUpd_get_of_ne {α : Type} {n : Nat} (t : Tab α n) (i j : Fin n) (f : α → α) (h : i ≠ j) : (tabUpd t i f)[j] = t[j] := by
  rw [tabUpd_get, if_neg h]

@[simp] theorem tabMap_get {α : Type} {n : Nat} (t : Tab α n) (f : α → α) (j : Fin n) : (tabMap t f)[j] = f t[j] := by
  simp [tabMap]

@[simp] theorem tabMapIdx_get {α : Type} {n : Nat} (t : Tab α n) (f : Nat → α → α) (j : Fin n) :
    (tabMapIdx t f)[j] = f j.val t[j] := by
  simp [tabMapIdx]

/-! ### Outcomes -/

@[simp] theorem oneWord_code (x : Nat × Word × State) : (oneWord x).1 = x.1 := rfl
@[simp] theorem oneWord_words (x : Nat × Word × State) : (oneWord x).2.1 = [x.2.1] := rfl
@[simp] theorem oneWord_state (x : Nat × Word × State) : (oneWord x).2.2 = x.2.2 := rfl

/-! ### updSys -/

@[simp] theorem State.updSys_sys (s : State) (f : Sys → Sys) : (s.updSys f).sys = f s.sys := rfl
@[simp] theorem State.updSys_pow (s : State) (f : Sys → Sys) : (s.updSys f).pow = s.pow := rfl
@[simp] theorem State.updSys_slu (s : State) (f : Sys → Sys) : (s.updSys f).slu = s.slu := rfl
@[simp] theorem State.updSys_irq (s : State) (f : Sys → Sys) : (s.updSys f).irq = s.irq := rfl
@[simp] theorem State.updSys_line (s : State) (f : Sys → Sys) : (s.updSys f).line = s.line := rfl
@[simp] theorem State.updSys_tide (s : State) (f : Sys → Sys) : (s.updSys f).tide = s.tide := rfl
@[simp] theorem State.updSys_cal (s : State) (f : Sys → Sys) : (s.updSys f).cal = s.cal := rfl
@[simp] theorem State.updSys_sched (s : State) (f : Sys → Sys) : (s.updSys f).sched = s.sched := rfl
@[simp] theorem State.updSys_tim (s : State) (f : Sys → Sys) : (s.updSys f).tim = s.tim := rfl
@[simp] theorem State.updSys_eng (s : State) (f : Sys → Sys) : (s.updSys f).eng = s.eng := rfl
@[simp] theorem State.updSys_pans (s : State) (f : Sys → Sys) : (s.updSys f).pans = s.pans := rfl
@[simp] theorem State.updSys_flt (s : State) (f : Sys → Sys) : (s.updSys f).flt = s.flt := rfl
@[simp] theorem State.updSys_alloc (s : State) (f : Sys → Sys) : (s.updSys f).alloc = s.alloc := rfl
@[simp] theorem State.updSys_window (s : State) (f : Sys → Sys) : (s.updSys f).window = s.window := rfl
@[simp] theorem State.updSys_windowFrom (s : State) (f : Sys → Sys) : (s.updSys f).windowFrom = s.windowFrom := rfl
@[simp] theorem State.updSys_host (s : State) (f : Sys → Sys) : (s.updSys f).host = s.host := rfl
@[simp] theorem State.updSys_otp (s : State) (f : Sys → Sys) : (s.updSys f).otp = s.otp := rfl
@[simp] theorem State.updSys_mem (s : State) (f : Sys → Sys) : (s.updSys f).mem = s.mem := rfl
@[simp] theorem State.updSys_out (s : State) (f : Sys → Sys) : (s.updSys f).out = s.out := rfl
@[simp] theorem State.updSys_free (s : State) (f : Sys → Sys) : (s.updSys f).free = s.free := rfl
@[simp] theorem State.updSys_pending (s : State) (f : Sys → Sys) : (s.updSys f).pending = s.pending := rfl

/-! ### updPow -/

@[simp] theorem State.updPow_sys (s : State) (f : Power → Power) : (s.updPow f).sys = s.sys := rfl
@[simp] theorem State.updPow_pow (s : State) (f : Power → Power) : (s.updPow f).pow = f s.pow := rfl
@[simp] theorem State.updPow_slu (s : State) (f : Power → Power) : (s.updPow f).slu = s.slu := rfl
@[simp] theorem State.updPow_irq (s : State) (f : Power → Power) : (s.updPow f).irq = s.irq := rfl
@[simp] theorem State.updPow_line (s : State) (f : Power → Power) : (s.updPow f).line = s.line := rfl
@[simp] theorem State.updPow_tide (s : State) (f : Power → Power) : (s.updPow f).tide = s.tide := rfl
@[simp] theorem State.updPow_cal (s : State) (f : Power → Power) : (s.updPow f).cal = s.cal := rfl
@[simp] theorem State.updPow_sched (s : State) (f : Power → Power) : (s.updPow f).sched = s.sched := rfl
@[simp] theorem State.updPow_tim (s : State) (f : Power → Power) : (s.updPow f).tim = s.tim := rfl
@[simp] theorem State.updPow_eng (s : State) (f : Power → Power) : (s.updPow f).eng = s.eng := rfl
@[simp] theorem State.updPow_pans (s : State) (f : Power → Power) : (s.updPow f).pans = s.pans := rfl
@[simp] theorem State.updPow_flt (s : State) (f : Power → Power) : (s.updPow f).flt = s.flt := rfl
@[simp] theorem State.updPow_alloc (s : State) (f : Power → Power) : (s.updPow f).alloc = s.alloc := rfl
@[simp] theorem State.updPow_window (s : State) (f : Power → Power) : (s.updPow f).window = s.window := rfl
@[simp] theorem State.updPow_windowFrom (s : State) (f : Power → Power) : (s.updPow f).windowFrom = s.windowFrom := rfl
@[simp] theorem State.updPow_host (s : State) (f : Power → Power) : (s.updPow f).host = s.host := rfl
@[simp] theorem State.updPow_otp (s : State) (f : Power → Power) : (s.updPow f).otp = s.otp := rfl
@[simp] theorem State.updPow_mem (s : State) (f : Power → Power) : (s.updPow f).mem = s.mem := rfl
@[simp] theorem State.updPow_out (s : State) (f : Power → Power) : (s.updPow f).out = s.out := rfl
@[simp] theorem State.updPow_free (s : State) (f : Power → Power) : (s.updPow f).free = s.free := rfl
@[simp] theorem State.updPow_pending (s : State) (f : Power → Power) : (s.updPow f).pending = s.pending := rfl

/-! ### updSlu -/

@[simp] theorem State.updSlu_sys (s : State) (f : Sluice → Sluice) : (s.updSlu f).sys = s.sys := rfl
@[simp] theorem State.updSlu_pow (s : State) (f : Sluice → Sluice) : (s.updSlu f).pow = s.pow := rfl
@[simp] theorem State.updSlu_slu (s : State) (f : Sluice → Sluice) : (s.updSlu f).slu = f s.slu := rfl
@[simp] theorem State.updSlu_irq (s : State) (f : Sluice → Sluice) : (s.updSlu f).irq = s.irq := rfl
@[simp] theorem State.updSlu_line (s : State) (f : Sluice → Sluice) : (s.updSlu f).line = s.line := rfl
@[simp] theorem State.updSlu_tide (s : State) (f : Sluice → Sluice) : (s.updSlu f).tide = s.tide := rfl
@[simp] theorem State.updSlu_cal (s : State) (f : Sluice → Sluice) : (s.updSlu f).cal = s.cal := rfl
@[simp] theorem State.updSlu_sched (s : State) (f : Sluice → Sluice) : (s.updSlu f).sched = s.sched := rfl
@[simp] theorem State.updSlu_tim (s : State) (f : Sluice → Sluice) : (s.updSlu f).tim = s.tim := rfl
@[simp] theorem State.updSlu_eng (s : State) (f : Sluice → Sluice) : (s.updSlu f).eng = s.eng := rfl
@[simp] theorem State.updSlu_pans (s : State) (f : Sluice → Sluice) : (s.updSlu f).pans = s.pans := rfl
@[simp] theorem State.updSlu_flt (s : State) (f : Sluice → Sluice) : (s.updSlu f).flt = s.flt := rfl
@[simp] theorem State.updSlu_alloc (s : State) (f : Sluice → Sluice) : (s.updSlu f).alloc = s.alloc := rfl
@[simp] theorem State.updSlu_window (s : State) (f : Sluice → Sluice) : (s.updSlu f).window = s.window := rfl
@[simp] theorem State.updSlu_windowFrom (s : State) (f : Sluice → Sluice) : (s.updSlu f).windowFrom = s.windowFrom := rfl
@[simp] theorem State.updSlu_host (s : State) (f : Sluice → Sluice) : (s.updSlu f).host = s.host := rfl
@[simp] theorem State.updSlu_otp (s : State) (f : Sluice → Sluice) : (s.updSlu f).otp = s.otp := rfl
@[simp] theorem State.updSlu_mem (s : State) (f : Sluice → Sluice) : (s.updSlu f).mem = s.mem := rfl
@[simp] theorem State.updSlu_out (s : State) (f : Sluice → Sluice) : (s.updSlu f).out = s.out := rfl
@[simp] theorem State.updSlu_free (s : State) (f : Sluice → Sluice) : (s.updSlu f).free = s.free := rfl
@[simp] theorem State.updSlu_pending (s : State) (f : Sluice → Sluice) : (s.updSlu f).pending = s.pending := rfl

/-! ### updIrq -/

@[simp] theorem State.updIrq_sys (s : State) (f : Irq → Irq) : (s.updIrq f).sys = s.sys := rfl
@[simp] theorem State.updIrq_pow (s : State) (f : Irq → Irq) : (s.updIrq f).pow = s.pow := rfl
@[simp] theorem State.updIrq_slu (s : State) (f : Irq → Irq) : (s.updIrq f).slu = s.slu := rfl
@[simp] theorem State.updIrq_irq (s : State) (f : Irq → Irq) : (s.updIrq f).irq = f s.irq := rfl
@[simp] theorem State.updIrq_line (s : State) (f : Irq → Irq) : (s.updIrq f).line = s.line := rfl
@[simp] theorem State.updIrq_tide (s : State) (f : Irq → Irq) : (s.updIrq f).tide = s.tide := rfl
@[simp] theorem State.updIrq_cal (s : State) (f : Irq → Irq) : (s.updIrq f).cal = s.cal := rfl
@[simp] theorem State.updIrq_sched (s : State) (f : Irq → Irq) : (s.updIrq f).sched = s.sched := rfl
@[simp] theorem State.updIrq_tim (s : State) (f : Irq → Irq) : (s.updIrq f).tim = s.tim := rfl
@[simp] theorem State.updIrq_eng (s : State) (f : Irq → Irq) : (s.updIrq f).eng = s.eng := rfl
@[simp] theorem State.updIrq_pans (s : State) (f : Irq → Irq) : (s.updIrq f).pans = s.pans := rfl
@[simp] theorem State.updIrq_flt (s : State) (f : Irq → Irq) : (s.updIrq f).flt = s.flt := rfl
@[simp] theorem State.updIrq_alloc (s : State) (f : Irq → Irq) : (s.updIrq f).alloc = s.alloc := rfl
@[simp] theorem State.updIrq_window (s : State) (f : Irq → Irq) : (s.updIrq f).window = s.window := rfl
@[simp] theorem State.updIrq_windowFrom (s : State) (f : Irq → Irq) : (s.updIrq f).windowFrom = s.windowFrom := rfl
@[simp] theorem State.updIrq_host (s : State) (f : Irq → Irq) : (s.updIrq f).host = s.host := rfl
@[simp] theorem State.updIrq_otp (s : State) (f : Irq → Irq) : (s.updIrq f).otp = s.otp := rfl
@[simp] theorem State.updIrq_mem (s : State) (f : Irq → Irq) : (s.updIrq f).mem = s.mem := rfl
@[simp] theorem State.updIrq_out (s : State) (f : Irq → Irq) : (s.updIrq f).out = s.out := rfl
@[simp] theorem State.updIrq_free (s : State) (f : Irq → Irq) : (s.updIrq f).free = s.free := rfl
@[simp] theorem State.updIrq_pending (s : State) (f : Irq → Irq) : (s.updIrq f).pending = s.pending := rfl

/-! ### updLine -/

@[simp] theorem State.updLine_sys (s : State) (f : Line → Line) : (s.updLine f).sys = s.sys := rfl
@[simp] theorem State.updLine_pow (s : State) (f : Line → Line) : (s.updLine f).pow = s.pow := rfl
@[simp] theorem State.updLine_slu (s : State) (f : Line → Line) : (s.updLine f).slu = s.slu := rfl
@[simp] theorem State.updLine_irq (s : State) (f : Line → Line) : (s.updLine f).irq = s.irq := rfl
@[simp] theorem State.updLine_line (s : State) (f : Line → Line) : (s.updLine f).line = f s.line := rfl
@[simp] theorem State.updLine_tide (s : State) (f : Line → Line) : (s.updLine f).tide = s.tide := rfl
@[simp] theorem State.updLine_cal (s : State) (f : Line → Line) : (s.updLine f).cal = s.cal := rfl
@[simp] theorem State.updLine_sched (s : State) (f : Line → Line) : (s.updLine f).sched = s.sched := rfl
@[simp] theorem State.updLine_tim (s : State) (f : Line → Line) : (s.updLine f).tim = s.tim := rfl
@[simp] theorem State.updLine_eng (s : State) (f : Line → Line) : (s.updLine f).eng = s.eng := rfl
@[simp] theorem State.updLine_pans (s : State) (f : Line → Line) : (s.updLine f).pans = s.pans := rfl
@[simp] theorem State.updLine_flt (s : State) (f : Line → Line) : (s.updLine f).flt = s.flt := rfl
@[simp] theorem State.updLine_alloc (s : State) (f : Line → Line) : (s.updLine f).alloc = s.alloc := rfl
@[simp] theorem State.updLine_window (s : State) (f : Line → Line) : (s.updLine f).window = s.window := rfl
@[simp] theorem State.updLine_windowFrom (s : State) (f : Line → Line) : (s.updLine f).windowFrom = s.windowFrom := rfl
@[simp] theorem State.updLine_host (s : State) (f : Line → Line) : (s.updLine f).host = s.host := rfl
@[simp] theorem State.updLine_otp (s : State) (f : Line → Line) : (s.updLine f).otp = s.otp := rfl
@[simp] theorem State.updLine_mem (s : State) (f : Line → Line) : (s.updLine f).mem = s.mem := rfl
@[simp] theorem State.updLine_out (s : State) (f : Line → Line) : (s.updLine f).out = s.out := rfl
@[simp] theorem State.updLine_free (s : State) (f : Line → Line) : (s.updLine f).free = s.free := rfl
@[simp] theorem State.updLine_pending (s : State) (f : Line → Line) : (s.updLine f).pending = s.pending := rfl

/-! ### updTide -/

@[simp] theorem State.updTide_sys (s : State) (f : Tide → Tide) : (s.updTide f).sys = s.sys := rfl
@[simp] theorem State.updTide_pow (s : State) (f : Tide → Tide) : (s.updTide f).pow = s.pow := rfl
@[simp] theorem State.updTide_slu (s : State) (f : Tide → Tide) : (s.updTide f).slu = s.slu := rfl
@[simp] theorem State.updTide_irq (s : State) (f : Tide → Tide) : (s.updTide f).irq = s.irq := rfl
@[simp] theorem State.updTide_line (s : State) (f : Tide → Tide) : (s.updTide f).line = s.line := rfl
@[simp] theorem State.updTide_tide (s : State) (f : Tide → Tide) : (s.updTide f).tide = f s.tide := rfl
@[simp] theorem State.updTide_cal (s : State) (f : Tide → Tide) : (s.updTide f).cal = s.cal := rfl
@[simp] theorem State.updTide_sched (s : State) (f : Tide → Tide) : (s.updTide f).sched = s.sched := rfl
@[simp] theorem State.updTide_tim (s : State) (f : Tide → Tide) : (s.updTide f).tim = s.tim := rfl
@[simp] theorem State.updTide_eng (s : State) (f : Tide → Tide) : (s.updTide f).eng = s.eng := rfl
@[simp] theorem State.updTide_pans (s : State) (f : Tide → Tide) : (s.updTide f).pans = s.pans := rfl
@[simp] theorem State.updTide_flt (s : State) (f : Tide → Tide) : (s.updTide f).flt = s.flt := rfl
@[simp] theorem State.updTide_alloc (s : State) (f : Tide → Tide) : (s.updTide f).alloc = s.alloc := rfl
@[simp] theorem State.updTide_window (s : State) (f : Tide → Tide) : (s.updTide f).window = s.window := rfl
@[simp] theorem State.updTide_windowFrom (s : State) (f : Tide → Tide) : (s.updTide f).windowFrom = s.windowFrom := rfl
@[simp] theorem State.updTide_host (s : State) (f : Tide → Tide) : (s.updTide f).host = s.host := rfl
@[simp] theorem State.updTide_otp (s : State) (f : Tide → Tide) : (s.updTide f).otp = s.otp := rfl
@[simp] theorem State.updTide_mem (s : State) (f : Tide → Tide) : (s.updTide f).mem = s.mem := rfl
@[simp] theorem State.updTide_out (s : State) (f : Tide → Tide) : (s.updTide f).out = s.out := rfl
@[simp] theorem State.updTide_free (s : State) (f : Tide → Tide) : (s.updTide f).free = s.free := rfl
@[simp] theorem State.updTide_pending (s : State) (f : Tide → Tide) : (s.updTide f).pending = s.pending := rfl

/-! ### updCal -/

@[simp] theorem State.updCal_sys (s : State) (f : Cal → Cal) : (s.updCal f).sys = s.sys := rfl
@[simp] theorem State.updCal_pow (s : State) (f : Cal → Cal) : (s.updCal f).pow = s.pow := rfl
@[simp] theorem State.updCal_slu (s : State) (f : Cal → Cal) : (s.updCal f).slu = s.slu := rfl
@[simp] theorem State.updCal_irq (s : State) (f : Cal → Cal) : (s.updCal f).irq = s.irq := rfl
@[simp] theorem State.updCal_line (s : State) (f : Cal → Cal) : (s.updCal f).line = s.line := rfl
@[simp] theorem State.updCal_tide (s : State) (f : Cal → Cal) : (s.updCal f).tide = s.tide := rfl
@[simp] theorem State.updCal_cal (s : State) (f : Cal → Cal) : (s.updCal f).cal = f s.cal := rfl
@[simp] theorem State.updCal_sched (s : State) (f : Cal → Cal) : (s.updCal f).sched = s.sched := rfl
@[simp] theorem State.updCal_tim (s : State) (f : Cal → Cal) : (s.updCal f).tim = s.tim := rfl
@[simp] theorem State.updCal_eng (s : State) (f : Cal → Cal) : (s.updCal f).eng = s.eng := rfl
@[simp] theorem State.updCal_pans (s : State) (f : Cal → Cal) : (s.updCal f).pans = s.pans := rfl
@[simp] theorem State.updCal_flt (s : State) (f : Cal → Cal) : (s.updCal f).flt = s.flt := rfl
@[simp] theorem State.updCal_alloc (s : State) (f : Cal → Cal) : (s.updCal f).alloc = s.alloc := rfl
@[simp] theorem State.updCal_window (s : State) (f : Cal → Cal) : (s.updCal f).window = s.window := rfl
@[simp] theorem State.updCal_windowFrom (s : State) (f : Cal → Cal) : (s.updCal f).windowFrom = s.windowFrom := rfl
@[simp] theorem State.updCal_host (s : State) (f : Cal → Cal) : (s.updCal f).host = s.host := rfl
@[simp] theorem State.updCal_otp (s : State) (f : Cal → Cal) : (s.updCal f).otp = s.otp := rfl
@[simp] theorem State.updCal_mem (s : State) (f : Cal → Cal) : (s.updCal f).mem = s.mem := rfl
@[simp] theorem State.updCal_out (s : State) (f : Cal → Cal) : (s.updCal f).out = s.out := rfl
@[simp] theorem State.updCal_free (s : State) (f : Cal → Cal) : (s.updCal f).free = s.free := rfl
@[simp] theorem State.updCal_pending (s : State) (f : Cal → Cal) : (s.updCal f).pending = s.pending := rfl

/-! ### updEng -/

@[simp] theorem State.updEng_sys (s : State) (f : Engine → Engine) : (s.updEng f).sys = s.sys := rfl
@[simp] theorem State.updEng_pow (s : State) (f : Engine → Engine) : (s.updEng f).pow = s.pow := rfl
@[simp] theorem State.updEng_slu (s : State) (f : Engine → Engine) : (s.updEng f).slu = s.slu := rfl
@[simp] theorem State.updEng_irq (s : State) (f : Engine → Engine) : (s.updEng f).irq = s.irq := rfl
@[simp] theorem State.updEng_line (s : State) (f : Engine → Engine) : (s.updEng f).line = s.line := rfl
@[simp] theorem State.updEng_tide (s : State) (f : Engine → Engine) : (s.updEng f).tide = s.tide := rfl
@[simp] theorem State.updEng_cal (s : State) (f : Engine → Engine) : (s.updEng f).cal = s.cal := rfl
@[simp] theorem State.updEng_sched (s : State) (f : Engine → Engine) : (s.updEng f).sched = s.sched := rfl
@[simp] theorem State.updEng_tim (s : State) (f : Engine → Engine) : (s.updEng f).tim = s.tim := rfl
@[simp] theorem State.updEng_eng (s : State) (f : Engine → Engine) : (s.updEng f).eng = f s.eng := rfl
@[simp] theorem State.updEng_pans (s : State) (f : Engine → Engine) : (s.updEng f).pans = s.pans := rfl
@[simp] theorem State.updEng_flt (s : State) (f : Engine → Engine) : (s.updEng f).flt = s.flt := rfl
@[simp] theorem State.updEng_alloc (s : State) (f : Engine → Engine) : (s.updEng f).alloc = s.alloc := rfl
@[simp] theorem State.updEng_window (s : State) (f : Engine → Engine) : (s.updEng f).window = s.window := rfl
@[simp] theorem State.updEng_windowFrom (s : State) (f : Engine → Engine) : (s.updEng f).windowFrom = s.windowFrom := rfl
@[simp] theorem State.updEng_host (s : State) (f : Engine → Engine) : (s.updEng f).host = s.host := rfl
@[simp] theorem State.updEng_otp (s : State) (f : Engine → Engine) : (s.updEng f).otp = s.otp := rfl
@[simp] theorem State.updEng_mem (s : State) (f : Engine → Engine) : (s.updEng f).mem = s.mem := rfl
@[simp] theorem State.updEng_out (s : State) (f : Engine → Engine) : (s.updEng f).out = s.out := rfl
@[simp] theorem State.updEng_free (s : State) (f : Engine → Engine) : (s.updEng f).free = s.free := rfl
@[simp] theorem State.updEng_pending (s : State) (f : Engine → Engine) : (s.updEng f).pending = s.pending := rfl

/-! ### updPan -/

@[simp] theorem State.updPan_sys (s : State) (n : Fin 4) (f : Pan → Pan) : (s.updPan n f).sys = s.sys := rfl
@[simp] theorem State.updPan_pow (s : State) (n : Fin 4) (f : Pan → Pan) : (s.updPan n f).pow = s.pow := rfl
@[simp] theorem State.updPan_slu (s : State) (n : Fin 4) (f : Pan → Pan) : (s.updPan n f).slu = s.slu := rfl
@[simp] theorem State.updPan_irq (s : State) (n : Fin 4) (f : Pan → Pan) : (s.updPan n f).irq = s.irq := rfl
@[simp] theorem State.updPan_line (s : State) (n : Fin 4) (f : Pan → Pan) : (s.updPan n f).line = s.line := rfl
@[simp] theorem State.updPan_tide (s : State) (n : Fin 4) (f : Pan → Pan) : (s.updPan n f).tide = s.tide := rfl
@[simp] theorem State.updPan_cal (s : State) (n : Fin 4) (f : Pan → Pan) : (s.updPan n f).cal = s.cal := rfl
@[simp] theorem State.updPan_sched (s : State) (n : Fin 4) (f : Pan → Pan) : (s.updPan n f).sched = s.sched := rfl
@[simp] theorem State.updPan_tim (s : State) (n : Fin 4) (f : Pan → Pan) : (s.updPan n f).tim = s.tim := rfl
@[simp] theorem State.updPan_eng (s : State) (n : Fin 4) (f : Pan → Pan) : (s.updPan n f).eng = s.eng := rfl
@[simp] theorem State.updPan_pans (s : State) (n : Fin 4) (f : Pan → Pan) : (s.updPan n f).pans = tabUpd s.pans n f := rfl
@[simp] theorem State.updPan_flt (s : State) (n : Fin 4) (f : Pan → Pan) : (s.updPan n f).flt = s.flt := rfl
@[simp] theorem State.updPan_alloc (s : State) (n : Fin 4) (f : Pan → Pan) : (s.updPan n f).alloc = s.alloc := rfl
@[simp] theorem State.updPan_window (s : State) (n : Fin 4) (f : Pan → Pan) : (s.updPan n f).window = s.window := rfl
@[simp] theorem State.updPan_windowFrom (s : State) (n : Fin 4) (f : Pan → Pan) : (s.updPan n f).windowFrom = s.windowFrom := rfl
@[simp] theorem State.updPan_host (s : State) (n : Fin 4) (f : Pan → Pan) : (s.updPan n f).host = s.host := rfl
@[simp] theorem State.updPan_otp (s : State) (n : Fin 4) (f : Pan → Pan) : (s.updPan n f).otp = s.otp := rfl
@[simp] theorem State.updPan_mem (s : State) (n : Fin 4) (f : Pan → Pan) : (s.updPan n f).mem = s.mem := rfl
@[simp] theorem State.updPan_out (s : State) (n : Fin 4) (f : Pan → Pan) : (s.updPan n f).out = s.out := rfl
@[simp] theorem State.updPan_free (s : State) (n : Fin 4) (f : Pan → Pan) : (s.updPan n f).free = s.free := rfl
@[simp] theorem State.updPan_pending (s : State) (n : Fin 4) (f : Pan → Pan) : (s.updPan n f).pending = s.pending := rfl

/-! ### updFlt -/

@[simp] theorem State.updFlt_sys (s : State) (k : Fin 128) (f : Filter → Filter) : (s.updFlt k f).sys = s.sys := rfl
@[simp] theorem State.updFlt_pow (s : State) (k : Fin 128) (f : Filter → Filter) : (s.updFlt k f).pow = s.pow := rfl
@[simp] theorem State.updFlt_slu (s : State) (k : Fin 128) (f : Filter → Filter) : (s.updFlt k f).slu = s.slu := rfl
@[simp] theorem State.updFlt_irq (s : State) (k : Fin 128) (f : Filter → Filter) : (s.updFlt k f).irq = s.irq := rfl
@[simp] theorem State.updFlt_line (s : State) (k : Fin 128) (f : Filter → Filter) : (s.updFlt k f).line = s.line := rfl
@[simp] theorem State.updFlt_tide (s : State) (k : Fin 128) (f : Filter → Filter) : (s.updFlt k f).tide = s.tide := rfl
@[simp] theorem State.updFlt_cal (s : State) (k : Fin 128) (f : Filter → Filter) : (s.updFlt k f).cal = s.cal := rfl
@[simp] theorem State.updFlt_sched (s : State) (k : Fin 128) (f : Filter → Filter) : (s.updFlt k f).sched = s.sched := rfl
@[simp] theorem State.updFlt_tim (s : State) (k : Fin 128) (f : Filter → Filter) : (s.updFlt k f).tim = s.tim := rfl
@[simp] theorem State.updFlt_eng (s : State) (k : Fin 128) (f : Filter → Filter) : (s.updFlt k f).eng = s.eng := rfl
@[simp] theorem State.updFlt_pans (s : State) (k : Fin 128) (f : Filter → Filter) : (s.updFlt k f).pans = s.pans := rfl
@[simp] theorem State.updFlt_flt (s : State) (k : Fin 128) (f : Filter → Filter) : (s.updFlt k f).flt = tabUpd s.flt k f := rfl
@[simp] theorem State.updFlt_alloc (s : State) (k : Fin 128) (f : Filter → Filter) : (s.updFlt k f).alloc = s.alloc := rfl
@[simp] theorem State.updFlt_window (s : State) (k : Fin 128) (f : Filter → Filter) : (s.updFlt k f).window = s.window := rfl
@[simp] theorem State.updFlt_windowFrom (s : State) (k : Fin 128) (f : Filter → Filter) : (s.updFlt k f).windowFrom = s.windowFrom := rfl
@[simp] theorem State.updFlt_host (s : State) (k : Fin 128) (f : Filter → Filter) : (s.updFlt k f).host = s.host := rfl
@[simp] theorem State.updFlt_otp (s : State) (k : Fin 128) (f : Filter → Filter) : (s.updFlt k f).otp = s.otp := rfl
@[simp] theorem State.updFlt_mem (s : State) (k : Fin 128) (f : Filter → Filter) : (s.updFlt k f).mem = s.mem := rfl
@[simp] theorem State.updFlt_out (s : State) (k : Fin 128) (f : Filter → Filter) : (s.updFlt k f).out = s.out := rfl
@[simp] theorem State.updFlt_free (s : State) (k : Fin 128) (f : Filter → Filter) : (s.updFlt k f).free = s.free := rfl
@[simp] theorem State.updFlt_pending (s : State) (k : Fin 128) (f : Filter → Filter) : (s.updFlt k f).pending = s.pending := rfl

/-! ### updThr -/

@[simp] theorem State.updThr_sys (s : State) (t : Fin 8) (f : Thread → Thread) : (s.updThr t f).sys = s.sys := rfl
@[simp] theorem State.updThr_pow (s : State) (t : Fin 8) (f : Thread → Thread) : (s.updThr t f).pow = s.pow := rfl
@[simp] theorem State.updThr_slu (s : State) (t : Fin 8) (f : Thread → Thread) : (s.updThr t f).slu = s.slu := rfl
@[simp] theorem State.updThr_irq (s : State) (t : Fin 8) (f : Thread → Thread) : (s.updThr t f).irq = s.irq := rfl
@[simp] theorem State.updThr_line (s : State) (t : Fin 8) (f : Thread → Thread) : (s.updThr t f).line = s.line := rfl
@[simp] theorem State.updThr_tide (s : State) (t : Fin 8) (f : Thread → Thread) : (s.updThr t f).tide = s.tide := rfl
@[simp] theorem State.updThr_cal (s : State) (t : Fin 8) (f : Thread → Thread) : (s.updThr t f).cal = s.cal := rfl
@[simp] theorem State.updThr_sched (s : State) (t : Fin 8) (f : Thread → Thread) : (s.updThr t f).sched = s.sched := rfl
@[simp] theorem State.updThr_tim (s : State) (t : Fin 8) (f : Thread → Thread) : (s.updThr t f).tim = s.tim := rfl
@[simp] theorem State.updThr_eng (s : State) (t : Fin 8) (f : Thread → Thread) : (s.updThr t f).eng = { s.eng with thr := tabUpd s.eng.thr t f } := rfl
@[simp] theorem State.updThr_pans (s : State) (t : Fin 8) (f : Thread → Thread) : (s.updThr t f).pans = s.pans := rfl
@[simp] theorem State.updThr_flt (s : State) (t : Fin 8) (f : Thread → Thread) : (s.updThr t f).flt = s.flt := rfl
@[simp] theorem State.updThr_alloc (s : State) (t : Fin 8) (f : Thread → Thread) : (s.updThr t f).alloc = s.alloc := rfl
@[simp] theorem State.updThr_window (s : State) (t : Fin 8) (f : Thread → Thread) : (s.updThr t f).window = s.window := rfl
@[simp] theorem State.updThr_windowFrom (s : State) (t : Fin 8) (f : Thread → Thread) : (s.updThr t f).windowFrom = s.windowFrom := rfl
@[simp] theorem State.updThr_host (s : State) (t : Fin 8) (f : Thread → Thread) : (s.updThr t f).host = s.host := rfl
@[simp] theorem State.updThr_otp (s : State) (t : Fin 8) (f : Thread → Thread) : (s.updThr t f).otp = s.otp := rfl
@[simp] theorem State.updThr_mem (s : State) (t : Fin 8) (f : Thread → Thread) : (s.updThr t f).mem = s.mem := rfl
@[simp] theorem State.updThr_out (s : State) (t : Fin 8) (f : Thread → Thread) : (s.updThr t f).out = s.out := rfl
@[simp] theorem State.updThr_free (s : State) (t : Fin 8) (f : Thread → Thread) : (s.updThr t f).free = s.free := rfl
@[simp] theorem State.updThr_pending (s : State) (t : Fin 8) (f : Thread → Thread) : (s.updThr t f).pending = s.pending := rfl

/-! ### updTim -/

@[simp] theorem State.updTim_sys (s : State) (n : Fin 8) (f : Timer → Timer) : (s.updTim n f).sys = s.sys := rfl
@[simp] theorem State.updTim_pow (s : State) (n : Fin 8) (f : Timer → Timer) : (s.updTim n f).pow = s.pow := rfl
@[simp] theorem State.updTim_slu (s : State) (n : Fin 8) (f : Timer → Timer) : (s.updTim n f).slu = s.slu := rfl
@[simp] theorem State.updTim_irq (s : State) (n : Fin 8) (f : Timer → Timer) : (s.updTim n f).irq = s.irq := rfl
@[simp] theorem State.updTim_line (s : State) (n : Fin 8) (f : Timer → Timer) : (s.updTim n f).line = s.line := rfl
@[simp] theorem State.updTim_tide (s : State) (n : Fin 8) (f : Timer → Timer) : (s.updTim n f).tide = s.tide := rfl
@[simp] theorem State.updTim_cal (s : State) (n : Fin 8) (f : Timer → Timer) : (s.updTim n f).cal = s.cal := rfl
@[simp] theorem State.updTim_sched (s : State) (n : Fin 8) (f : Timer → Timer) : (s.updTim n f).sched = s.sched := rfl
@[simp] theorem State.updTim_tim (s : State) (n : Fin 8) (f : Timer → Timer) : (s.updTim n f).tim = { s.tim with tim := tabUpd s.tim.tim n f } := rfl
@[simp] theorem State.updTim_eng (s : State) (n : Fin 8) (f : Timer → Timer) : (s.updTim n f).eng = s.eng := rfl
@[simp] theorem State.updTim_pans (s : State) (n : Fin 8) (f : Timer → Timer) : (s.updTim n f).pans = s.pans := rfl
@[simp] theorem State.updTim_flt (s : State) (n : Fin 8) (f : Timer → Timer) : (s.updTim n f).flt = s.flt := rfl
@[simp] theorem State.updTim_alloc (s : State) (n : Fin 8) (f : Timer → Timer) : (s.updTim n f).alloc = s.alloc := rfl
@[simp] theorem State.updTim_window (s : State) (n : Fin 8) (f : Timer → Timer) : (s.updTim n f).window = s.window := rfl
@[simp] theorem State.updTim_windowFrom (s : State) (n : Fin 8) (f : Timer → Timer) : (s.updTim n f).windowFrom = s.windowFrom := rfl
@[simp] theorem State.updTim_host (s : State) (n : Fin 8) (f : Timer → Timer) : (s.updTim n f).host = s.host := rfl
@[simp] theorem State.updTim_otp (s : State) (n : Fin 8) (f : Timer → Timer) : (s.updTim n f).otp = s.otp := rfl
@[simp] theorem State.updTim_mem (s : State) (n : Fin 8) (f : Timer → Timer) : (s.updTim n f).mem = s.mem := rfl
@[simp] theorem State.updTim_out (s : State) (n : Fin 8) (f : Timer → Timer) : (s.updTim n f).out = s.out := rfl
@[simp] theorem State.updTim_free (s : State) (n : Fin 8) (f : Timer → Timer) : (s.updTim n f).free = s.free := rfl
@[simp] theorem State.updTim_pending (s : State) (n : Fin 8) (f : Timer → Timer) : (s.updTim n f).pending = s.pending := rfl

/-! ### updSch -/

@[simp] theorem State.updSch_sys (s : State) (e : Fin 32) (f : SchEntry → SchEntry) : (s.updSch e f).sys = s.sys := rfl
@[simp] theorem State.updSch_pow (s : State) (e : Fin 32) (f : SchEntry → SchEntry) : (s.updSch e f).pow = s.pow := rfl
@[simp] theorem State.updSch_slu (s : State) (e : Fin 32) (f : SchEntry → SchEntry) : (s.updSch e f).slu = s.slu := rfl
@[simp] theorem State.updSch_irq (s : State) (e : Fin 32) (f : SchEntry → SchEntry) : (s.updSch e f).irq = s.irq := rfl
@[simp] theorem State.updSch_line (s : State) (e : Fin 32) (f : SchEntry → SchEntry) : (s.updSch e f).line = s.line := rfl
@[simp] theorem State.updSch_tide (s : State) (e : Fin 32) (f : SchEntry → SchEntry) : (s.updSch e f).tide = s.tide := rfl
@[simp] theorem State.updSch_cal (s : State) (e : Fin 32) (f : SchEntry → SchEntry) : (s.updSch e f).cal = s.cal := rfl
@[simp] theorem State.updSch_sched (s : State) (e : Fin 32) (f : SchEntry → SchEntry) : (s.updSch e f).sched = { s.sched with ent := tabUpd s.sched.ent e f } := rfl
@[simp] theorem State.updSch_tim (s : State) (e : Fin 32) (f : SchEntry → SchEntry) : (s.updSch e f).tim = s.tim := rfl
@[simp] theorem State.updSch_eng (s : State) (e : Fin 32) (f : SchEntry → SchEntry) : (s.updSch e f).eng = s.eng := rfl
@[simp] theorem State.updSch_pans (s : State) (e : Fin 32) (f : SchEntry → SchEntry) : (s.updSch e f).pans = s.pans := rfl
@[simp] theorem State.updSch_flt (s : State) (e : Fin 32) (f : SchEntry → SchEntry) : (s.updSch e f).flt = s.flt := rfl
@[simp] theorem State.updSch_alloc (s : State) (e : Fin 32) (f : SchEntry → SchEntry) : (s.updSch e f).alloc = s.alloc := rfl
@[simp] theorem State.updSch_window (s : State) (e : Fin 32) (f : SchEntry → SchEntry) : (s.updSch e f).window = s.window := rfl
@[simp] theorem State.updSch_windowFrom (s : State) (e : Fin 32) (f : SchEntry → SchEntry) : (s.updSch e f).windowFrom = s.windowFrom := rfl
@[simp] theorem State.updSch_host (s : State) (e : Fin 32) (f : SchEntry → SchEntry) : (s.updSch e f).host = s.host := rfl
@[simp] theorem State.updSch_otp (s : State) (e : Fin 32) (f : SchEntry → SchEntry) : (s.updSch e f).otp = s.otp := rfl
@[simp] theorem State.updSch_mem (s : State) (e : Fin 32) (f : SchEntry → SchEntry) : (s.updSch e f).mem = s.mem := rfl
@[simp] theorem State.updSch_out (s : State) (e : Fin 32) (f : SchEntry → SchEntry) : (s.updSch e f).out = s.out := rfl
@[simp] theorem State.updSch_free (s : State) (e : Fin 32) (f : SchEntry → SchEntry) : (s.updSch e f).free = s.free := rfl
@[simp] theorem State.updSch_pending (s : State) (e : Fin 32) (f : SchEntry → SchEntry) : (s.updSch e f).pending = s.pending := rfl

/-! ### updTq -/

@[simp] theorem State.updTq_sys (s : State) (n q : Fin 4) (f : TxQueue → TxQueue) : (s.updTq n q f).sys = s.sys := rfl
@[simp] theorem State.updTq_pow (s : State) (n q : Fin 4) (f : TxQueue → TxQueue) : (s.updTq n q f).pow = s.pow := rfl
@[simp] theorem State.updTq_slu (s : State) (n q : Fin 4) (f : TxQueue → TxQueue) : (s.updTq n q f).slu = s.slu := rfl
@[simp] theorem State.updTq_irq (s : State) (n q : Fin 4) (f : TxQueue → TxQueue) : (s.updTq n q f).irq = s.irq := rfl
@[simp] theorem State.updTq_line (s : State) (n q : Fin 4) (f : TxQueue → TxQueue) : (s.updTq n q f).line = s.line := rfl
@[simp] theorem State.updTq_tide (s : State) (n q : Fin 4) (f : TxQueue → TxQueue) : (s.updTq n q f).tide = s.tide := rfl
@[simp] theorem State.updTq_cal (s : State) (n q : Fin 4) (f : TxQueue → TxQueue) : (s.updTq n q f).cal = s.cal := rfl
@[simp] theorem State.updTq_sched (s : State) (n q : Fin 4) (f : TxQueue → TxQueue) : (s.updTq n q f).sched = s.sched := rfl
@[simp] theorem State.updTq_tim (s : State) (n q : Fin 4) (f : TxQueue → TxQueue) : (s.updTq n q f).tim = s.tim := rfl
@[simp] theorem State.updTq_eng (s : State) (n q : Fin 4) (f : TxQueue → TxQueue) : (s.updTq n q f).eng = s.eng := rfl
@[simp] theorem State.updTq_pans (s : State) (n q : Fin 4) (f : TxQueue → TxQueue) : (s.updTq n q f).pans = tabUpd s.pans n fun p => { p with tq := tabUpd p.tq q f } := rfl
@[simp] theorem State.updTq_flt (s : State) (n q : Fin 4) (f : TxQueue → TxQueue) : (s.updTq n q f).flt = s.flt := rfl
@[simp] theorem State.updTq_alloc (s : State) (n q : Fin 4) (f : TxQueue → TxQueue) : (s.updTq n q f).alloc = s.alloc := rfl
@[simp] theorem State.updTq_window (s : State) (n q : Fin 4) (f : TxQueue → TxQueue) : (s.updTq n q f).window = s.window := rfl
@[simp] theorem State.updTq_windowFrom (s : State) (n q : Fin 4) (f : TxQueue → TxQueue) : (s.updTq n q f).windowFrom = s.windowFrom := rfl
@[simp] theorem State.updTq_host (s : State) (n q : Fin 4) (f : TxQueue → TxQueue) : (s.updTq n q f).host = s.host := rfl
@[simp] theorem State.updTq_otp (s : State) (n q : Fin 4) (f : TxQueue → TxQueue) : (s.updTq n q f).otp = s.otp := rfl
@[simp] theorem State.updTq_mem (s : State) (n q : Fin 4) (f : TxQueue → TxQueue) : (s.updTq n q f).mem = s.mem := rfl
@[simp] theorem State.updTq_out (s : State) (n q : Fin 4) (f : TxQueue → TxQueue) : (s.updTq n q f).out = s.out := rfl
@[simp] theorem State.updTq_free (s : State) (n q : Fin 4) (f : TxQueue → TxQueue) : (s.updTq n q f).free = s.free := rfl
@[simp] theorem State.updTq_pending (s : State) (n q : Fin 4) (f : TxQueue → TxQueue) : (s.updTq n q f).pending = s.pending := rfl

/-! ### updRxf -/

@[simp] theorem State.updRxf_sys (s : State) (n q : Fin 4) (f : RxFifo → RxFifo) : (s.updRxf n q f).sys = s.sys := rfl
@[simp] theorem State.updRxf_pow (s : State) (n q : Fin 4) (f : RxFifo → RxFifo) : (s.updRxf n q f).pow = s.pow := rfl
@[simp] theorem State.updRxf_slu (s : State) (n q : Fin 4) (f : RxFifo → RxFifo) : (s.updRxf n q f).slu = s.slu := rfl
@[simp] theorem State.updRxf_irq (s : State) (n q : Fin 4) (f : RxFifo → RxFifo) : (s.updRxf n q f).irq = s.irq := rfl
@[simp] theorem State.updRxf_line (s : State) (n q : Fin 4) (f : RxFifo → RxFifo) : (s.updRxf n q f).line = s.line := rfl
@[simp] theorem State.updRxf_tide (s : State) (n q : Fin 4) (f : RxFifo → RxFifo) : (s.updRxf n q f).tide = s.tide := rfl
@[simp] theorem State.updRxf_cal (s : State) (n q : Fin 4) (f : RxFifo → RxFifo) : (s.updRxf n q f).cal = s.cal := rfl
@[simp] theorem State.updRxf_sched (s : State) (n q : Fin 4) (f : RxFifo → RxFifo) : (s.updRxf n q f).sched = s.sched := rfl
@[simp] theorem State.updRxf_tim (s : State) (n q : Fin 4) (f : RxFifo → RxFifo) : (s.updRxf n q f).tim = s.tim := rfl
@[simp] theorem State.updRxf_eng (s : State) (n q : Fin 4) (f : RxFifo → RxFifo) : (s.updRxf n q f).eng = s.eng := rfl
@[simp] theorem State.updRxf_pans (s : State) (n q : Fin 4) (f : RxFifo → RxFifo) : (s.updRxf n q f).pans = tabUpd s.pans n fun p => { p with rxf := tabUpd p.rxf q f } := rfl
@[simp] theorem State.updRxf_flt (s : State) (n q : Fin 4) (f : RxFifo → RxFifo) : (s.updRxf n q f).flt = s.flt := rfl
@[simp] theorem State.updRxf_alloc (s : State) (n q : Fin 4) (f : RxFifo → RxFifo) : (s.updRxf n q f).alloc = s.alloc := rfl
@[simp] theorem State.updRxf_window (s : State) (n q : Fin 4) (f : RxFifo → RxFifo) : (s.updRxf n q f).window = s.window := rfl
@[simp] theorem State.updRxf_windowFrom (s : State) (n q : Fin 4) (f : RxFifo → RxFifo) : (s.updRxf n q f).windowFrom = s.windowFrom := rfl
@[simp] theorem State.updRxf_host (s : State) (n q : Fin 4) (f : RxFifo → RxFifo) : (s.updRxf n q f).host = s.host := rfl
@[simp] theorem State.updRxf_otp (s : State) (n q : Fin 4) (f : RxFifo → RxFifo) : (s.updRxf n q f).otp = s.otp := rfl
@[simp] theorem State.updRxf_mem (s : State) (n q : Fin 4) (f : RxFifo → RxFifo) : (s.updRxf n q f).mem = s.mem := rfl
@[simp] theorem State.updRxf_out (s : State) (n q : Fin 4) (f : RxFifo → RxFifo) : (s.updRxf n q f).out = s.out := rfl
@[simp] theorem State.updRxf_free (s : State) (n q : Fin 4) (f : RxFifo → RxFifo) : (s.updRxf n q f).free = s.free := rfl
@[simp] theorem State.updRxf_pending (s : State) (n q : Fin 4) (f : RxFifo → RxFifo) : (s.updRxf n q f).pending = s.pending := rfl

/-! ### updHost -/

@[simp] theorem State.updHost_sys (s : State) (h : HostPort) (f : HostState → HostState) : (s.updHost h f).sys = s.sys := rfl
@[simp] theorem State.updHost_pow (s : State) (h : HostPort) (f : HostState → HostState) : (s.updHost h f).pow = s.pow := rfl
@[simp] theorem State.updHost_slu (s : State) (h : HostPort) (f : HostState → HostState) : (s.updHost h f).slu = s.slu := rfl
@[simp] theorem State.updHost_irq (s : State) (h : HostPort) (f : HostState → HostState) : (s.updHost h f).irq = s.irq := rfl
@[simp] theorem State.updHost_line (s : State) (h : HostPort) (f : HostState → HostState) : (s.updHost h f).line = s.line := rfl
@[simp] theorem State.updHost_tide (s : State) (h : HostPort) (f : HostState → HostState) : (s.updHost h f).tide = s.tide := rfl
@[simp] theorem State.updHost_cal (s : State) (h : HostPort) (f : HostState → HostState) : (s.updHost h f).cal = s.cal := rfl
@[simp] theorem State.updHost_sched (s : State) (h : HostPort) (f : HostState → HostState) : (s.updHost h f).sched = s.sched := rfl
@[simp] theorem State.updHost_tim (s : State) (h : HostPort) (f : HostState → HostState) : (s.updHost h f).tim = s.tim := rfl
@[simp] theorem State.updHost_eng (s : State) (h : HostPort) (f : HostState → HostState) : (s.updHost h f).eng = s.eng := rfl
@[simp] theorem State.updHost_pans (s : State) (h : HostPort) (f : HostState → HostState) : (s.updHost h f).pans = s.pans := rfl
@[simp] theorem State.updHost_flt (s : State) (h : HostPort) (f : HostState → HostState) : (s.updHost h f).flt = s.flt := rfl
@[simp] theorem State.updHost_alloc (s : State) (h : HostPort) (f : HostState → HostState) : (s.updHost h f).alloc = s.alloc := rfl
@[simp] theorem State.updHost_window (s : State) (h : HostPort) (f : HostState → HostState) : (s.updHost h f).window = s.window := rfl
@[simp] theorem State.updHost_windowFrom (s : State) (h : HostPort) (f : HostState → HostState) : (s.updHost h f).windowFrom = s.windowFrom := rfl
@[simp] theorem State.updHost_host (s : State) (h : HostPort) (f : HostState → HostState) : (s.updHost h f).host = tabUpd s.host h.ix f := rfl
@[simp] theorem State.updHost_otp (s : State) (h : HostPort) (f : HostState → HostState) : (s.updHost h f).otp = s.otp := rfl
@[simp] theorem State.updHost_mem (s : State) (h : HostPort) (f : HostState → HostState) : (s.updHost h f).mem = s.mem := rfl
@[simp] theorem State.updHost_out (s : State) (h : HostPort) (f : HostState → HostState) : (s.updHost h f).out = s.out := rfl
@[simp] theorem State.updHost_free (s : State) (h : HostPort) (f : HostState → HostState) : (s.updHost h f).free = s.free := rfl
@[simp] theorem State.updHost_pending (s : State) (h : HostPort) (f : HostState → HostState) : (s.updHost h f).pending = s.pending := rfl

/-! ### setLock -/

@[simp] theorem State.setLock_sys (s : State) (l : Fin 32) (o : Option (Fin 8)) : (s.setLock l o).sys = s.sys := rfl
@[simp] theorem State.setLock_pow (s : State) (l : Fin 32) (o : Option (Fin 8)) : (s.setLock l o).pow = s.pow := rfl
@[simp] theorem State.setLock_slu (s : State) (l : Fin 32) (o : Option (Fin 8)) : (s.setLock l o).slu = s.slu := rfl
@[simp] theorem State.setLock_irq (s : State) (l : Fin 32) (o : Option (Fin 8)) : (s.setLock l o).irq = s.irq := rfl
@[simp] theorem State.setLock_line (s : State) (l : Fin 32) (o : Option (Fin 8)) : (s.setLock l o).line = s.line := rfl
@[simp] theorem State.setLock_tide (s : State) (l : Fin 32) (o : Option (Fin 8)) : (s.setLock l o).tide = s.tide := rfl
@[simp] theorem State.setLock_cal (s : State) (l : Fin 32) (o : Option (Fin 8)) : (s.setLock l o).cal = s.cal := rfl
@[simp] theorem State.setLock_sched (s : State) (l : Fin 32) (o : Option (Fin 8)) : (s.setLock l o).sched = s.sched := rfl
@[simp] theorem State.setLock_tim (s : State) (l : Fin 32) (o : Option (Fin 8)) : (s.setLock l o).tim = s.tim := rfl
@[simp] theorem State.setLock_eng (s : State) (l : Fin 32) (o : Option (Fin 8)) : (s.setLock l o).eng = { s.eng with locks := s.eng.locks.set l.val o l.isLt } := rfl
@[simp] theorem State.setLock_pans (s : State) (l : Fin 32) (o : Option (Fin 8)) : (s.setLock l o).pans = s.pans := rfl
@[simp] theorem State.setLock_flt (s : State) (l : Fin 32) (o : Option (Fin 8)) : (s.setLock l o).flt = s.flt := rfl
@[simp] theorem State.setLock_alloc (s : State) (l : Fin 32) (o : Option (Fin 8)) : (s.setLock l o).alloc = s.alloc := rfl
@[simp] theorem State.setLock_window (s : State) (l : Fin 32) (o : Option (Fin 8)) : (s.setLock l o).window = s.window := rfl
@[simp] theorem State.setLock_windowFrom (s : State) (l : Fin 32) (o : Option (Fin 8)) : (s.setLock l o).windowFrom = s.windowFrom := rfl
@[simp] theorem State.setLock_host (s : State) (l : Fin 32) (o : Option (Fin 8)) : (s.setLock l o).host = s.host := rfl
@[simp] theorem State.setLock_otp (s : State) (l : Fin 32) (o : Option (Fin 8)) : (s.setLock l o).otp = s.otp := rfl
@[simp] theorem State.setLock_mem (s : State) (l : Fin 32) (o : Option (Fin 8)) : (s.setLock l o).mem = s.mem := rfl
@[simp] theorem State.setLock_out (s : State) (l : Fin 32) (o : Option (Fin 8)) : (s.setLock l o).out = s.out := rfl
@[simp] theorem State.setLock_free (s : State) (l : Fin 32) (o : Option (Fin 8)) : (s.setLock l o).free = s.free := rfl
@[simp] theorem State.setLock_pending (s : State) (l : Fin 32) (o : Option (Fin 8)) : (s.setLock l o).pending = s.pending := rfl

/-! ### putSlotWord -/

@[simp] theorem State.putSlotWord_sys (s : State) (g w : Nat) (v : Word) : (s.putSlotWord g w v).sys = s.sys := rfl
@[simp] theorem State.putSlotWord_pow (s : State) (g w : Nat) (v : Word) : (s.putSlotWord g w v).pow = s.pow := rfl
@[simp] theorem State.putSlotWord_slu (s : State) (g w : Nat) (v : Word) : (s.putSlotWord g w v).slu = s.slu := rfl
@[simp] theorem State.putSlotWord_irq (s : State) (g w : Nat) (v : Word) : (s.putSlotWord g w v).irq = s.irq := rfl
@[simp] theorem State.putSlotWord_line (s : State) (g w : Nat) (v : Word) : (s.putSlotWord g w v).line = s.line := rfl
@[simp] theorem State.putSlotWord_tide (s : State) (g w : Nat) (v : Word) : (s.putSlotWord g w v).tide = s.tide := rfl
@[simp] theorem State.putSlotWord_cal (s : State) (g w : Nat) (v : Word) : (s.putSlotWord g w v).cal = s.cal := rfl
@[simp] theorem State.putSlotWord_sched (s : State) (g w : Nat) (v : Word) : (s.putSlotWord g w v).sched = s.sched := rfl
@[simp] theorem State.putSlotWord_tim (s : State) (g w : Nat) (v : Word) : (s.putSlotWord g w v).tim = s.tim := rfl
@[simp] theorem State.putSlotWord_eng (s : State) (g w : Nat) (v : Word) : (s.putSlotWord g w v).eng = s.eng := rfl
@[simp] theorem State.putSlotWord_pans (s : State) (g w : Nat) (v : Word) : (s.putSlotWord g w v).pans = s.pans := rfl
@[simp] theorem State.putSlotWord_flt (s : State) (g w : Nat) (v : Word) : (s.putSlotWord g w v).flt = s.flt := rfl
@[simp] theorem State.putSlotWord_alloc (s : State) (g w : Nat) (v : Word) : (s.putSlotWord g w v).alloc = s.alloc := rfl
@[simp] theorem State.putSlotWord_window (s : State) (g w : Nat) (v : Word) : (s.putSlotWord g w v).window = s.window := rfl
@[simp] theorem State.putSlotWord_windowFrom (s : State) (g w : Nat) (v : Word) : (s.putSlotWord g w v).windowFrom = s.windowFrom := rfl
@[simp] theorem State.putSlotWord_host (s : State) (g w : Nat) (v : Word) : (s.putSlotWord g w v).host = s.host := rfl
@[simp] theorem State.putSlotWord_otp (s : State) (g w : Nat) (v : Word) : (s.putSlotWord g w v).otp = s.otp := rfl
@[simp] theorem State.putSlotWord_mem (s : State) (g w : Nat) (v : Word) : (s.putSlotWord g w v).mem = memPutWord s.mem (slotAddr g w) v := rfl
@[simp] theorem State.putSlotWord_out (s : State) (g w : Nat) (v : Word) : (s.putSlotWord g w v).out = s.out := rfl
@[simp] theorem State.putSlotWord_free (s : State) (g w : Nat) (v : Word) : (s.putSlotWord g w v).free = s.free := rfl
@[simp] theorem State.putSlotWord_pending (s : State) (g w : Nat) (v : Word) : (s.putSlotWord g w v).pending = s.pending := rfl

/-! ### ret -/

@[simp] theorem State.ret_sys (s : State) (v : Word) : (s.ret v).sys = s.sys := rfl
@[simp] theorem State.ret_pow (s : State) (v : Word) : (s.ret v).pow = s.pow := rfl
@[simp] theorem State.ret_slu (s : State) (v : Word) : (s.ret v).slu = s.slu := rfl
@[simp] theorem State.ret_irq (s : State) (v : Word) : (s.ret v).irq = s.irq := rfl
@[simp] theorem State.ret_line (s : State) (v : Word) : (s.ret v).line = s.line := rfl
@[simp] theorem State.ret_tide (s : State) (v : Word) : (s.ret v).tide = s.tide := rfl
@[simp] theorem State.ret_cal (s : State) (v : Word) : (s.ret v).cal = s.cal := rfl
@[simp] theorem State.ret_sched (s : State) (v : Word) : (s.ret v).sched = s.sched := rfl
@[simp] theorem State.ret_tim (s : State) (v : Word) : (s.ret v).tim = s.tim := rfl
@[simp] theorem State.ret_eng (s : State) (v : Word) : (s.ret v).eng = s.eng := rfl
@[simp] theorem State.ret_pans (s : State) (v : Word) : (s.ret v).pans = s.pans := rfl
@[simp] theorem State.ret_flt (s : State) (v : Word) : (s.ret v).flt = s.flt := rfl
@[simp] theorem State.ret_alloc (s : State) (v : Word) : (s.ret v).alloc = s.alloc := rfl
@[simp] theorem State.ret_window (s : State) (v : Word) : (s.ret v).window = s.window := rfl
@[simp] theorem State.ret_windowFrom (s : State) (v : Word) : (s.ret v).windowFrom = s.windowFrom := rfl
@[simp] theorem State.ret_host (s : State) (v : Word) : (s.ret v).host = s.host := rfl
@[simp] theorem State.ret_otp (s : State) (v : Word) : (s.ret v).otp = s.otp := rfl
@[simp] theorem State.ret_mem (s : State) (v : Word) : (s.ret v).mem = s.mem := rfl
@[simp] theorem State.ret_out (s : State) (v : Word) : (s.ret v).out = v := rfl
@[simp] theorem State.ret_free (s : State) (v : Word) : (s.ret v).free = s.free := rfl
@[simp] theorem State.ret_pending (s : State) (v : Word) : (s.ret v).pending = s.pending := rfl

/-! ### takeFree -/

@[simp] theorem State.takeFree_sys (s : State) : s.takeFree.sys = s.sys := rfl
@[simp] theorem State.takeFree_pow (s : State) : s.takeFree.pow = s.pow := rfl
@[simp] theorem State.takeFree_slu (s : State) : s.takeFree.slu = s.slu := rfl
@[simp] theorem State.takeFree_irq (s : State) : s.takeFree.irq = s.irq := rfl
@[simp] theorem State.takeFree_line (s : State) : s.takeFree.line = s.line := rfl
@[simp] theorem State.takeFree_tide (s : State) : s.takeFree.tide = s.tide := rfl
@[simp] theorem State.takeFree_cal (s : State) : s.takeFree.cal = s.cal := rfl
@[simp] theorem State.takeFree_sched (s : State) : s.takeFree.sched = s.sched := rfl
@[simp] theorem State.takeFree_tim (s : State) : s.takeFree.tim = s.tim := rfl
@[simp] theorem State.takeFree_eng (s : State) : s.takeFree.eng = s.eng := rfl
@[simp] theorem State.takeFree_pans (s : State) : s.takeFree.pans = s.pans := rfl
@[simp] theorem State.takeFree_flt (s : State) : s.takeFree.flt = s.flt := rfl
@[simp] theorem State.takeFree_alloc (s : State) : s.takeFree.alloc = s.alloc := rfl
@[simp] theorem State.takeFree_window (s : State) : s.takeFree.window = s.window := rfl
@[simp] theorem State.takeFree_windowFrom (s : State) : s.takeFree.windowFrom = s.windowFrom := rfl
@[simp] theorem State.takeFree_host (s : State) : s.takeFree.host = s.host := rfl
@[simp] theorem State.takeFree_otp (s : State) : s.takeFree.otp = s.otp := rfl
@[simp] theorem State.takeFree_mem (s : State) : s.takeFree.mem = s.mem := rfl
@[simp] theorem State.takeFree_out (s : State) : s.takeFree.out = s.out := rfl
@[simp] theorem State.takeFree_free (s : State) : s.takeFree.free = s.free + 1 := rfl
@[simp] theorem State.takeFree_pending (s : State) : s.takeFree.pending = s.pending := rfl

/-! ### updLatch -/

@[simp] theorem State.updLatch_sys (s : State) (p : Party) (n : Fin 8) (f : TimLatch → TimLatch) : (s.updLatch p n f).sys = s.sys := rfl
@[simp] theorem State.updLatch_pow (s : State) (p : Party) (n : Fin 8) (f : TimLatch → TimLatch) : (s.updLatch p n f).pow = s.pow := rfl
@[simp] theorem State.updLatch_slu (s : State) (p : Party) (n : Fin 8) (f : TimLatch → TimLatch) : (s.updLatch p n f).slu = s.slu := rfl
@[simp] theorem State.updLatch_irq (s : State) (p : Party) (n : Fin 8) (f : TimLatch → TimLatch) : (s.updLatch p n f).irq = s.irq := rfl
@[simp] theorem State.updLatch_line (s : State) (p : Party) (n : Fin 8) (f : TimLatch → TimLatch) : (s.updLatch p n f).line = s.line := rfl
@[simp] theorem State.updLatch_tide (s : State) (p : Party) (n : Fin 8) (f : TimLatch → TimLatch) : (s.updLatch p n f).tide = s.tide := rfl
@[simp] theorem State.updLatch_cal (s : State) (p : Party) (n : Fin 8) (f : TimLatch → TimLatch) : (s.updLatch p n f).cal = s.cal := rfl
@[simp] theorem State.updLatch_sched (s : State) (p : Party) (n : Fin 8) (f : TimLatch → TimLatch) : (s.updLatch p n f).sched = s.sched := rfl
@[simp] theorem State.updLatch_tim (s : State) (p : Party) (n : Fin 8) (f : TimLatch → TimLatch) : (s.updLatch p n f).tim = { s.tim with latch := tabUpd s.tim.latch p.ix (fun l => tabUpd l n f) } := rfl
@[simp] theorem State.updLatch_eng (s : State) (p : Party) (n : Fin 8) (f : TimLatch → TimLatch) : (s.updLatch p n f).eng = s.eng := rfl
@[simp] theorem State.updLatch_pans (s : State) (p : Party) (n : Fin 8) (f : TimLatch → TimLatch) : (s.updLatch p n f).pans = s.pans := rfl
@[simp] theorem State.updLatch_flt (s : State) (p : Party) (n : Fin 8) (f : TimLatch → TimLatch) : (s.updLatch p n f).flt = s.flt := rfl
@[simp] theorem State.updLatch_alloc (s : State) (p : Party) (n : Fin 8) (f : TimLatch → TimLatch) : (s.updLatch p n f).alloc = s.alloc := rfl
@[simp] theorem State.updLatch_window (s : State) (p : Party) (n : Fin 8) (f : TimLatch → TimLatch) : (s.updLatch p n f).window = s.window := rfl
@[simp] theorem State.updLatch_windowFrom (s : State) (p : Party) (n : Fin 8) (f : TimLatch → TimLatch) : (s.updLatch p n f).windowFrom = s.windowFrom := rfl
@[simp] theorem State.updLatch_host (s : State) (p : Party) (n : Fin 8) (f : TimLatch → TimLatch) : (s.updLatch p n f).host = s.host := rfl
@[simp] theorem State.updLatch_otp (s : State) (p : Party) (n : Fin 8) (f : TimLatch → TimLatch) : (s.updLatch p n f).otp = s.otp := rfl
@[simp] theorem State.updLatch_mem (s : State) (p : Party) (n : Fin 8) (f : TimLatch → TimLatch) : (s.updLatch p n f).mem = s.mem := rfl
@[simp] theorem State.updLatch_out (s : State) (p : Party) (n : Fin 8) (f : TimLatch → TimLatch) : (s.updLatch p n f).out = s.out := rfl
@[simp] theorem State.updLatch_free (s : State) (p : Party) (n : Fin 8) (f : TimLatch → TimLatch) : (s.updLatch p n f).free = s.free := rfl
@[simp] theorem State.updLatch_pending (s : State) (p : Party) (n : Fin 8) (f : TimLatch → TimLatch) : (s.updLatch p n f).pending = s.pending := rfl

/-! ### advance -/

@[simp] theorem State.advance_sys (s : State) (t : Fin 8) : (s.advance t).sys = s.sys := rfl
@[simp] theorem State.advance_pow (s : State) (t : Fin 8) : (s.advance t).pow = s.pow := rfl
@[simp] theorem State.advance_slu (s : State) (t : Fin 8) : (s.advance t).slu = s.slu := rfl
@[simp] theorem State.advance_irq (s : State) (t : Fin 8) : (s.advance t).irq = s.irq := rfl
@[simp] theorem State.advance_line (s : State) (t : Fin 8) : (s.advance t).line = s.line := rfl
@[simp] theorem State.advance_tide (s : State) (t : Fin 8) : (s.advance t).tide = s.tide := rfl
@[simp] theorem State.advance_cal (s : State) (t : Fin 8) : (s.advance t).cal = s.cal := rfl
@[simp] theorem State.advance_sched (s : State) (t : Fin 8) : (s.advance t).sched = s.sched := rfl
@[simp] theorem State.advance_tim (s : State) (t : Fin 8) : (s.advance t).tim = s.tim := rfl
@[simp] theorem State.advance_pans (s : State) (t : Fin 8) : (s.advance t).pans = s.pans := rfl
@[simp] theorem State.advance_flt (s : State) (t : Fin 8) : (s.advance t).flt = s.flt := rfl
@[simp] theorem State.advance_alloc (s : State) (t : Fin 8) : (s.advance t).alloc = s.alloc := rfl
@[simp] theorem State.advance_window (s : State) (t : Fin 8) : (s.advance t).window = s.window := rfl
@[simp] theorem State.advance_windowFrom (s : State) (t : Fin 8) : (s.advance t).windowFrom = s.windowFrom := rfl
@[simp] theorem State.advance_host (s : State) (t : Fin 8) : (s.advance t).host = s.host := rfl
@[simp] theorem State.advance_otp (s : State) (t : Fin 8) : (s.advance t).otp = s.otp := rfl
@[simp] theorem State.advance_mem (s : State) (t : Fin 8) : (s.advance t).mem = s.mem := rfl
@[simp] theorem State.advance_out (s : State) (t : Fin 8) : (s.advance t).out = s.out := rfl
@[simp] theorem State.advance_free (s : State) (t : Fin 8) : (s.advance t).free = s.free := rfl
@[simp] theorem State.advance_pending (s : State) (t : Fin 8) : (s.advance t).pending = s.pending := rfl

/-! ### jump -/

@[simp] theorem State.jump_sys (s : State) (t : Fin 8) (pc : BitVec 15) : (s.jump t pc).sys = s.sys := rfl
@[simp] theorem State.jump_pow (s : State) (t : Fin 8) (pc : BitVec 15) : (s.jump t pc).pow = s.pow := rfl
@[simp] theorem State.jump_slu (s : State) (t : Fin 8) (pc : BitVec 15) : (s.jump t pc).slu = s.slu := rfl
@[simp] theorem State.jump_irq (s : State) (t : Fin 8) (pc : BitVec 15) : (s.jump t pc).irq = s.irq := rfl
@[simp] theorem State.jump_line (s : State) (t : Fin 8) (pc : BitVec 15) : (s.jump t pc).line = s.line := rfl
@[simp] theorem State.jump_tide (s : State) (t : Fin 8) (pc : BitVec 15) : (s.jump t pc).tide = s.tide := rfl
@[simp] theorem State.jump_cal (s : State) (t : Fin 8) (pc : BitVec 15) : (s.jump t pc).cal = s.cal := rfl
@[simp] theorem State.jump_sched (s : State) (t : Fin 8) (pc : BitVec 15) : (s.jump t pc).sched = s.sched := rfl
@[simp] theorem State.jump_tim (s : State) (t : Fin 8) (pc : BitVec 15) : (s.jump t pc).tim = s.tim := rfl
@[simp] theorem State.jump_pans (s : State) (t : Fin 8) (pc : BitVec 15) : (s.jump t pc).pans = s.pans := rfl
@[simp] theorem State.jump_flt (s : State) (t : Fin 8) (pc : BitVec 15) : (s.jump t pc).flt = s.flt := rfl
@[simp] theorem State.jump_alloc (s : State) (t : Fin 8) (pc : BitVec 15) : (s.jump t pc).alloc = s.alloc := rfl
@[simp] theorem State.jump_window (s : State) (t : Fin 8) (pc : BitVec 15) : (s.jump t pc).window = s.window := rfl
@[simp] theorem State.jump_windowFrom (s : State) (t : Fin 8) (pc : BitVec 15) : (s.jump t pc).windowFrom = s.windowFrom := rfl
@[simp] theorem State.jump_host (s : State) (t : Fin 8) (pc : BitVec 15) : (s.jump t pc).host = s.host := rfl
@[simp] theorem State.jump_otp (s : State) (t : Fin 8) (pc : BitVec 15) : (s.jump t pc).otp = s.otp := rfl
@[simp] theorem State.jump_mem (s : State) (t : Fin 8) (pc : BitVec 15) : (s.jump t pc).mem = s.mem := rfl
@[simp] theorem State.jump_out (s : State) (t : Fin 8) (pc : BitVec 15) : (s.jump t pc).out = s.out := rfl
@[simp] theorem State.jump_free (s : State) (t : Fin 8) (pc : BitVec 15) : (s.jump t pc).free = s.free := rfl
@[simp] theorem State.jump_pending (s : State) (t : Fin 8) (pc : BitVec 15) : (s.jump t pc).pending = s.pending := rfl

/-! ### updPort -/

@[simp] theorem State.updPort_sys (s : State) (port : LinePort) (f : PortState → PortState) : (s.updPort port f).sys = s.sys := by
  cases port <;> rfl
@[simp] theorem State.updPort_pow (s : State) (port : LinePort) (f : PortState → PortState) : (s.updPort port f).pow = s.pow := by
  cases port <;> rfl
@[simp] theorem State.updPort_slu (s : State) (port : LinePort) (f : PortState → PortState) : (s.updPort port f).slu = s.slu := by
  cases port <;> rfl
@[simp] theorem State.updPort_irq (s : State) (port : LinePort) (f : PortState → PortState) : (s.updPort port f).irq = s.irq := by
  cases port <;> rfl
@[simp] theorem State.updPort_tide (s : State) (port : LinePort) (f : PortState → PortState) : (s.updPort port f).tide = s.tide := by
  cases port <;> rfl
@[simp] theorem State.updPort_cal (s : State) (port : LinePort) (f : PortState → PortState) : (s.updPort port f).cal = s.cal := by
  cases port <;> rfl
@[simp] theorem State.updPort_sched (s : State) (port : LinePort) (f : PortState → PortState) : (s.updPort port f).sched = s.sched := by
  cases port <;> rfl
@[simp] theorem State.updPort_tim (s : State) (port : LinePort) (f : PortState → PortState) : (s.updPort port f).tim = s.tim := by
  cases port <;> rfl
@[simp] theorem State.updPort_eng (s : State) (port : LinePort) (f : PortState → PortState) : (s.updPort port f).eng = s.eng := by
  cases port <;> rfl
@[simp] theorem State.updPort_pans (s : State) (port : LinePort) (f : PortState → PortState) : (s.updPort port f).pans = s.pans := by
  cases port <;> rfl
@[simp] theorem State.updPort_flt (s : State) (port : LinePort) (f : PortState → PortState) : (s.updPort port f).flt = s.flt := by
  cases port <;> rfl
@[simp] theorem State.updPort_alloc (s : State) (port : LinePort) (f : PortState → PortState) : (s.updPort port f).alloc = s.alloc := by
  cases port <;> rfl
@[simp] theorem State.updPort_window (s : State) (port : LinePort) (f : PortState → PortState) : (s.updPort port f).window = s.window := by
  cases port <;> rfl
@[simp] theorem State.updPort_windowFrom (s : State) (port : LinePort) (f : PortState → PortState) : (s.updPort port f).windowFrom = s.windowFrom := by
  cases port <;> rfl
@[simp] theorem State.updPort_host (s : State) (port : LinePort) (f : PortState → PortState) : (s.updPort port f).host = s.host := by
  cases port <;> rfl
@[simp] theorem State.updPort_otp (s : State) (port : LinePort) (f : PortState → PortState) : (s.updPort port f).otp = s.otp := by
  cases port <;> rfl
@[simp] theorem State.updPort_mem (s : State) (port : LinePort) (f : PortState → PortState) : (s.updPort port f).mem = s.mem := by
  cases port <;> rfl
@[simp] theorem State.updPort_out (s : State) (port : LinePort) (f : PortState → PortState) : (s.updPort port f).out = s.out := by
  cases port <;> rfl
@[simp] theorem State.updPort_free (s : State) (port : LinePort) (f : PortState → PortState) : (s.updPort port f).free = s.free := by
  cases port <;> rfl
@[simp] theorem State.updPort_pending (s : State) (port : LinePort) (f : PortState → PortState) : (s.updPort port f).pending = s.pending := by
  cases port <;> rfl

/-- The changed port. -/
@[simp] theorem State.updPort_port_self (s : State) (port : LinePort) (f : PortState → PortState) :
    (s.updPort port f).port port = f (s.port port) := by cases port <;> rfl

/-- The other port. -/
theorem State.updPort_port_of_ne (s : State) (p q : LinePort) (f : PortState → PortState) (h : p ≠ q) :
    (s.updPort p f).port q = s.port q := by cases p <;> cases q <;> first | rfl | exact absurd rfl h

/-! ### mapHosts -/

@[simp] theorem State.mapHosts_sys (s : State) (f : HostState → HostState) : (s.mapHosts f).sys = s.sys := rfl
@[simp] theorem State.mapHosts_pow (s : State) (f : HostState → HostState) : (s.mapHosts f).pow = s.pow := rfl
@[simp] theorem State.mapHosts_slu (s : State) (f : HostState → HostState) : (s.mapHosts f).slu = s.slu := rfl
@[simp] theorem State.mapHosts_irq (s : State) (f : HostState → HostState) : (s.mapHosts f).irq = s.irq := rfl
@[simp] theorem State.mapHosts_line (s : State) (f : HostState → HostState) : (s.mapHosts f).line = s.line := rfl
@[simp] theorem State.mapHosts_tide (s : State) (f : HostState → HostState) : (s.mapHosts f).tide = s.tide := rfl
@[simp] theorem State.mapHosts_cal (s : State) (f : HostState → HostState) : (s.mapHosts f).cal = s.cal := rfl
@[simp] theorem State.mapHosts_sched (s : State) (f : HostState → HostState) : (s.mapHosts f).sched = s.sched := rfl
@[simp] theorem State.mapHosts_tim (s : State) (f : HostState → HostState) : (s.mapHosts f).tim = s.tim := rfl
@[simp] theorem State.mapHosts_eng (s : State) (f : HostState → HostState) : (s.mapHosts f).eng = s.eng := rfl
@[simp] theorem State.mapHosts_pans (s : State) (f : HostState → HostState) : (s.mapHosts f).pans = s.pans := rfl
@[simp] theorem State.mapHosts_flt (s : State) (f : HostState → HostState) : (s.mapHosts f).flt = s.flt := rfl
@[simp] theorem State.mapHosts_alloc (s : State) (f : HostState → HostState) : (s.mapHosts f).alloc = s.alloc := rfl
@[simp] theorem State.mapHosts_window (s : State) (f : HostState → HostState) : (s.mapHosts f).window = s.window := rfl
@[simp] theorem State.mapHosts_windowFrom (s : State) (f : HostState → HostState) : (s.mapHosts f).windowFrom = s.windowFrom := rfl
@[simp] theorem State.mapHosts_otp (s : State) (f : HostState → HostState) : (s.mapHosts f).otp = s.otp := rfl
@[simp] theorem State.mapHosts_mem (s : State) (f : HostState → HostState) : (s.mapHosts f).mem = s.mem := rfl
@[simp] theorem State.mapHosts_out (s : State) (f : HostState → HostState) : (s.mapHosts f).out = s.out := rfl
@[simp] theorem State.mapHosts_free (s : State) (f : HostState → HostState) : (s.mapHosts f).free = s.free := rfl
@[simp] theorem State.mapHosts_pending (s : State) (f : HostState → HostState) : (s.mapHosts f).pending = s.pending := rfl
@[simp] theorem State.mapHosts_host (s : State) (f : HostState → HostState) : (s.mapHosts f).host = tabMap s.host f := rfl

end Sys2Proof.Machine
end

