-- ==== Sys2Proof/Laws/Frame.lean ====
section
/-! SUPPORT. What an arrival, the end of a wait and the reported status leave alone: one lemma for each part of the state. -/

namespace Sys2Proof.Machine

/-- A fold whose steps keep a part of the state keeps it. -/
theorem foldl_keeps {α β : Type} (F : State → β) (f : State → α → State) (h : ∀ s x, F (f s x) = F s) :
    ∀ (l : List α) (s : State), F (l.foldl f s) = F s
  | [], _ => rfl
  | x :: l, s => by rw [List.foldl_cons, foldl_keeps F f h l, h]

/-! ### putG -/

@[simp] theorem State.putG_sys (s : State) (t : Fin 8) (n : Fin 16) (v : Word) : (s.putG t n v).sys = s.sys := by
  unfold State.putG; split <;> rfl
@[simp] theorem State.putG_pow (s : State) (t : Fin 8) (n : Fin 16) (v : Word) : (s.putG t n v).pow = s.pow := by
  unfold State.putG; split <;> rfl
@[simp] theorem State.putG_slu (s : State) (t : Fin 8) (n : Fin 16) (v : Word) : (s.putG t n v).slu = s.slu := by
  unfold State.putG; split <;> rfl
@[simp] theorem State.putG_irq (s : State) (t : Fin 8) (n : Fin 16) (v : Word) : (s.putG t n v).irq = s.irq := by
  unfold State.putG; split <;> rfl
@[simp] theorem State.putG_line (s : State) (t : Fin 8) (n : Fin 16) (v : Word) : (s.putG t n v).line = s.line := by
  unfold State.putG; split <;> rfl
@[simp] theorem State.putG_tide (s : State) (t : Fin 8) (n : Fin 16) (v : Word) : (s.putG t n v).tide = s.tide := by
  unfold State.putG; split <;> rfl
@[simp] theorem State.putG_cal (s : State) (t : Fin 8) (n : Fin 16) (v : Word) : (s.putG t n v).cal = s.cal := by
  unfold State.putG; split <;> rfl
@[simp] theorem State.putG_sched (s : State) (t : Fin 8) (n : Fin 16) (v : Word) : (s.putG t n v).sched = s.sched := by
  unfold State.putG; split <;> rfl
@[simp] theorem State.putG_tim (s : State) (t : Fin 8) (n : Fin 16) (v : Word) : (s.putG t n v).tim = s.tim := by
  unfold State.putG; split <;> rfl
@[simp] theorem State.putG_eng_tnow (s : State) (t : Fin 8) (n : Fin 16) (v : Word) : (s.putG t n v).eng.tnow = s.eng.tnow := by
  unfold State.putG; split <;> rfl
@[simp] theorem State.putG_eng_go (s : State) (t : Fin 8) (n : Fin 16) (v : Word) : (s.putG t n v).eng.go = s.eng.go := by
  unfold State.putG; split <;> rfl
@[simp] theorem State.putG_eng_romPan (s : State) (t : Fin 8) (n : Fin 16) (v : Word) : (s.putG t n v).eng.romPan = s.eng.romPan := by
  unfold State.putG; split <;> rfl
@[simp] theorem State.putG_eng_wdEn (s : State) (t : Fin 8) (n : Fin 16) (v : Word) : (s.putG t n v).eng.wdEn = s.eng.wdEn := by
  unfold State.putG; split <;> rfl
@[simp] theorem State.putG_eng_wdt (s : State) (t : Fin 8) (n : Fin 16) (v : Word) : (s.putG t n v).eng.wdt = s.eng.wdt := by
  unfold State.putG; split <;> rfl
@[simp] theorem State.putG_eng_wdLeft (s : State) (t : Fin 8) (n : Fin 16) (v : Word) : (s.putG t n v).eng.wdLeft = s.eng.wdLeft := by
  unfold State.putG; split <;> rfl
@[simp] theorem State.putG_eng_started (s : State) (t : Fin 8) (n : Fin 16) (v : Word) : (s.putG t n v).eng.started = s.eng.started := by
  unfold State.putG; split <;> rfl
@[simp] theorem State.putG_eng_auth (s : State) (t : Fin 8) (n : Fin 16) (v : Word) : (s.putG t n v).eng.auth = s.eng.auth := by
  unfold State.putG; split <;> rfl
@[simp] theorem State.putG_eng_imgLock (s : State) (t : Fin 8) (n : Fin 16) (v : Word) : (s.putG t n v).eng.imgLock = s.eng.imgLock := by
  unfold State.putG; split <;> rfl
@[simp] theorem State.putG_eng_cfgErr (s : State) (t : Fin 8) (n : Fin 16) (v : Word) : (s.putG t n v).eng.cfgErr = s.eng.cfgErr := by
  unfold State.putG; split <;> rfl
@[simp] theorem State.putG_eng_locks (s : State) (t : Fin 8) (n : Fin 16) (v : Word) : (s.putG t n v).eng.locks = s.eng.locks := by
  unfold State.putG; split <;> rfl
@[simp] theorem State.putG_eng_bp (s : State) (t : Fin 8) (n : Fin 16) (v : Word) : (s.putG t n v).eng.bp = s.eng.bp := by
  unfold State.putG; split <;> rfl
@[simp] theorem State.putG_eng_stock (s : State) (t : Fin 8) (n : Fin 16) (v : Word) : (s.putG t n v).eng.stock = s.eng.stock := by
  unfold State.putG; split <;> rfl
@[simp] theorem State.putG_pans (s : State) (t : Fin 8) (n : Fin 16) (v : Word) : (s.putG t n v).pans = s.pans := by
  unfold State.putG; split <;> rfl
@[simp] theorem State.putG_flt (s : State) (t : Fin 8) (n : Fin 16) (v : Word) : (s.putG t n v).flt = s.flt := by
  unfold State.putG; split <;> rfl
@[simp] theorem State.putG_alloc (s : State) (t : Fin 8) (n : Fin 16) (v : Word) : (s.putG t n v).alloc = s.alloc := by
  unfold State.putG; split <;> rfl
@[simp] theorem State.putG_window (s : State) (t : Fin 8) (n : Fin 16) (v : Word) : (s.putG t n v).window = s.window := by
  unfold State.putG; split <;> rfl
@[simp] theorem State.putG_windowFrom (s : State) (t : Fin 8) (n : Fin 16) (v : Word) : (s.putG t n v).windowFrom = s.windowFrom := by
  unfold State.putG; split <;> rfl
@[simp] theorem State.putG_host (s : State) (t : Fin 8) (n : Fin 16) (v : Word) : (s.putG t n v).host = s.host := by
  unfold State.putG; split <;> rfl
@[simp] theorem State.putG_otp (s : State) (t : Fin 8) (n : Fin 16) (v : Word) : (s.putG t n v).otp = s.otp := by
  unfold State.putG; split <;> rfl
@[simp] theorem State.putG_mem (s : State) (t : Fin 8) (n : Fin 16) (v : Word) : (s.putG t n v).mem = s.mem := by
  unfold State.putG; split <;> rfl
@[simp] theorem State.putG_out (s : State) (t : Fin 8) (n : Fin 16) (v : Word) : (s.putG t n v).out = s.out := by
  unfold State.putG; split <;> rfl
@[simp] theorem State.putG_free (s : State) (t : Fin 8) (n : Fin 16) (v : Word) : (s.putG t n v).free = s.free := by
  unfold State.putG; split <;> rfl
@[simp] theorem State.putG_pending (s : State) (t : Fin 8) (n : Fin 16) (v : Word) : (s.putG t n v).pending = s.pending := by
  unfold State.putG; split <;> rfl

/-! ### endWait -/

@[simp] theorem State.endWait_sys (s : State) (t : Fin 8) (rd : Fin 16) (v : Word) : (s.endWait t rd v).sys = s.sys := by
  simp [State.endWait]
@[simp] theorem State.endWait_pow (s : State) (t : Fin 8) (rd : Fin 16) (v : Word) : (s.endWait t rd v).pow = s.pow := by
  simp [State.endWait]
@[simp] theorem State.endWait_slu (s : State) (t : Fin 8) (rd : Fin 16) (v : Word) : (s.endWait t rd v).slu = s.slu := by
  simp [State.endWait]
@[simp] theorem State.endWait_irq (s : State) (t : Fin 8) (rd : Fin 16) (v : Word) : (s.endWait t rd v).irq = s.irq := by
  simp [State.endWait]
@[simp] theorem State.endWait_line (s : State) (t : Fin 8) (rd : Fin 16) (v : Word) : (s.endWait t rd v).line = s.line := by
  simp [State.endWait]
@[simp] theorem State.endWait_tide (s : State) (t : Fin 8) (rd : Fin 16) (v : Word) : (s.endWait t rd v).tide = s.tide := by
  simp [State.endWait]
@[simp] theorem State.endWait_cal (s : State) (t : Fin 8) (rd : Fin 16) (v : Word) : (s.endWait t rd v).cal = s.cal := by
  simp [State.endWait]
@[simp] theorem State.endWait_sched (s : State) (t : Fin 8) (rd : Fin 16) (v : Word) : (s.endWait t rd v).sched = s.sched := by
  simp [State.endWait]
@[simp] theorem State.endWait_tim (s : State) (t : Fin 8) (rd : Fin 16) (v : Word) : (s.endWait t rd v).tim = s.tim := by
  simp [State.endWait]
@[simp] theorem State.endWait_eng_tnow (s : State) (t : Fin 8) (rd : Fin 16) (v : Word) : (s.endWait t rd v).eng.tnow = s.eng.tnow := by
  simp [State.endWait]
@[simp] theorem State.endWait_eng_go (s : State) (t : Fin 8) (rd : Fin 16) (v : Word) : (s.endWait t rd v).eng.go = s.eng.go := by
  simp [State.endWait]
@[simp] theorem State.endWait_eng_romPan (s : State) (t : Fin 8) (rd : Fin 16) (v : Word) : (s.endWait t rd v).eng.romPan = s.eng.romPan := by
  simp [State.endWait]
@[simp] theorem State.endWait_eng_wdEn (s : State) (t : Fin 8) (rd : Fin 16) (v : Word) : (s.endWait t rd v).eng.wdEn = s.eng.wdEn := by
  simp [State.endWait]
@[simp] theorem State.endWait_eng_wdt (s : State) (t : Fin 8) (rd : Fin 16) (v : Word) : (s.endWait t rd v).eng.wdt = s.eng.wdt := by
  simp [State.endWait]
@[simp] theorem State.endWait_eng_wdLeft (s : State) (t : Fin 8) (rd : Fin 16) (v : Word) : (s.endWait t rd v).eng.wdLeft = s.eng.wdLeft := by
  simp [State.endWait]
@[simp] theorem State.endWait_eng_started (s : State) (t : Fin 8) (rd : Fin 16) (v : Word) : (s.endWait t rd v).eng.started = s.eng.started := by
  simp [State.endWait]
@[simp] theorem State.endWait_eng_auth (s : State) (t : Fin 8) (rd : Fin 16) (v : Word) : (s.endWait t rd v).eng.auth = s.eng.auth := by
  simp [State.endWait]
@[simp] theorem State.endWait_eng_imgLock (s : State) (t : Fin 8) (rd : Fin 16) (v : Word) : (s.endWait t rd v).eng.imgLock = s.eng.imgLock := by
  simp [State.endWait]
@[simp] theorem State.endWait_eng_cfgErr (s : State) (t : Fin 8) (rd : Fin 16) (v : Word) : (s.endWait t rd v).eng.cfgErr = s.eng.cfgErr := by
  simp [State.endWait]
@[simp] theorem State.endWait_eng_locks (s : State) (t : Fin 8) (rd : Fin 16) (v : Word) : (s.endWait t rd v).eng.locks = s.eng.locks := by
  simp [State.endWait]
@[simp] theorem State.endWait_eng_bp (s : State) (t : Fin 8) (rd : Fin 16) (v : Word) : (s.endWait t rd v).eng.bp = s.eng.bp := by
  simp [State.endWait]
@[simp] theorem State.endWait_eng_stock (s : State) (t : Fin 8) (rd : Fin 16) (v : Word) : (s.endWait t rd v).eng.stock = s.eng.stock := by
  simp [State.endWait]
@[simp] theorem State.endWait_pans (s : State) (t : Fin 8) (rd : Fin 16) (v : Word) : (s.endWait t rd v).pans = s.pans := by
  simp [State.endWait]
@[simp] theorem State.endWait_flt (s : State) (t : Fin 8) (rd : Fin 16) (v : Word) : (s.endWait t rd v).flt = s.flt := by
  simp [State.endWait]
@[simp] theorem State.endWait_alloc (s : State) (t : Fin 8) (rd : Fin 16) (v : Word) : (s.endWait t rd v).alloc = s.alloc := by
  simp [State.endWait]
@[simp] theorem State.endWait_window (s : State) (t : Fin 8) (rd : Fin 16) (v : Word) : (s.endWait t rd v).window = s.window := by
  simp [State.endWait]
@[simp] theorem State.endWait_windowFrom (s : State) (t : Fin 8) (rd : Fin 16) (v : Word) : (s.endWait t rd v).windowFrom = s.windowFrom := by
  simp [State.endWait]
@[simp] theorem State.endWait_host (s : State) (t : Fin 8) (rd : Fin 16) (v : Word) : (s.endWait t rd v).host = s.host := by
  simp [State.endWait]
@[simp] theorem State.endWait_otp (s : State) (t : Fin 8) (rd : Fin 16) (v : Word) : (s.endWait t rd v).otp = s.otp := by
  simp [State.endWait]
@[simp] theorem State.endWait_mem (s : State) (t : Fin 8) (rd : Fin 16) (v : Word) : (s.endWait t rd v).mem = s.mem := by
  simp [State.endWait]
@[simp] theorem State.endWait_out (s : State) (t : Fin 8) (rd : Fin 16) (v : Word) : (s.endWait t rd v).out = s.out := by
  simp [State.endWait]
@[simp] theorem State.endWait_free (s : State) (t : Fin 8) (rd : Fin 16) (v : Word) : (s.endWait t rd v).free = s.free := by
  simp [State.endWait]
@[simp] theorem State.endWait_pending (s : State) (t : Fin 8) (rd : Fin 16) (v : Word) : (s.endWait t rd v).pending = s.pending := by
  simp [State.endWait]

/-! ### checkWait -/

@[simp] theorem State.checkWait_sys (s : State) (t : Fin 8) : (s.checkWait t).sys = s.sys := by
  unfold State.checkWait State.takeEvents; split <;> try rfl
  dsimp only; split <;> simp
@[simp] theorem State.checkWait_pow (s : State) (t : Fin 8) : (s.checkWait t).pow = s.pow := by
  unfold State.checkWait State.takeEvents; split <;> try rfl
  dsimp only; split <;> simp
@[simp] theorem State.checkWait_slu (s : State) (t : Fin 8) : (s.checkWait t).slu = s.slu := by
  unfold State.checkWait State.takeEvents; split <;> try rfl
  dsimp only; split <;> simp
@[simp] theorem State.checkWait_irq (s : State) (t : Fin 8) : (s.checkWait t).irq = s.irq := by
  unfold State.checkWait State.takeEvents; split <;> try rfl
  dsimp only; split <;> simp
@[simp] theorem State.checkWait_line (s : State) (t : Fin 8) : (s.checkWait t).line = s.line := by
  unfold State.checkWait State.takeEvents; split <;> try rfl
  dsimp only; split <;> simp
@[simp] theorem State.checkWait_tide (s : State) (t : Fin 8) : (s.checkWait t).tide = s.tide := by
  unfold State.checkWait State.takeEvents; split <;> try rfl
  dsimp only; split <;> simp
@[simp] theorem State.checkWait_cal (s : State) (t : Fin 8) : (s.checkWait t).cal = s.cal := by
  unfold State.checkWait State.takeEvents; split <;> try rfl
  dsimp only; split <;> simp
@[simp] theorem State.checkWait_sched (s : State) (t : Fin 8) : (s.checkWait t).sched = s.sched := by
  unfold State.checkWait State.takeEvents; split <;> try rfl
  dsimp only; split <;> simp
@[simp] theorem State.checkWait_tim (s : State) (t : Fin 8) : (s.checkWait t).tim = s.tim := by
  unfold State.checkWait State.takeEvents; split <;> try rfl
  dsimp only; split <;> simp
@[simp] theorem State.checkWait_eng_tnow (s : State) (t : Fin 8) : (s.checkWait t).eng.tnow = s.eng.tnow := by
  unfold State.checkWait State.takeEvents; split <;> try rfl
  dsimp only; split <;> simp
@[simp] theorem State.checkWait_eng_go (s : State) (t : Fin 8) : (s.checkWait t).eng.go = s.eng.go := by
  unfold State.checkWait State.takeEvents; split <;> try rfl
  dsimp only; split <;> simp
@[simp] theorem State.checkWait_eng_romPan (s : State) (t : Fin 8) : (s.checkWait t).eng.romPan = s.eng.romPan := by
  unfold State.checkWait State.takeEvents; split <;> try rfl
  dsimp only; split <;> simp
@[simp] theorem State.checkWait_eng_wdEn (s : State) (t : Fin 8) : (s.checkWait t).eng.wdEn = s.eng.wdEn := by
  unfold State.checkWait State.takeEvents; split <;> try rfl
  dsimp only; split <;> simp
@[simp] theorem State.checkWait_eng_wdt (s : State) (t : Fin 8) : (s.checkWait t).eng.wdt = s.eng.wdt := by
  unfold State.checkWait State.takeEvents; split <;> try rfl
  dsimp only; split <;> simp
@[simp] theorem State.checkWait_eng_wdLeft (s : State) (t : Fin 8) : (s.checkWait t).eng.wdLeft = s.eng.wdLeft := by
  unfold State.checkWait State.takeEvents; split <;> try rfl
  dsimp only; split <;> simp
@[simp] theorem State.checkWait_eng_started (s : State) (t : Fin 8) : (s.checkWait t).eng.started = s.eng.started := by
  unfold State.checkWait State.takeEvents; split <;> try rfl
  dsimp only; split <;> simp
@[simp] theorem State.checkWait_eng_auth (s : State) (t : Fin 8) : (s.checkWait t).eng.auth = s.eng.auth := by
  unfold State.checkWait State.takeEvents; split <;> try rfl
  dsimp only; split <;> simp
@[simp] theorem State.checkWait_eng_imgLock (s : State) (t : Fin 8) : (s.checkWait t).eng.imgLock = s.eng.imgLock := by
  unfold State.checkWait State.takeEvents; split <;> try rfl
  dsimp only; split <;> simp
@[simp] theorem State.checkWait_eng_cfgErr (s : State) (t : Fin 8) : (s.checkWait t).eng.cfgErr = s.eng.cfgErr := by
  unfold State.checkWait State.takeEvents; split <;> try rfl
  dsimp only; split <;> simp
@[simp] theorem State.checkWait_eng_locks (s : State) (t : Fin 8) : (s.checkWait t).eng.locks = s.eng.locks := by
  unfold State.checkWait State.takeEvents; split <;> try rfl
  dsimp only; split <;> simp
@[simp] theorem State.checkWait_eng_bp (s : State) (t : Fin 8) : (s.checkWait t).eng.bp = s.eng.bp := by
  unfold State.checkWait State.takeEvents; split <;> try rfl
  dsimp only; split <;> simp
@[simp] theorem State.checkWait_eng_stock (s : State) (t : Fin 8) : (s.checkWait t).eng.stock = s.eng.stock := by
  unfold State.checkWait State.takeEvents; split <;> try rfl
  dsimp only; split <;> simp
@[simp] theorem State.checkWait_pans (s : State) (t : Fin 8) : (s.checkWait t).pans = s.pans := by
  unfold State.checkWait State.takeEvents; split <;> try rfl
  dsimp only; split <;> simp
@[simp] theorem State.checkWait_flt (s : State) (t : Fin 8) : (s.checkWait t).flt = s.flt := by
  unfold State.checkWait State.takeEvents; split <;> try rfl
  dsimp only; split <;> simp
@[simp] theorem State.checkWait_alloc (s : State) (t : Fin 8) : (s.checkWait t).alloc = s.alloc := by
  unfold State.checkWait State.takeEvents; split <;> try rfl
  dsimp only; split <;> simp
@[simp] theorem State.checkWait_window (s : State) (t : Fin 8) : (s.checkWait t).window = s.window := by
  unfold State.checkWait State.takeEvents; split <;> try rfl
  dsimp only; split <;> simp
@[simp] theorem State.checkWait_windowFrom (s : State) (t : Fin 8) : (s.checkWait t).windowFrom = s.windowFrom := by
  unfold State.checkWait State.takeEvents; split <;> try rfl
  dsimp only; split <;> simp
@[simp] theorem State.checkWait_host (s : State) (t : Fin 8) : (s.checkWait t).host = s.host := by
  unfold State.checkWait State.takeEvents; split <;> try rfl
  dsimp only; split <;> simp
@[simp] theorem State.checkWait_otp (s : State) (t : Fin 8) : (s.checkWait t).otp = s.otp := by
  unfold State.checkWait State.takeEvents; split <;> try rfl
  dsimp only; split <;> simp
@[simp] theorem State.checkWait_mem (s : State) (t : Fin 8) : (s.checkWait t).mem = s.mem := by
  unfold State.checkWait State.takeEvents; split <;> try rfl
  dsimp only; split <;> simp
@[simp] theorem State.checkWait_out (s : State) (t : Fin 8) : (s.checkWait t).out = s.out := by
  unfold State.checkWait State.takeEvents; split <;> try rfl
  dsimp only; split <;> simp
@[simp] theorem State.checkWait_free (s : State) (t : Fin 8) : (s.checkWait t).free = s.free := by
  unfold State.checkWait State.takeEvents; split <;> try rfl
  dsimp only; split <;> simp
@[simp] theorem State.checkWait_pending (s : State) (t : Fin 8) : (s.checkWait t).pending = s.pending := by
  unfold State.checkWait State.takeEvents; split <;> try rfl
  dsimp only; split <;> simp

/-! ### settleWaits -/

@[simp] theorem State.settleWaits_sys (s : State) : s.settleWaits.sys = s.sys := by
  unfold State.settleWaits; exact foldl_keeps (fun s => s.sys) _ (by simp) _ _
@[simp] theorem State.settleWaits_pow (s : State) : s.settleWaits.pow = s.pow := by
  unfold State.settleWaits; exact foldl_keeps (fun s => s.pow) _ (by simp) _ _
@[simp] theorem State.settleWaits_slu (s : State) : s.settleWaits.slu = s.slu := by
  unfold State.settleWaits; exact foldl_keeps (fun s => s.slu) _ (by simp) _ _
@[simp] theorem State.settleWaits_irq (s : State) : s.settleWaits.irq = s.irq := by
  unfold State.settleWaits; exact foldl_keeps (fun s => s.irq) _ (by simp) _ _
@[simp] theorem State.settleWaits_line (s : State) : s.settleWaits.line = s.line := by
  unfold State.settleWaits; exact foldl_keeps (fun s => s.line) _ (by simp) _ _
@[simp] theorem State.settleWaits_tide (s : State) : s.settleWaits.tide = s.tide := by
  unfold State.settleWaits; exact foldl_keeps (fun s => s.tide) _ (by simp) _ _
@[simp] theorem State.settleWaits_cal (s : State) : s.settleWaits.cal = s.cal := by
  unfold State.settleWaits; exact foldl_keeps (fun s => s.cal) _ (by simp) _ _
@[simp] theorem State.settleWaits_sched (s : State) : s.settleWaits.sched = s.sched := by
  unfold State.settleWaits; exact foldl_keeps (fun s => s.sched) _ (by simp) _ _
@[simp] theorem State.settleWaits_tim (s : State) : s.settleWaits.tim = s.tim := by
  unfold State.settleWaits; exact foldl_keeps (fun s => s.tim) _ (by simp) _ _
@[simp] theorem State.settleWaits_eng_tnow (s : State) : s.settleWaits.eng.tnow = s.eng.tnow := by
  unfold State.settleWaits; exact foldl_keeps (fun s => s.eng.tnow) _ (by simp) _ _
@[simp] theorem State.settleWaits_eng_go (s : State) : s.settleWaits.eng.go = s.eng.go := by
  unfold State.settleWaits; exact foldl_keeps (fun s => s.eng.go) _ (by simp) _ _
@[simp] theorem State.settleWaits_eng_romPan (s : State) : s.settleWaits.eng.romPan = s.eng.romPan := by
  unfold State.settleWaits; exact foldl_keeps (fun s => s.eng.romPan) _ (by simp) _ _
@[simp] theorem State.settleWaits_eng_wdEn (s : State) : s.settleWaits.eng.wdEn = s.eng.wdEn := by
  unfold State.settleWaits; exact foldl_keeps (fun s => s.eng.wdEn) _ (by simp) _ _
@[simp] theorem State.settleWaits_eng_wdt (s : State) : s.settleWaits.eng.wdt = s.eng.wdt := by
  unfold State.settleWaits; exact foldl_keeps (fun s => s.eng.wdt) _ (by simp) _ _
@[simp] theorem State.settleWaits_eng_wdLeft (s : State) : s.settleWaits.eng.wdLeft = s.eng.wdLeft := by
  unfold State.settleWaits; exact foldl_keeps (fun s => s.eng.wdLeft) _ (by simp) _ _
@[simp] theorem State.settleWaits_eng_started (s : State) : s.settleWaits.eng.started = s.eng.started := by
  unfold State.settleWaits; exact foldl_keeps (fun s => s.eng.started) _ (by simp) _ _
@[simp] theorem State.settleWaits_eng_auth (s : State) : s.settleWaits.eng.auth = s.eng.auth := by
  unfold State.settleWaits; exact foldl_keeps (fun s => s.eng.auth) _ (by simp) _ _
@[simp] theorem State.settleWaits_eng_imgLock (s : State) : s.settleWaits.eng.imgLock = s.eng.imgLock := by
  unfold State.settleWaits; exact foldl_keeps (fun s => s.eng.imgLock) _ (by simp) _ _
@[simp] theorem State.settleWaits_eng_cfgErr (s : State) : s.settleWaits.eng.cfgErr = s.eng.cfgErr := by
  unfold State.settleWaits; exact foldl_keeps (fun s => s.eng.cfgErr) _ (by simp) _ _
@[simp] theorem State.settleWaits_eng_locks (s : State) : s.settleWaits.eng.locks = s.eng.locks := by
  unfold State.settleWaits; exact foldl_keeps (fun s => s.eng.locks) _ (by simp) _ _
@[simp] theorem State.settleWaits_eng_bp (s : State) : s.settleWaits.eng.bp = s.eng.bp := by
  unfold State.settleWaits; exact foldl_keeps (fun s => s.eng.bp) _ (by simp) _ _
@[simp] theorem State.settleWaits_eng_stock (s : State) : s.settleWaits.eng.stock = s.eng.stock := by
  unfold State.settleWaits; exact foldl_keeps (fun s => s.eng.stock) _ (by simp) _ _
@[simp] theorem State.settleWaits_pans (s : State) : s.settleWaits.pans = s.pans := by
  unfold State.settleWaits; exact foldl_keeps (fun s => s.pans) _ (by simp) _ _
@[simp] theorem State.settleWaits_flt (s : State) : s.settleWaits.flt = s.flt := by
  unfold State.settleWaits; exact foldl_keeps (fun s => s.flt) _ (by simp) _ _
@[simp] theorem State.settleWaits_alloc (s : State) : s.settleWaits.alloc = s.alloc := by
  unfold State.settleWaits; exact foldl_keeps (fun s => s.alloc) _ (by simp) _ _
@[simp] theorem State.settleWaits_window (s : State) : s.settleWaits.window = s.window := by
  unfold State.settleWaits; exact foldl_keeps (fun s => s.window) _ (by simp) _ _
@[simp] theorem State.settleWaits_windowFrom (s : State) : s.settleWaits.windowFrom = s.windowFrom := by
  unfold State.settleWaits; exact foldl_keeps (fun s => s.windowFrom) _ (by simp) _ _
@[simp] theorem State.settleWaits_host (s : State) : s.settleWaits.host = s.host := by
  unfold State.settleWaits; exact foldl_keeps (fun s => s.host) _ (by simp) _ _
@[simp] theorem State.settleWaits_otp (s : State) : s.settleWaits.otp = s.otp := by
  unfold State.settleWaits; exact foldl_keeps (fun s => s.otp) _ (by simp) _ _
@[simp] theorem State.settleWaits_mem (s : State) : s.settleWaits.mem = s.mem := by
  unfold State.settleWaits; exact foldl_keeps (fun s => s.mem) _ (by simp) _ _
@[simp] theorem State.settleWaits_out (s : State) : s.settleWaits.out = s.out := by
  unfold State.settleWaits; exact foldl_keeps (fun s => s.out) _ (by simp) _ _
@[simp] theorem State.settleWaits_free (s : State) : s.settleWaits.free = s.free := by
  unfold State.settleWaits; exact foldl_keeps (fun s => s.free) _ (by simp) _ _
@[simp] theorem State.settleWaits_pending (s : State) : s.settleWaits.pending = s.pending := by
  unfold State.settleWaits; exact foldl_keeps (fun s => s.pending) _ (by simp) _ _

/-! ### setEvent -/

@[simp] theorem State.setEvent_sys (s : State) (t : Fin 8) (b : Nat) : (s.setEvent t b).sys = s.sys := by
  simp [State.setEvent]
@[simp] theorem State.setEvent_pow (s : State) (t : Fin 8) (b : Nat) : (s.setEvent t b).pow = s.pow := by
  simp [State.setEvent]
@[simp] theorem State.setEvent_slu (s : State) (t : Fin 8) (b : Nat) : (s.setEvent t b).slu = s.slu := by
  simp [State.setEvent]
@[simp] theorem State.setEvent_irq (s : State) (t : Fin 8) (b : Nat) : (s.setEvent t b).irq = s.irq := by
  simp [State.setEvent]
@[simp] theorem State.setEvent_line (s : State) (t : Fin 8) (b : Nat) : (s.setEvent t b).line = s.line := by
  simp [State.setEvent]
@[simp] theorem State.setEvent_tide (s : State) (t : Fin 8) (b : Nat) : (s.setEvent t b).tide = s.tide := by
  simp [State.setEvent]
@[simp] theorem State.setEvent_cal (s : State) (t : Fin 8) (b : Nat) : (s.setEvent t b).cal = s.cal := by
  simp [State.setEvent]
@[simp] theorem State.setEvent_sched (s : State) (t : Fin 8) (b : Nat) : (s.setEvent t b).sched = s.sched := by
  simp [State.setEvent]
@[simp] theorem State.setEvent_tim (s : State) (t : Fin 8) (b : Nat) : (s.setEvent t b).tim = s.tim := by
  simp [State.setEvent]
@[simp] theorem State.setEvent_eng_tnow (s : State) (t : Fin 8) (b : Nat) : (s.setEvent t b).eng.tnow = s.eng.tnow := by
  simp [State.setEvent]
@[simp] theorem State.setEvent_eng_go (s : State) (t : Fin 8) (b : Nat) : (s.setEvent t b).eng.go = s.eng.go := by
  simp [State.setEvent]
@[simp] theorem State.setEvent_eng_romPan (s : State) (t : Fin 8) (b : Nat) : (s.setEvent t b).eng.romPan = s.eng.romPan := by
  simp [State.setEvent]
@[simp] theorem State.setEvent_eng_wdEn (s : State) (t : Fin 8) (b : Nat) : (s.setEvent t b).eng.wdEn = s.eng.wdEn := by
  simp [State.setEvent]
@[simp] theorem State.setEvent_eng_wdt (s : State) (t : Fin 8) (b : Nat) : (s.setEvent t b).eng.wdt = s.eng.wdt := by
  simp [State.setEvent]
@[simp] theorem State.setEvent_eng_wdLeft (s : State) (t : Fin 8) (b : Nat) : (s.setEvent t b).eng.wdLeft = s.eng.wdLeft := by
  simp [State.setEvent]
@[simp] theorem State.setEvent_eng_started (s : State) (t : Fin 8) (b : Nat) : (s.setEvent t b).eng.started = s.eng.started := by
  simp [State.setEvent]
@[simp] theorem State.setEvent_eng_auth (s : State) (t : Fin 8) (b : Nat) : (s.setEvent t b).eng.auth = s.eng.auth := by
  simp [State.setEvent]
@[simp] theorem State.setEvent_eng_imgLock (s : State) (t : Fin 8) (b : Nat) : (s.setEvent t b).eng.imgLock = s.eng.imgLock := by
  simp [State.setEvent]
@[simp] theorem State.setEvent_eng_cfgErr (s : State) (t : Fin 8) (b : Nat) : (s.setEvent t b).eng.cfgErr = s.eng.cfgErr := by
  simp [State.setEvent]
@[simp] theorem State.setEvent_eng_locks (s : State) (t : Fin 8) (b : Nat) : (s.setEvent t b).eng.locks = s.eng.locks := by
  simp [State.setEvent]
@[simp] theorem State.setEvent_eng_bp (s : State) (t : Fin 8) (b : Nat) : (s.setEvent t b).eng.bp = s.eng.bp := by
  simp [State.setEvent]
@[simp] theorem State.setEvent_eng_stock (s : State) (t : Fin 8) (b : Nat) : (s.setEvent t b).eng.stock = s.eng.stock := by
  simp [State.setEvent]
@[simp] theorem State.setEvent_pans (s : State) (t : Fin 8) (b : Nat) : (s.setEvent t b).pans = s.pans := by
  simp [State.setEvent]
@[simp] theorem State.setEvent_flt (s : State) (t : Fin 8) (b : Nat) : (s.setEvent t b).flt = s.flt := by
  simp [State.setEvent]
@[simp] theorem State.setEvent_alloc (s : State) (t : Fin 8) (b : Nat) : (s.setEvent t b).alloc = s.alloc := by
  simp [State.setEvent]
@[simp] theorem State.setEvent_window (s : State) (t : Fin 8) (b : Nat) : (s.setEvent t b).window = s.window := by
  simp [State.setEvent]
@[simp] theorem State.setEvent_windowFrom (s : State) (t : Fin 8) (b : Nat) : (s.setEvent t b).windowFrom = s.windowFrom := by
  simp [State.setEvent]
@[simp] theorem State.setEvent_host (s : State) (t : Fin 8) (b : Nat) : (s.setEvent t b).host = s.host := by
  simp [State.setEvent]
@[simp] theorem State.setEvent_otp (s : State) (t : Fin 8) (b : Nat) : (s.setEvent t b).otp = s.otp := by
  simp [State.setEvent]
@[simp] theorem State.setEvent_mem (s : State) (t : Fin 8) (b : Nat) : (s.setEvent t b).mem = s.mem := by
  simp [State.setEvent]
@[simp] theorem State.setEvent_out (s : State) (t : Fin 8) (b : Nat) : (s.setEvent t b).out = s.out := by
  simp [State.setEvent]
@[simp] theorem State.setEvent_free (s : State) (t : Fin 8) (b : Nat) : (s.setEvent t b).free = s.free := by
  simp [State.setEvent]
@[simp] theorem State.setEvent_pending (s : State) (t : Fin 8) (b : Nat) : (s.setEvent t b).pending = s.pending := by
  simp [State.setEvent]

/-! ### arrive -/

@[simp] theorem State.arrive_sys (s : State) (k : Nat) : (s.arrive k).sys = s.sys := by
  unfold State.arrive; split <;> (try split) <;> simp
@[simp] theorem State.arrive_pow (s : State) (k : Nat) : (s.arrive k).pow = s.pow := by
  unfold State.arrive; split <;> (try split) <;> simp
@[simp] theorem State.arrive_slu (s : State) (k : Nat) : (s.arrive k).slu = s.slu := by
  unfold State.arrive; split <;> (try split) <;> simp
@[simp] theorem State.arrive_line (s : State) (k : Nat) : (s.arrive k).line = s.line := by
  unfold State.arrive; split <;> (try split) <;> simp
@[simp] theorem State.arrive_tide (s : State) (k : Nat) : (s.arrive k).tide = s.tide := by
  unfold State.arrive; split <;> (try split) <;> simp
@[simp] theorem State.arrive_cal (s : State) (k : Nat) : (s.arrive k).cal = s.cal := by
  unfold State.arrive; split <;> (try split) <;> simp
@[simp] theorem State.arrive_sched (s : State) (k : Nat) : (s.arrive k).sched = s.sched := by
  unfold State.arrive; split <;> (try split) <;> simp
@[simp] theorem State.arrive_tim (s : State) (k : Nat) : (s.arrive k).tim = s.tim := by
  unfold State.arrive; split <;> (try split) <;> simp
@[simp] theorem State.arrive_eng_tnow (s : State) (k : Nat) : (s.arrive k).eng.tnow = s.eng.tnow := by
  unfold State.arrive; split <;> (try split) <;> simp
@[simp] theorem State.arrive_eng_go (s : State) (k : Nat) : (s.arrive k).eng.go = s.eng.go := by
  unfold State.arrive; split <;> (try split) <;> simp
@[simp] theorem State.arrive_eng_romPan (s : State) (k : Nat) : (s.arrive k).eng.romPan = s.eng.romPan := by
  unfold State.arrive; split <;> (try split) <;> simp
@[simp] theorem State.arrive_eng_wdEn (s : State) (k : Nat) : (s.arrive k).eng.wdEn = s.eng.wdEn := by
  unfold State.arrive; split <;> (try split) <;> simp
@[simp] theorem State.arrive_eng_wdt (s : State) (k : Nat) : (s.arrive k).eng.wdt = s.eng.wdt := by
  unfold State.arrive; split <;> (try split) <;> simp
@[simp] theorem State.arrive_eng_wdLeft (s : State) (k : Nat) : (s.arrive k).eng.wdLeft = s.eng.wdLeft := by
  unfold State.arrive; split <;> (try split) <;> simp
@[simp] theorem State.arrive_eng_started (s : State) (k : Nat) : (s.arrive k).eng.started = s.eng.started := by
  unfold State.arrive; split <;> (try split) <;> simp
@[simp] theorem State.arrive_eng_auth (s : State) (k : Nat) : (s.arrive k).eng.auth = s.eng.auth := by
  unfold State.arrive; split <;> (try split) <;> simp
@[simp] theorem State.arrive_eng_imgLock (s : State) (k : Nat) : (s.arrive k).eng.imgLock = s.eng.imgLock := by
  unfold State.arrive; split <;> (try split) <;> simp
@[simp] theorem State.arrive_eng_cfgErr (s : State) (k : Nat) : (s.arrive k).eng.cfgErr = s.eng.cfgErr := by
  unfold State.arrive; split <;> (try split) <;> simp
@[simp] theorem State.arrive_eng_locks (s : State) (k : Nat) : (s.arrive k).eng.locks = s.eng.locks := by
  unfold State.arrive; split <;> (try split) <;> simp
@[simp] theorem State.arrive_eng_bp (s : State) (k : Nat) : (s.arrive k).eng.bp = s.eng.bp := by
  unfold State.arrive; split <;> (try split) <;> simp
@[simp] theorem State.arrive_eng_stock (s : State) (k : Nat) : (s.arrive k).eng.stock = s.eng.stock := by
  unfold State.arrive; split <;> (try split) <;> simp
@[simp] theorem State.arrive_pans (s : State) (k : Nat) : (s.arrive k).pans = s.pans := by
  unfold State.arrive; split <;> (try split) <;> simp
@[simp] theorem State.arrive_flt (s : State) (k : Nat) : (s.arrive k).flt = s.flt := by
  unfold State.arrive; split <;> (try split) <;> simp
@[simp] theorem State.arrive_alloc (s : State) (k : Nat) : (s.arrive k).alloc = s.alloc := by
  unfold State.arrive; split <;> (try split) <;> simp
@[simp] theorem State.arrive_window (s : State) (k : Nat) : (s.arrive k).window = s.window := by
  unfold State.arrive; split <;> (try split) <;> simp
@[simp] theorem State.arrive_windowFrom (s : State) (k : Nat) : (s.arrive k).windowFrom = s.windowFrom := by
  unfold State.arrive; split <;> (try split) <;> simp
@[simp] theorem State.arrive_host (s : State) (k : Nat) : (s.arrive k).host = s.host := by
  unfold State.arrive; split <;> (try split) <;> simp
@[simp] theorem State.arrive_otp (s : State) (k : Nat) : (s.arrive k).otp = s.otp := by
  unfold State.arrive; split <;> (try split) <;> simp
@[simp] theorem State.arrive_mem (s : State) (k : Nat) : (s.arrive k).mem = s.mem := by
  unfold State.arrive; split <;> (try split) <;> simp
@[simp] theorem State.arrive_out (s : State) (k : Nat) : (s.arrive k).out = s.out := by
  unfold State.arrive; split <;> (try split) <;> simp
@[simp] theorem State.arrive_free (s : State) (k : Nat) : (s.arrive k).free = s.free := by
  unfold State.arrive; split <;> (try split) <;> simp
@[simp] theorem State.arrive_pending (s : State) (k : Nat) : (s.arrive k).pending = s.pending := by
  unfold State.arrive; split <;> (try split) <;> simp

/-! ### flushDeferred -/

@[simp] theorem State.flushDeferred_sys (s : State) : s.flushDeferred.sys = s.sys := by
  unfold State.flushDeferred; exact (foldl_keeps (fun s => s.sys) _ (by simp) _ _).trans (by simp)
@[simp] theorem State.flushDeferred_pow (s : State) : s.flushDeferred.pow = s.pow := by
  unfold State.flushDeferred; exact (foldl_keeps (fun s => s.pow) _ (by simp) _ _).trans (by simp)
@[simp] theorem State.flushDeferred_slu (s : State) : s.flushDeferred.slu = s.slu := by
  unfold State.flushDeferred; exact (foldl_keeps (fun s => s.slu) _ (by simp) _ _).trans (by simp)
@[simp] theorem State.flushDeferred_line (s : State) : s.flushDeferred.line = s.line := by
  unfold State.flushDeferred; exact (foldl_keeps (fun s => s.line) _ (by simp) _ _).trans (by simp)
@[simp] theorem State.flushDeferred_tide (s : State) : s.flushDeferred.tide = s.tide := by
  unfold State.flushDeferred; exact (foldl_keeps (fun s => s.tide) _ (by simp) _ _).trans (by simp)
@[simp] theorem State.flushDeferred_cal (s : State) : s.flushDeferred.cal = s.cal := by
  unfold State.flushDeferred; exact (foldl_keeps (fun s => s.cal) _ (by simp) _ _).trans (by simp)
@[simp] theorem State.flushDeferred_sched (s : State) : s.flushDeferred.sched = s.sched := by
  unfold State.flushDeferred; exact (foldl_keeps (fun s => s.sched) _ (by simp) _ _).trans (by simp)
@[simp] theorem State.flushDeferred_tim (s : State) : s.flushDeferred.tim = s.tim := by
  unfold State.flushDeferred; exact (foldl_keeps (fun s => s.tim) _ (by simp) _ _).trans (by simp)
@[simp] theorem State.flushDeferred_eng_tnow (s : State) : s.flushDeferred.eng.tnow = s.eng.tnow := by
  unfold State.flushDeferred; exact (foldl_keeps (fun s => s.eng.tnow) _ (by simp) _ _).trans (by simp)
@[simp] theorem State.flushDeferred_eng_go (s : State) : s.flushDeferred.eng.go = s.eng.go := by
  unfold State.flushDeferred; exact (foldl_keeps (fun s => s.eng.go) _ (by simp) _ _).trans (by simp)
@[simp] theorem State.flushDeferred_eng_romPan (s : State) : s.flushDeferred.eng.romPan = s.eng.romPan := by
  unfold State.flushDeferred; exact (foldl_keeps (fun s => s.eng.romPan) _ (by simp) _ _).trans (by simp)
@[simp] theorem State.flushDeferred_eng_wdEn (s : State) : s.flushDeferred.eng.wdEn = s.eng.wdEn := by
  unfold State.flushDeferred; exact (foldl_keeps (fun s => s.eng.wdEn) _ (by simp) _ _).trans (by simp)
@[simp] theorem State.flushDeferred_eng_wdt (s : State) : s.flushDeferred.eng.wdt = s.eng.wdt := by
  unfold State.flushDeferred; exact (foldl_keeps (fun s => s.eng.wdt) _ (by simp) _ _).trans (by simp)
@[simp] theorem State.flushDeferred_eng_wdLeft (s : State) : s.flushDeferred.eng.wdLeft = s.eng.wdLeft := by
  unfold State.flushDeferred; exact (foldl_keeps (fun s => s.eng.wdLeft) _ (by simp) _ _).trans (by simp)
@[simp] theorem State.flushDeferred_eng_started (s : State) : s.flushDeferred.eng.started = s.eng.started := by
  unfold State.flushDeferred; exact (foldl_keeps (fun s => s.eng.started) _ (by simp) _ _).trans (by simp)
@[simp] theorem State.flushDeferred_eng_auth (s : State) : s.flushDeferred.eng.auth = s.eng.auth := by
  unfold State.flushDeferred; exact (foldl_keeps (fun s => s.eng.auth) _ (by simp) _ _).trans (by simp)
@[simp] theorem State.flushDeferred_eng_imgLock (s : State) : s.flushDeferred.eng.imgLock = s.eng.imgLock := by
  unfold State.flushDeferred; exact (foldl_keeps (fun s => s.eng.imgLock) _ (by simp) _ _).trans (by simp)
@[simp] theorem State.flushDeferred_eng_cfgErr (s : State) : s.flushDeferred.eng.cfgErr = s.eng.cfgErr := by
  unfold State.flushDeferred; exact (foldl_keeps (fun s => s.eng.cfgErr) _ (by simp) _ _).trans (by simp)
@[simp] theorem State.flushDeferred_eng_locks (s : State) : s.flushDeferred.eng.locks = s.eng.locks := by
  unfold State.flushDeferred; exact (foldl_keeps (fun s => s.eng.locks) _ (by simp) _ _).trans (by simp)
@[simp] theorem State.flushDeferred_eng_bp (s : State) : s.flushDeferred.eng.bp = s.eng.bp := by
  unfold State.flushDeferred; exact (foldl_keeps (fun s => s.eng.bp) _ (by simp) _ _).trans (by simp)
@[simp] theorem State.flushDeferred_eng_stock (s : State) : s.flushDeferred.eng.stock = s.eng.stock := by
  unfold State.flushDeferred; exact (foldl_keeps (fun s => s.eng.stock) _ (by simp) _ _).trans (by simp)
@[simp] theorem State.flushDeferred_pans (s : State) : s.flushDeferred.pans = s.pans := by
  unfold State.flushDeferred; exact (foldl_keeps (fun s => s.pans) _ (by simp) _ _).trans (by simp)
@[simp] theorem State.flushDeferred_flt (s : State) : s.flushDeferred.flt = s.flt := by
  unfold State.flushDeferred; exact (foldl_keeps (fun s => s.flt) _ (by simp) _ _).trans (by simp)
@[simp] theorem State.flushDeferred_alloc (s : State) : s.flushDeferred.alloc = s.alloc := by
  unfold State.flushDeferred; exact (foldl_keeps (fun s => s.alloc) _ (by simp) _ _).trans (by simp)
@[simp] theorem State.flushDeferred_window (s : State) : s.flushDeferred.window = s.window := by
  unfold State.flushDeferred; exact (foldl_keeps (fun s => s.window) _ (by simp) _ _).trans (by simp)
@[simp] theorem State.flushDeferred_windowFrom (s : State) : s.flushDeferred.windowFrom = s.windowFrom := by
  unfold State.flushDeferred; exact (foldl_keeps (fun s => s.windowFrom) _ (by simp) _ _).trans (by simp)
@[simp] theorem State.flushDeferred_host (s : State) : s.flushDeferred.host = s.host := by
  unfold State.flushDeferred; exact (foldl_keeps (fun s => s.host) _ (by simp) _ _).trans (by simp)
@[simp] theorem State.flushDeferred_otp (s : State) : s.flushDeferred.otp = s.otp := by
  unfold State.flushDeferred; exact (foldl_keeps (fun s => s.otp) _ (by simp) _ _).trans (by simp)
@[simp] theorem State.flushDeferred_mem (s : State) : s.flushDeferred.mem = s.mem := by
  unfold State.flushDeferred; exact (foldl_keeps (fun s => s.mem) _ (by simp) _ _).trans (by simp)
@[simp] theorem State.flushDeferred_out (s : State) : s.flushDeferred.out = s.out := by
  unfold State.flushDeferred; exact (foldl_keeps (fun s => s.out) _ (by simp) _ _).trans (by simp)
@[simp] theorem State.flushDeferred_free (s : State) : s.flushDeferred.free = s.free := by
  unfold State.flushDeferred; exact (foldl_keeps (fun s => s.free) _ (by simp) _ _).trans (by simp)
@[simp] theorem State.flushDeferred_pending (s : State) : s.flushDeferred.pending = s.pending := by
  unfold State.flushDeferred; exact (foldl_keeps (fun s => s.pending) _ (by simp) _ _).trans (by simp)

/-! ### panFault -/

@[simp] theorem State.panFault_sys (s : State) (n : Fin 4) (b : Nat) : (s.panFault n b).sys = s.sys := by
  simp [State.panFault]
@[simp] theorem State.panFault_pow (s : State) (n : Fin 4) (b : Nat) : (s.panFault n b).pow = s.pow := by
  simp [State.panFault]
@[simp] theorem State.panFault_slu (s : State) (n : Fin 4) (b : Nat) : (s.panFault n b).slu = s.slu := by
  simp [State.panFault]
@[simp] theorem State.panFault_line (s : State) (n : Fin 4) (b : Nat) : (s.panFault n b).line = s.line := by
  simp [State.panFault]
@[simp] theorem State.panFault_tide (s : State) (n : Fin 4) (b : Nat) : (s.panFault n b).tide = s.tide := by
  simp [State.panFault]
@[simp] theorem State.panFault_cal (s : State) (n : Fin 4) (b : Nat) : (s.panFault n b).cal = s.cal := by
  simp [State.panFault]
@[simp] theorem State.panFault_sched (s : State) (n : Fin 4) (b : Nat) : (s.panFault n b).sched = s.sched := by
  simp [State.panFault]
@[simp] theorem State.panFault_tim (s : State) (n : Fin 4) (b : Nat) : (s.panFault n b).tim = s.tim := by
  simp [State.panFault]
@[simp] theorem State.panFault_eng_tnow (s : State) (n : Fin 4) (b : Nat) : (s.panFault n b).eng.tnow = s.eng.tnow := by
  simp [State.panFault]
@[simp] theorem State.panFault_eng_go (s : State) (n : Fin 4) (b : Nat) : (s.panFault n b).eng.go = s.eng.go := by
  simp [State.panFault]
@[simp] theorem State.panFault_eng_romPan (s : State) (n : Fin 4) (b : Nat) : (s.panFault n b).eng.romPan = s.eng.romPan := by
  simp [State.panFault]
@[simp] theorem State.panFault_eng_wdEn (s : State) (n : Fin 4) (b : Nat) : (s.panFault n b).eng.wdEn = s.eng.wdEn := by
  simp [State.panFault]
@[simp] theorem State.panFault_eng_wdt (s : State) (n : Fin 4) (b : Nat) : (s.panFault n b).eng.wdt = s.eng.wdt := by
  simp [State.panFault]
@[simp] theorem State.panFault_eng_wdLeft (s : State) (n : Fin 4) (b : Nat) : (s.panFault n b).eng.wdLeft = s.eng.wdLeft := by
  simp [State.panFault]
@[simp] theorem State.panFault_eng_started (s : State) (n : Fin 4) (b : Nat) : (s.panFault n b).eng.started = s.eng.started := by
  simp [State.panFault]
@[simp] theorem State.panFault_eng_auth (s : State) (n : Fin 4) (b : Nat) : (s.panFault n b).eng.auth = s.eng.auth := by
  simp [State.panFault]
@[simp] theorem State.panFault_eng_imgLock (s : State) (n : Fin 4) (b : Nat) : (s.panFault n b).eng.imgLock = s.eng.imgLock := by
  simp [State.panFault]
@[simp] theorem State.panFault_eng_cfgErr (s : State) (n : Fin 4) (b : Nat) : (s.panFault n b).eng.cfgErr = s.eng.cfgErr := by
  simp [State.panFault]
@[simp] theorem State.panFault_eng_locks (s : State) (n : Fin 4) (b : Nat) : (s.panFault n b).eng.locks = s.eng.locks := by
  simp [State.panFault]
@[simp] theorem State.panFault_eng_bp (s : State) (n : Fin 4) (b : Nat) : (s.panFault n b).eng.bp = s.eng.bp := by
  simp [State.panFault]
@[simp] theorem State.panFault_eng_stock (s : State) (n : Fin 4) (b : Nat) : (s.panFault n b).eng.stock = s.eng.stock := by
  simp [State.panFault]
@[simp] theorem State.panFault_flt (s : State) (n : Fin 4) (b : Nat) : (s.panFault n b).flt = s.flt := by
  simp [State.panFault]
@[simp] theorem State.panFault_alloc (s : State) (n : Fin 4) (b : Nat) : (s.panFault n b).alloc = s.alloc := by
  simp [State.panFault]
@[simp] theorem State.panFault_window (s : State) (n : Fin 4) (b : Nat) : (s.panFault n b).window = s.window := by
  simp [State.panFault]
@[simp] theorem State.panFault_windowFrom (s : State) (n : Fin 4) (b : Nat) : (s.panFault n b).windowFrom = s.windowFrom := by
  simp [State.panFault]
@[simp] theorem State.panFault_host (s : State) (n : Fin 4) (b : Nat) : (s.panFault n b).host = s.host := by
  simp [State.panFault]
@[simp] theorem State.panFault_otp (s : State) (n : Fin 4) (b : Nat) : (s.panFault n b).otp = s.otp := by
  simp [State.panFault]
@[simp] theorem State.panFault_mem (s : State) (n : Fin 4) (b : Nat) : (s.panFault n b).mem = s.mem := by
  simp [State.panFault]
@[simp] theorem State.panFault_out (s : State) (n : Fin 4) (b : Nat) : (s.panFault n b).out = s.out := by
  simp [State.panFault]
@[simp] theorem State.panFault_free (s : State) (n : Fin 4) (b : Nat) : (s.panFault n b).free = s.free := by
  simp [State.panFault]
@[simp] theorem State.panFault_pending (s : State) (n : Fin 4) (b : Nat) : (s.panFault n b).pending = s.pending := by
  simp [State.panFault]

/-! ### panFaults -/

@[simp] theorem State.panFaults_sys (s : State) (ns : List (Fin 4)) (b : Nat) : (s.panFaults ns b).sys = s.sys := by
  unfold State.panFaults; exact foldl_keeps (fun s => s.sys) _ (by simp) _ _
@[simp] theorem State.panFaults_pow (s : State) (ns : List (Fin 4)) (b : Nat) : (s.panFaults ns b).pow = s.pow := by
  unfold State.panFaults; exact foldl_keeps (fun s => s.pow) _ (by simp) _ _
@[simp] theorem State.panFaults_slu (s : State) (ns : List (Fin 4)) (b : Nat) : (s.panFaults ns b).slu = s.slu := by
  unfold State.panFaults; exact foldl_keeps (fun s => s.slu) _ (by simp) _ _
@[simp] theorem State.panFaults_line (s : State) (ns : List (Fin 4)) (b : Nat) : (s.panFaults ns b).line = s.line := by
  unfold State.panFaults; exact foldl_keeps (fun s => s.line) _ (by simp) _ _
@[simp] theorem State.panFaults_tide (s : State) (ns : List (Fin 4)) (b : Nat) : (s.panFaults ns b).tide = s.tide := by
  unfold State.panFaults; exact foldl_keeps (fun s => s.tide) _ (by simp) _ _
@[simp] theorem State.panFaults_cal (s : State) (ns : List (Fin 4)) (b : Nat) : (s.panFaults ns b).cal = s.cal := by
  unfold State.panFaults; exact foldl_keeps (fun s => s.cal) _ (by simp) _ _
@[simp] theorem State.panFaults_sched (s : State) (ns : List (Fin 4)) (b : Nat) : (s.panFaults ns b).sched = s.sched := by
  unfold State.panFaults; exact foldl_keeps (fun s => s.sched) _ (by simp) _ _
@[simp] theorem State.panFaults_tim (s : State) (ns : List (Fin 4)) (b : Nat) : (s.panFaults ns b).tim = s.tim := by
  unfold State.panFaults; exact foldl_keeps (fun s => s.tim) _ (by simp) _ _
@[simp] theorem State.panFaults_eng_tnow (s : State) (ns : List (Fin 4)) (b : Nat) : (s.panFaults ns b).eng.tnow = s.eng.tnow := by
  unfold State.panFaults; exact foldl_keeps (fun s => s.eng.tnow) _ (by simp) _ _
@[simp] theorem State.panFaults_eng_go (s : State) (ns : List (Fin 4)) (b : Nat) : (s.panFaults ns b).eng.go = s.eng.go := by
  unfold State.panFaults; exact foldl_keeps (fun s => s.eng.go) _ (by simp) _ _
@[simp] theorem State.panFaults_eng_romPan (s : State) (ns : List (Fin 4)) (b : Nat) : (s.panFaults ns b).eng.romPan = s.eng.romPan := by
  unfold State.panFaults; exact foldl_keeps (fun s => s.eng.romPan) _ (by simp) _ _
@[simp] theorem State.panFaults_eng_wdEn (s : State) (ns : List (Fin 4)) (b : Nat) : (s.panFaults ns b).eng.wdEn = s.eng.wdEn := by
  unfold State.panFaults; exact foldl_keeps (fun s => s.eng.wdEn) _ (by simp) _ _
@[simp] theorem State.panFaults_eng_wdt (s : State) (ns : List (Fin 4)) (b : Nat) : (s.panFaults ns b).eng.wdt = s.eng.wdt := by
  unfold State.panFaults; exact foldl_keeps (fun s => s.eng.wdt) _ (by simp) _ _
@[simp] theorem State.panFaults_eng_wdLeft (s : State) (ns : List (Fin 4)) (b : Nat) : (s.panFaults ns b).eng.wdLeft = s.eng.wdLeft := by
  unfold State.panFaults; exact foldl_keeps (fun s => s.eng.wdLeft) _ (by simp) _ _
@[simp] theorem State.panFaults_eng_started (s : State) (ns : List (Fin 4)) (b : Nat) : (s.panFaults ns b).eng.started = s.eng.started := by
  unfold State.panFaults; exact foldl_keeps (fun s => s.eng.started) _ (by simp) _ _
@[simp] theorem State.panFaults_eng_auth (s : State) (ns : List (Fin 4)) (b : Nat) : (s.panFaults ns b).eng.auth = s.eng.auth := by
  unfold State.panFaults; exact foldl_keeps (fun s => s.eng.auth) _ (by simp) _ _
@[simp] theorem State.panFaults_eng_imgLock (s : State) (ns : List (Fin 4)) (b : Nat) : (s.panFaults ns b).eng.imgLock = s.eng.imgLock := by
  unfold State.panFaults; exact foldl_keeps (fun s => s.eng.imgLock) _ (by simp) _ _
@[simp] theorem State.panFaults_eng_cfgErr (s : State) (ns : List (Fin 4)) (b : Nat) : (s.panFaults ns b).eng.cfgErr = s.eng.cfgErr := by
  unfold State.panFaults; exact foldl_keeps (fun s => s.eng.cfgErr) _ (by simp) _ _
@[simp] theorem State.panFaults_eng_locks (s : State) (ns : List (Fin 4)) (b : Nat) : (s.panFaults ns b).eng.locks = s.eng.locks := by
  unfold State.panFaults; exact foldl_keeps (fun s => s.eng.locks) _ (by simp) _ _
@[simp] theorem State.panFaults_eng_bp (s : State) (ns : List (Fin 4)) (b : Nat) : (s.panFaults ns b).eng.bp = s.eng.bp := by
  unfold State.panFaults; exact foldl_keeps (fun s => s.eng.bp) _ (by simp) _ _
@[simp] theorem State.panFaults_eng_stock (s : State) (ns : List (Fin 4)) (b : Nat) : (s.panFaults ns b).eng.stock = s.eng.stock := by
  unfold State.panFaults; exact foldl_keeps (fun s => s.eng.stock) _ (by simp) _ _
@[simp] theorem State.panFaults_flt (s : State) (ns : List (Fin 4)) (b : Nat) : (s.panFaults ns b).flt = s.flt := by
  unfold State.panFaults; exact foldl_keeps (fun s => s.flt) _ (by simp) _ _
@[simp] theorem State.panFaults_alloc (s : State) (ns : List (Fin 4)) (b : Nat) : (s.panFaults ns b).alloc = s.alloc := by
  unfold State.panFaults; exact foldl_keeps (fun s => s.alloc) _ (by simp) _ _
@[simp] theorem State.panFaults_window (s : State) (ns : List (Fin 4)) (b : Nat) : (s.panFaults ns b).window = s.window := by
  unfold State.panFaults; exact foldl_keeps (fun s => s.window) _ (by simp) _ _
@[simp] theorem State.panFaults_windowFrom (s : State) (ns : List (Fin 4)) (b : Nat) : (s.panFaults ns b).windowFrom = s.windowFrom := by
  unfold State.panFaults; exact foldl_keeps (fun s => s.windowFrom) _ (by simp) _ _
@[simp] theorem State.panFaults_host (s : State) (ns : List (Fin 4)) (b : Nat) : (s.panFaults ns b).host = s.host := by
  unfold State.panFaults; exact foldl_keeps (fun s => s.host) _ (by simp) _ _
@[simp] theorem State.panFaults_otp (s : State) (ns : List (Fin 4)) (b : Nat) : (s.panFaults ns b).otp = s.otp := by
  unfold State.panFaults; exact foldl_keeps (fun s => s.otp) _ (by simp) _ _
@[simp] theorem State.panFaults_mem (s : State) (ns : List (Fin 4)) (b : Nat) : (s.panFaults ns b).mem = s.mem := by
  unfold State.panFaults; exact foldl_keeps (fun s => s.mem) _ (by simp) _ _
@[simp] theorem State.panFaults_out (s : State) (ns : List (Fin 4)) (b : Nat) : (s.panFaults ns b).out = s.out := by
  unfold State.panFaults; exact foldl_keeps (fun s => s.out) _ (by simp) _ _
@[simp] theorem State.panFaults_free (s : State) (ns : List (Fin 4)) (b : Nat) : (s.panFaults ns b).free = s.free := by
  unfold State.panFaults; exact foldl_keeps (fun s => s.free) _ (by simp) _ _
@[simp] theorem State.panFaults_pending (s : State) (ns : List (Fin 4)) (b : Nat) : (s.panFaults ns b).pending = s.pending := by
  unfold State.panFaults; exact foldl_keeps (fun s => s.pending) _ (by simp) _ _

/-! ### updRun -/

@[simp] theorem State.updRun_sys (s : State) : s.updRun.sys = s.sys := by
  unfold State.updRun; split <;> simp
@[simp] theorem State.updRun_pow (s : State) : s.updRun.pow = s.pow := by
  unfold State.updRun; split <;> simp
@[simp] theorem State.updRun_slu_ctl (s : State) : s.updRun.slu.ctl = s.slu.ctl := by
  unfold State.updRun; split <;> simp
@[simp] theorem State.updRun_slu_len (s : State) : s.updRun.slu.len = s.slu.len := by
  unfold State.updRun; split <;> simp
@[simp] theorem State.updRun_slu_keep (s : State) : s.updRun.slu.keep = s.slu.keep := by
  unfold State.updRun; split <;> simp
@[simp] theorem State.updRun_slu_safe (s : State) : s.updRun.slu.safe = s.slu.safe := by
  unfold State.updRun; split <;> simp
@[simp] theorem State.updRun_slu_cause (s : State) : s.updRun.slu.cause = s.slu.cause := by
  unfold State.updRun; split <;> simp
@[simp] theorem State.updRun_slu_relVal (s : State) : s.updRun.slu.relVal = s.slu.relVal := by
  unfold State.updRun; split <;> simp
@[simp] theorem State.updRun_slu_relLat (s : State) : s.updRun.slu.relLat = s.slu.relLat := by
  unfold State.updRun; split <;> simp
@[simp] theorem State.updRun_slu_tideOk (s : State) : s.updRun.slu.tideOk = s.slu.tideOk := by
  unfold State.updRun; split <;> simp
@[simp] theorem State.updRun_slu_localOk (s : State) : s.updRun.slu.localOk = s.slu.localOk := by
  unfold State.updRun; split <;> simp
@[simp] theorem State.updRun_slu_fresh (s : State) : s.updRun.slu.fresh = s.slu.fresh := by
  unfold State.updRun; split <;> simp
@[simp] theorem State.updRun_slu_lastRel (s : State) : s.updRun.slu.lastRel = s.slu.lastRel := by
  unfold State.updRun; split <;> simp
@[simp] theorem State.updRun_slu_txNone (s : State) : s.updRun.slu.txNone = s.slu.txNone := by
  unfold State.updRun; split <;> simp
@[simp] theorem State.updRun_slu_pairBad (s : State) : s.updRun.slu.pairBad = s.slu.pairBad := by
  unfold State.updRun; split <;> simp
@[simp] theorem State.updRun_slu_cfgErr (s : State) : s.updRun.slu.cfgErr = s.slu.cfgErr := by
  unfold State.updRun; split <;> simp
@[simp] theorem State.updRun_slu_waive (s : State) : s.updRun.slu.waive = s.slu.waive := by
  unfold State.updRun; split <;> simp
@[simp] theorem State.updRun_slu_burst (s : State) : s.updRun.slu.burst = s.slu.burst := by
  unfold State.updRun; split <;> simp
@[simp] theorem State.updRun_slu_det (s : State) : s.updRun.slu.det = s.slu.det := by
  unfold State.updRun; split <;> simp
@[simp] theorem State.updRun_slu_safeIn (s : State) : s.updRun.slu.safeIn = s.slu.safeIn := by
  unfold State.updRun; split <;> simp
@[simp] theorem State.updRun_slu_burstPend (s : State) : s.updRun.slu.burstPend = s.slu.burstPend := by
  unfold State.updRun; split <;> simp
@[simp] theorem State.updRun_line (s : State) : s.updRun.line = s.line := by
  unfold State.updRun; split <;> simp
@[simp] theorem State.updRun_tide (s : State) : s.updRun.tide = s.tide := by
  unfold State.updRun; split <;> simp
@[simp] theorem State.updRun_cal (s : State) : s.updRun.cal = s.cal := by
  unfold State.updRun; split <;> simp
@[simp] theorem State.updRun_sched (s : State) : s.updRun.sched = s.sched := by
  unfold State.updRun; split <;> simp
@[simp] theorem State.updRun_tim (s : State) : s.updRun.tim = s.tim := by
  unfold State.updRun; split <;> simp
@[simp] theorem State.updRun_eng_tnow (s : State) : s.updRun.eng.tnow = s.eng.tnow := by
  unfold State.updRun; split <;> simp
@[simp] theorem State.updRun_eng_go (s : State) : s.updRun.eng.go = s.eng.go := by
  unfold State.updRun; split <;> simp
@[simp] theorem State.updRun_eng_romPan (s : State) : s.updRun.eng.romPan = s.eng.romPan := by
  unfold State.updRun; split <;> simp
@[simp] theorem State.updRun_eng_wdEn (s : State) : s.updRun.eng.wdEn = s.eng.wdEn := by
  unfold State.updRun; split <;> simp
@[simp] theorem State.updRun_eng_wdt (s : State) : s.updRun.eng.wdt = s.eng.wdt := by
  unfold State.updRun; split <;> simp
@[simp] theorem State.updRun_eng_wdLeft (s : State) : s.updRun.eng.wdLeft = s.eng.wdLeft := by
  unfold State.updRun; split <;> simp
@[simp] theorem State.updRun_eng_started (s : State) : s.updRun.eng.started = s.eng.started := by
  unfold State.updRun; split <;> simp
@[simp] theorem State.updRun_eng_auth (s : State) : s.updRun.eng.auth = s.eng.auth := by
  unfold State.updRun; split <;> simp
@[simp] theorem State.updRun_eng_imgLock (s : State) : s.updRun.eng.imgLock = s.eng.imgLock := by
  unfold State.updRun; split <;> simp
@[simp] theorem State.updRun_eng_cfgErr (s : State) : s.updRun.eng.cfgErr = s.eng.cfgErr := by
  unfold State.updRun; split <;> simp
@[simp] theorem State.updRun_eng_locks (s : State) : s.updRun.eng.locks = s.eng.locks := by
  unfold State.updRun; split <;> simp
@[simp] theorem State.updRun_eng_bp (s : State) : s.updRun.eng.bp = s.eng.bp := by
  unfold State.updRun; split <;> simp
@[simp] theorem State.updRun_eng_stock (s : State) : s.updRun.eng.stock = s.eng.stock := by
  unfold State.updRun; split <;> simp
@[simp] theorem State.updRun_pans (s : State) : s.updRun.pans = s.pans := by
  unfold State.updRun; split <;> simp
@[simp] theorem State.updRun_flt (s : State) : s.updRun.flt = s.flt := by
  unfold State.updRun; split <;> simp
@[simp] theorem State.updRun_alloc (s : State) : s.updRun.alloc = s.alloc := by
  unfold State.updRun; split <;> simp
@[simp] theorem State.updRun_window (s : State) : s.updRun.window = s.window := by
  unfold State.updRun; split <;> simp
@[simp] theorem State.updRun_windowFrom (s : State) : s.updRun.windowFrom = s.windowFrom := by
  unfold State.updRun; split <;> simp
@[simp] theorem State.updRun_host (s : State) : s.updRun.host = s.host := by
  unfold State.updRun; split <;> simp
@[simp] theorem State.updRun_otp (s : State) : s.updRun.otp = s.otp := by
  unfold State.updRun; split <;> simp
@[simp] theorem State.updRun_mem (s : State) : s.updRun.mem = s.mem := by
  unfold State.updRun; split <;> simp
@[simp] theorem State.updRun_out (s : State) : s.updRun.out = s.out := by
  unfold State.updRun; split <;> simp
@[simp] theorem State.updRun_free (s : State) : s.updRun.free = s.free := by
  unfold State.updRun; split <;> simp
@[simp] theorem State.updRun_pending (s : State) : s.updRun.pending = s.pending := by
  unfold State.updRun; split <;> simp

/-! ### updLife -/

@[simp] theorem State.updLife_sys_ctl (s : State) : s.updLife.sys.ctl = s.sys.ctl := by
  unfold State.updLife; split <;> simp
@[simp] theorem State.updLife_sys_scrub (s : State) : s.updLife.sys.scrub = s.sys.scrub := by
  unfold State.updLife; split <;> simp
@[simp] theorem State.updLife_sys_allocErr (s : State) : s.updLife.sys.allocErr = s.sys.allocErr := by
  unfold State.updLife; split <;> simp
@[simp] theorem State.updLife_sys_panLock (s : State) : s.updLife.sys.panLock = s.sys.panLock := by
  unfold State.updLife; split <;> simp
@[simp] theorem State.updLife_sys_dbgLock (s : State) : s.updLife.sys.dbgLock = s.sys.dbgLock := by
  unfold State.updLife; split <;> simp
@[simp] theorem State.updLife_sys_cfgPar (s : State) : s.updLife.sys.cfgPar = s.sys.cfgPar := by
  unfold State.updLife; split <;> simp
@[simp] theorem State.updLife_sys_keyFail (s : State) : s.updLife.sys.keyFail = s.sys.keyFail := by
  unfold State.updLife; split <;> simp
@[simp] theorem State.updLife_sys_pshad (s : State) : s.updLife.sys.pshad = s.sys.pshad := by
  unfold State.updLife; split <;> simp
@[simp] theorem State.updLife_sys_pllErr (s : State) : s.updLife.sys.pllErr = s.sys.pllErr := by
  unfold State.updLife; split <;> simp
@[simp] theorem State.updLife_sys_lfErr (s : State) : s.updLife.sys.lfErr = s.sys.lfErr := by
  unfold State.updLife; split <;> simp
@[simp] theorem State.updLife_sys_otpErr (s : State) : s.updLife.sys.otpErr = s.sys.otpErr := by
  unfold State.updLife; split <;> simp
@[simp] theorem State.updLife_sys_ploc (s : State) : s.updLife.sys.ploc = s.sys.ploc := by
  unfold State.updLife; split <;> simp
@[simp] theorem State.updLife_sys_rstCause (s : State) : s.updLife.sys.rstCause = s.sys.rstCause := by
  unfold State.updLife; split <;> simp
@[simp] theorem State.updLife_sys_swPend (s : State) : s.updLife.sys.swPend = s.sys.swPend := by
  unfold State.updLife; split <;> simp
@[simp] theorem State.updLife_sys_keys (s : State) : s.updLife.sys.keys = s.sys.keys := by
  unfold State.updLife; split <;> simp
@[simp] theorem State.updLife_sys_parBad (s : State) : s.updLife.sys.parBad = s.sys.parBad := by
  unfold State.updLife; split <;> simp
@[simp] theorem State.updLife_sys_shBad (s : State) : s.updLife.sys.shBad = s.sys.shBad := by
  unfold State.updLife; split <;> simp
@[simp] theorem State.updLife_sys_parHit (s : State) : s.updLife.sys.parHit = s.sys.parHit := by
  unfold State.updLife; split <;> simp
@[simp] theorem State.updLife_pow (s : State) : s.updLife.pow = s.pow := by
  unfold State.updLife; split <;> simp
@[simp] theorem State.updLife_slu (s : State) : s.updLife.slu = s.slu := by
  unfold State.updLife; split <;> simp
@[simp] theorem State.updLife_line (s : State) : s.updLife.line = s.line := by
  unfold State.updLife; split <;> simp
@[simp] theorem State.updLife_tide (s : State) : s.updLife.tide = s.tide := by
  unfold State.updLife; split <;> simp
@[simp] theorem State.updLife_cal (s : State) : s.updLife.cal = s.cal := by
  unfold State.updLife; split <;> simp
@[simp] theorem State.updLife_sched (s : State) : s.updLife.sched = s.sched := by
  unfold State.updLife; split <;> simp
@[simp] theorem State.updLife_tim (s : State) : s.updLife.tim = s.tim := by
  unfold State.updLife; split <;> simp
@[simp] theorem State.updLife_eng_tnow (s : State) : s.updLife.eng.tnow = s.eng.tnow := by
  unfold State.updLife; split <;> simp
@[simp] theorem State.updLife_eng_go (s : State) : s.updLife.eng.go = s.eng.go := by
  unfold State.updLife; split <;> simp
@[simp] theorem State.updLife_eng_romPan (s : State) : s.updLife.eng.romPan = s.eng.romPan := by
  unfold State.updLife; split <;> simp
@[simp] theorem State.updLife_eng_wdEn (s : State) : s.updLife.eng.wdEn = s.eng.wdEn := by
  unfold State.updLife; split <;> simp
@[simp] theorem State.updLife_eng_wdt (s : State) : s.updLife.eng.wdt = s.eng.wdt := by
  unfold State.updLife; split <;> simp
@[simp] theorem State.updLife_eng_wdLeft (s : State) : s.updLife.eng.wdLeft = s.eng.wdLeft := by
  unfold State.updLife; split <;> simp
@[simp] theorem State.updLife_eng_started (s : State) : s.updLife.eng.started = s.eng.started := by
  unfold State.updLife; split <;> simp
@[simp] theorem State.updLife_eng_auth (s : State) : s.updLife.eng.auth = s.eng.auth := by
  unfold State.updLife; split <;> simp
@[simp] theorem State.updLife_eng_imgLock (s : State) : s.updLife.eng.imgLock = s.eng.imgLock := by
  unfold State.updLife; split <;> simp
@[simp] theorem State.updLife_eng_cfgErr (s : State) : s.updLife.eng.cfgErr = s.eng.cfgErr := by
  unfold State.updLife; split <;> simp
@[simp] theorem State.updLife_eng_locks (s : State) : s.updLife.eng.locks = s.eng.locks := by
  unfold State.updLife; split <;> simp
@[simp] theorem State.updLife_eng_bp (s : State) : s.updLife.eng.bp = s.eng.bp := by
  unfold State.updLife; split <;> simp
@[simp] theorem State.updLife_eng_stock (s : State) : s.updLife.eng.stock = s.eng.stock := by
  unfold State.updLife; split <;> simp
@[simp] theorem State.updLife_pans (s : State) : s.updLife.pans = s.pans := by
  unfold State.updLife; split <;> simp
@[simp] theorem State.updLife_flt (s : State) : s.updLife.flt = s.flt := by
  unfold State.updLife; split <;> simp
@[simp] theorem State.updLife_alloc (s : State) : s.updLife.alloc = s.alloc := by
  unfold State.updLife; split <;> simp
@[simp] theorem State.updLife_window (s : State) : s.updLife.window = s.window := by
  unfold State.updLife; split <;> simp
@[simp] theorem State.updLife_windowFrom (s : State) : s.updLife.windowFrom = s.windowFrom := by
  unfold State.updLife; split <;> simp
@[simp] theorem State.updLife_host (s : State) : s.updLife.host = s.host := by
  unfold State.updLife; split <;> simp
@[simp] theorem State.updLife_otp (s : State) : s.updLife.otp = s.otp := by
  unfold State.updLife; split <;> simp
@[simp] theorem State.updLife_mem (s : State) : s.updLife.mem = s.mem := by
  unfold State.updLife; split <;> simp
@[simp] theorem State.updLife_out (s : State) : s.updLife.out = s.out := by
  unfold State.updLife; split <;> simp
@[simp] theorem State.updLife_free (s : State) : s.updLife.free = s.free := by
  unfold State.updLife; split <;> simp
@[simp] theorem State.updLife_pending (s : State) : s.updLife.pending = s.pending := by
  unfold State.updLife; split <;> simp

/-! ### updUnrel -/

@[simp] theorem State.updUnrel_sys (s : State) : s.updUnrel.sys = s.sys := by
  unfold State.updUnrel; split <;> (try split) <;> simp
@[simp] theorem State.updUnrel_pow (s : State) : s.updUnrel.pow = s.pow := by
  unfold State.updUnrel; split <;> (try split) <;> simp
@[simp] theorem State.updUnrel_slu (s : State) : s.updUnrel.slu = s.slu := by
  unfold State.updUnrel; split <;> (try split) <;> simp
@[simp] theorem State.updUnrel_line (s : State) : s.updUnrel.line = s.line := by
  unfold State.updUnrel; split <;> (try split) <;> simp
@[simp] theorem State.updUnrel_tide (s : State) : s.updUnrel.tide = s.tide := by
  unfold State.updUnrel; split <;> (try split) <;> simp
@[simp] theorem State.updUnrel_cal_ctl (s : State) : s.updUnrel.cal.ctl = s.cal.ctl := by
  unfold State.updUnrel; split <;> (try split) <;> simp
@[simp] theorem State.updUnrel_cal_bad (s : State) : s.updUnrel.cal.bad = s.cal.bad := by
  unfold State.updUnrel; split <;> (try split) <;> simp
@[simp] theorem State.updUnrel_cal_deny (s : State) : s.updUnrel.cal.deny = s.cal.deny := by
  unfold State.updUnrel; split <;> (try split) <;> simp
@[simp] theorem State.updUnrel_cal_range (s : State) : s.updUnrel.cal.range = s.cal.range := by
  unfold State.updUnrel; split <;> (try split) <;> simp
@[simp] theorem State.updUnrel_cal_wrap (s : State) : s.updUnrel.cal.wrap = s.cal.wrap := by
  unfold State.updUnrel; split <;> (try split) <;> simp
@[simp] theorem State.updUnrel_cal_pend (s : State) : s.updUnrel.cal.pend = s.cal.pend := by
  unfold State.updUnrel; split <;> (try split) <;> simp
@[simp] theorem State.updUnrel_cal_hold (s : State) : s.updUnrel.cal.hold = s.cal.hold := by
  unfold State.updUnrel; split <;> (try split) <;> simp
@[simp] theorem State.updUnrel_cal_latch (s : State) : s.updUnrel.cal.latch = s.cal.latch := by
  unfold State.updUnrel; split <;> (try split) <;> simp
@[simp] theorem State.updUnrel_sched (s : State) : s.updUnrel.sched = s.sched := by
  unfold State.updUnrel; split <;> (try split) <;> simp
@[simp] theorem State.updUnrel_tim (s : State) : s.updUnrel.tim = s.tim := by
  unfold State.updUnrel; split <;> (try split) <;> simp
@[simp] theorem State.updUnrel_eng_tnow (s : State) : s.updUnrel.eng.tnow = s.eng.tnow := by
  unfold State.updUnrel; split <;> (try split) <;> simp
@[simp] theorem State.updUnrel_eng_go (s : State) : s.updUnrel.eng.go = s.eng.go := by
  unfold State.updUnrel; split <;> (try split) <;> simp
@[simp] theorem State.updUnrel_eng_romPan (s : State) : s.updUnrel.eng.romPan = s.eng.romPan := by
  unfold State.updUnrel; split <;> (try split) <;> simp
@[simp] theorem State.updUnrel_eng_wdEn (s : State) : s.updUnrel.eng.wdEn = s.eng.wdEn := by
  unfold State.updUnrel; split <;> (try split) <;> simp
@[simp] theorem State.updUnrel_eng_wdt (s : State) : s.updUnrel.eng.wdt = s.eng.wdt := by
  unfold State.updUnrel; split <;> (try split) <;> simp
@[simp] theorem State.updUnrel_eng_wdLeft (s : State) : s.updUnrel.eng.wdLeft = s.eng.wdLeft := by
  unfold State.updUnrel; split <;> (try split) <;> simp
@[simp] theorem State.updUnrel_eng_started (s : State) : s.updUnrel.eng.started = s.eng.started := by
  unfold State.updUnrel; split <;> (try split) <;> simp
@[simp] theorem State.updUnrel_eng_auth (s : State) : s.updUnrel.eng.auth = s.eng.auth := by
  unfold State.updUnrel; split <;> (try split) <;> simp
@[simp] theorem State.updUnrel_eng_imgLock (s : State) : s.updUnrel.eng.imgLock = s.eng.imgLock := by
  unfold State.updUnrel; split <;> (try split) <;> simp
@[simp] theorem State.updUnrel_eng_cfgErr (s : State) : s.updUnrel.eng.cfgErr = s.eng.cfgErr := by
  unfold State.updUnrel; split <;> (try split) <;> simp
@[simp] theorem State.updUnrel_eng_locks (s : State) : s.updUnrel.eng.locks = s.eng.locks := by
  unfold State.updUnrel; split <;> (try split) <;> simp
@[simp] theorem State.updUnrel_eng_bp (s : State) : s.updUnrel.eng.bp = s.eng.bp := by
  unfold State.updUnrel; split <;> (try split) <;> simp
@[simp] theorem State.updUnrel_eng_stock (s : State) : s.updUnrel.eng.stock = s.eng.stock := by
  unfold State.updUnrel; split <;> (try split) <;> simp
@[simp] theorem State.updUnrel_pans (s : State) : s.updUnrel.pans = s.pans := by
  unfold State.updUnrel; split <;> (try split) <;> simp
@[simp] theorem State.updUnrel_flt (s : State) : s.updUnrel.flt = s.flt := by
  unfold State.updUnrel; split <;> (try split) <;> simp
@[simp] theorem State.updUnrel_alloc (s : State) : s.updUnrel.alloc = s.alloc := by
  unfold State.updUnrel; split <;> (try split) <;> simp
@[simp] theorem State.updUnrel_window (s : State) : s.updUnrel.window = s.window := by
  unfold State.updUnrel; split <;> (try split) <;> simp
@[simp] theorem State.updUnrel_windowFrom (s : State) : s.updUnrel.windowFrom = s.windowFrom := by
  unfold State.updUnrel; split <;> (try split) <;> simp
@[simp] theorem State.updUnrel_host (s : State) : s.updUnrel.host = s.host := by
  unfold State.updUnrel; split <;> (try split) <;> simp
@[simp] theorem State.updUnrel_otp (s : State) : s.updUnrel.otp = s.otp := by
  unfold State.updUnrel; split <;> (try split) <;> simp
@[simp] theorem State.updUnrel_mem (s : State) : s.updUnrel.mem = s.mem := by
  unfold State.updUnrel; split <;> (try split) <;> simp
@[simp] theorem State.updUnrel_out (s : State) : s.updUnrel.out = s.out := by
  unfold State.updUnrel; split <;> (try split) <;> simp
@[simp] theorem State.updUnrel_free (s : State) : s.updUnrel.free = s.free := by
  unfold State.updUnrel; split <;> (try split) <;> simp
@[simp] theorem State.updUnrel_pending (s : State) : s.updUnrel.pending = s.pending := by
  unfold State.updUnrel; split <;> (try split) <;> simp

/-! ### updSearch -/

@[simp] theorem State.updSearch_sys (s : State) : s.updSearch.sys = s.sys := by
  unfold State.updSearch; dsimp only; repeat' split
  all_goals simp
@[simp] theorem State.updSearch_pow (s : State) : s.updSearch.pow = s.pow := by
  unfold State.updSearch; dsimp only; repeat' split
  all_goals simp
@[simp] theorem State.updSearch_slu (s : State) : s.updSearch.slu = s.slu := by
  unfold State.updSearch; dsimp only; repeat' split
  all_goals simp
@[simp] theorem State.updSearch_tide (s : State) : s.updSearch.tide = s.tide := by
  unfold State.updSearch; dsimp only; repeat' split
  all_goals simp
@[simp] theorem State.updSearch_cal (s : State) : s.updSearch.cal = s.cal := by
  unfold State.updSearch; dsimp only; repeat' split
  all_goals simp
@[simp] theorem State.updSearch_sched (s : State) : s.updSearch.sched = s.sched := by
  unfold State.updSearch; dsimp only; repeat' split
  all_goals simp
@[simp] theorem State.updSearch_tim (s : State) : s.updSearch.tim = s.tim := by
  unfold State.updSearch; dsimp only; repeat' split
  all_goals simp
@[simp] theorem State.updSearch_line_ctl (s : State) : s.updSearch.line.ctl = s.line.ctl := by
  unfold State.updSearch; dsimp only; repeat' split
  all_goals simp
@[simp] theorem State.updSearch_line_addr (s : State) : s.updSearch.line.addr = s.line.addr := by
  unfold State.updSearch; dsimp only; repeat' split
  all_goals simp
@[simp] theorem State.updSearch_line_dupAddr (s : State) : s.updSearch.line.dupAddr = s.line.dupAddr := by
  unfold State.updSearch; dsimp only; repeat' split
  all_goals simp
@[simp] theorem State.updSearch_line_c0fmt (s : State) : s.updSearch.line.c0fmt = s.line.c0fmt := by
  unfold State.updSearch; dsimp only; repeat' split
  all_goals simp
@[simp] theorem State.updSearch_line_cfgErr (s : State) : s.updSearch.line.cfgErr = s.line.cfgErr := by
  unfold State.updSearch; dsimp only; repeat' split
  all_goals simp
@[simp] theorem State.updSearch_line_dlyMain (s : State) : s.updSearch.line.dlyMain = s.line.dlyMain := by
  unfold State.updSearch; dsimp only; repeat' split
  all_goals simp
@[simp] theorem State.updSearch_line_dlyBackup (s : State) : s.updSearch.line.dlyBackup = s.line.dlyBackup := by
  unfold State.updSearch; dsimp only; repeat' split
  all_goals simp
@[simp] theorem State.updSearch_line_dlyPend (s : State) : s.updSearch.line.dlyPend = s.line.dlyPend := by
  unfold State.updSearch; dsimp only; repeat' split
  all_goals simp
@[simp] theorem State.updSearch_line_soundOut (s : State) : s.updSearch.line.soundOut = s.line.soundOut := by
  unfold State.updSearch; dsimp only; repeat' split
  all_goals simp
@[simp] theorem State.updSearch_line_rollSlot (s : State) : s.updSearch.line.rollSlot = s.line.rollSlot := by
  unfold State.updSearch; dsimp only; repeat' split
  all_goals simp
@[simp] theorem State.updSearch_line_rollSh (s : State) : s.updSearch.line.rollSh = s.line.rollSh := by
  unfold State.updSearch; dsimp only; repeat' split
  all_goals simp
@[simp] theorem State.updSearch_line_rollShPair (s : State) : s.updSearch.line.rollShPair = s.line.rollShPair := by
  unfold State.updSearch; dsimp only; repeat' split
  all_goals simp
@[simp] theorem State.updSearch_line_bridge (s : State) : s.updSearch.line.bridge = s.line.bridge := by
  unfold State.updSearch; dsimp only; repeat' split
  all_goals simp
@[simp] theorem State.updSearch_line_bridgePA (s : State) : s.updSearch.line.bridgePA = s.line.bridgePA := by
  unfold State.updSearch; dsimp only; repeat' split
  all_goals simp
@[simp] theorem State.updSearch_line_bridgeAP (s : State) : s.updSearch.line.bridgeAP = s.line.bridgeAP := by
  unfold State.updSearch; dsimp only; repeat' split
  all_goals simp
@[simp] theorem State.updSearch_line_plcCtl (s : State) : s.updSearch.line.plcCtl = s.line.plcCtl := by
  unfold State.updSearch; dsimp only; repeat' split
  all_goals simp
@[simp] theorem State.updSearch_line_plcCtlSh (s : State) : s.updSearch.line.plcCtlSh = s.line.plcCtlSh := by
  unfold State.updSearch; dsimp only; repeat' split
  all_goals simp
@[simp] theorem State.updSearch_line_plan (s : State) : s.updSearch.line.plan = s.line.plan := by
  unfold State.updSearch; dsimp only; repeat' split
  all_goals simp
@[simp] theorem State.updSearch_line_planSh (s : State) : s.updSearch.line.planSh = s.line.planSh := by
  unfold State.updSearch; dsimp only; repeat' split
  all_goals simp
@[simp] theorem State.updSearch_line_policy (s : State) : s.updSearch.line.policy = s.line.policy := by
  unfold State.updSearch; dsimp only; repeat' split
  all_goals simp
@[simp] theorem State.updSearch_line_policySh (s : State) : s.updSearch.line.policySh = s.line.policySh := by
  unfold State.updSearch; dsimp only; repeat' split
  all_goals simp
@[simp] theorem State.updSearch_line_clamp (s : State) : s.updSearch.line.clamp = s.line.clamp := by
  unfold State.updSearch; dsimp only; repeat' split
  all_goals simp
@[simp] theorem State.updSearch_line_better (s : State) : s.updSearch.line.better = s.line.better := by
  unfold State.updSearch; dsimp only; repeat' split
  all_goals simp
@[simp] theorem State.updSearch_line_nodrv (s : State) : s.updSearch.line.nodrv = s.line.nodrv := by
  unfold State.updSearch; dsimp only; repeat' split
  all_goals simp
@[simp] theorem State.updSearch_line_rank (s : State) : s.updSearch.line.rank = s.line.rank := by
  unfold State.updSearch; dsimp only; repeat' split
  all_goals simp
@[simp] theorem State.updSearch_line_level (s : State) : s.updSearch.line.level = s.line.level := by
  unfold State.updSearch; dsimp only; repeat' split
  all_goals simp
@[simp] theorem State.updSearch_line_marginRx (s : State) : s.updSearch.line.marginRx = s.line.marginRx := by
  unfold State.updSearch; dsimp only; repeat' split
  all_goals simp
@[simp] theorem State.updSearch_line_marginPred (s : State) : s.updSearch.line.marginPred = s.line.marginPred := by
  unfold State.updSearch; dsimp only; repeat' split
  all_goals simp
@[simp] theorem State.updSearch_line_pairCtl (s : State) : s.updSearch.line.pairCtl = s.line.pairCtl := by
  unfold State.updSearch; dsimp only; repeat' split
  all_goals simp
@[simp] theorem State.updSearch_line_pairBt (s : State) : s.updSearch.line.pairBt = s.line.pairBt := by
  unfold State.updSearch; dsimp only; repeat' split
  all_goals simp
@[simp] theorem State.updSearch_line_pairBtSh (s : State) : s.updSearch.line.pairBtSh = s.line.pairBtSh := by
  unfold State.updSearch; dsimp only; repeat' split
  all_goals simp
@[simp] theorem State.updSearch_line_pairDbt (s : State) : s.updSearch.line.pairDbt = s.line.pairDbt := by
  unfold State.updSearch; dsimp only; repeat' split
  all_goals simp
@[simp] theorem State.updSearch_line_pairDbtSh (s : State) : s.updSearch.line.pairDbtSh = s.line.pairDbtSh := by
  unfold State.updSearch; dsimp only; repeat' split
  all_goals simp
@[simp] theorem State.updSearch_line_btErr (s : State) : s.updSearch.line.btErr = s.line.btErr := by
  unfold State.updSearch; dsimp only; repeat' split
  all_goals simp
@[simp] theorem State.updSearch_line_tdcv (s : State) : s.updSearch.line.tdcv = s.line.tdcv := by
  unfold State.updSearch; dsimp only; repeat' split
  all_goals simp
@[simp] theorem State.updSearch_line_plc (s : State) : s.updSearch.line.plc = s.line.plc := by
  unfold State.updSearch; dsimp only; repeat' split
  all_goals simp
@[simp] theorem State.updSearch_line_pair (s : State) : s.updSearch.line.pair = s.line.pair := by
  unfold State.updSearch; dsimp only; repeat' split
  all_goals simp
@[simp] theorem State.updSearch_line_rrLast (s : State) : s.updSearch.line.rrLast = s.line.rrLast := by
  unfold State.updSearch; dsimp only; repeat' split
  all_goals simp
@[simp] theorem State.updSearch_line_gasp (s : State) : s.updSearch.line.gasp = s.line.gasp := by
  unfold State.updSearch; dsimp only; repeat' split
  all_goals simp
@[simp] theorem State.updSearch_line_chanPend (s : State) : s.updSearch.line.chanPend = s.line.chanPend := by
  unfold State.updSearch; dsimp only; repeat' split
  all_goals simp
@[simp] theorem State.updSearch_eng_tnow (s : State) : s.updSearch.eng.tnow = s.eng.tnow := by
  unfold State.updSearch; dsimp only; repeat' split
  all_goals simp
@[simp] theorem State.updSearch_eng_go (s : State) : s.updSearch.eng.go = s.eng.go := by
  unfold State.updSearch; dsimp only; repeat' split
  all_goals simp
@[simp] theorem State.updSearch_eng_romPan (s : State) : s.updSearch.eng.romPan = s.eng.romPan := by
  unfold State.updSearch; dsimp only; repeat' split
  all_goals simp
@[simp] theorem State.updSearch_eng_wdEn (s : State) : s.updSearch.eng.wdEn = s.eng.wdEn := by
  unfold State.updSearch; dsimp only; repeat' split
  all_goals simp
@[simp] theorem State.updSearch_eng_wdt (s : State) : s.updSearch.eng.wdt = s.eng.wdt := by
  unfold State.updSearch; dsimp only; repeat' split
  all_goals simp
@[simp] theorem State.updSearch_eng_wdLeft (s : State) : s.updSearch.eng.wdLeft = s.eng.wdLeft := by
  unfold State.updSearch; dsimp only; repeat' split
  all_goals simp
@[simp] theorem State.updSearch_eng_started (s : State) : s.updSearch.eng.started = s.eng.started := by
  unfold State.updSearch; dsimp only; repeat' split
  all_goals simp
@[simp] theorem State.updSearch_eng_auth (s : State) : s.updSearch.eng.auth = s.eng.auth := by
  unfold State.updSearch; dsimp only; repeat' split
  all_goals simp
@[simp] theorem State.updSearch_eng_imgLock (s : State) : s.updSearch.eng.imgLock = s.eng.imgLock := by
  unfold State.updSearch; dsimp only; repeat' split
  all_goals simp
@[simp] theorem State.updSearch_eng_cfgErr (s : State) : s.updSearch.eng.cfgErr = s.eng.cfgErr := by
  unfold State.updSearch; dsimp only; repeat' split
  all_goals simp
@[simp] theorem State.updSearch_eng_locks (s : State) : s.updSearch.eng.locks = s.eng.locks := by
  unfold State.updSearch; dsimp only; repeat' split
  all_goals simp
@[simp] theorem State.updSearch_eng_bp (s : State) : s.updSearch.eng.bp = s.eng.bp := by
  unfold State.updSearch; dsimp only; repeat' split
  all_goals simp
@[simp] theorem State.updSearch_eng_stock (s : State) : s.updSearch.eng.stock = s.eng.stock := by
  unfold State.updSearch; dsimp only; repeat' split
  all_goals simp
@[simp] theorem State.updSearch_pans (s : State) : s.updSearch.pans = s.pans := by
  unfold State.updSearch; dsimp only; repeat' split
  all_goals simp
@[simp] theorem State.updSearch_flt (s : State) : s.updSearch.flt = s.flt := by
  unfold State.updSearch; dsimp only; repeat' split
  all_goals simp
@[simp] theorem State.updSearch_alloc (s : State) : s.updSearch.alloc = s.alloc := by
  unfold State.updSearch; dsimp only; repeat' split
  all_goals simp
@[simp] theorem State.updSearch_window (s : State) : s.updSearch.window = s.window := by
  unfold State.updSearch; dsimp only; repeat' split
  all_goals simp
@[simp] theorem State.updSearch_windowFrom (s : State) : s.updSearch.windowFrom = s.windowFrom := by
  unfold State.updSearch; dsimp only; repeat' split
  all_goals simp
@[simp] theorem State.updSearch_host (s : State) : s.updSearch.host = s.host := by
  unfold State.updSearch; dsimp only; repeat' split
  all_goals simp
@[simp] theorem State.updSearch_otp (s : State) : s.updSearch.otp = s.otp := by
  unfold State.updSearch; dsimp only; repeat' split
  all_goals simp
@[simp] theorem State.updSearch_mem (s : State) : s.updSearch.mem = s.mem := by
  unfold State.updSearch; dsimp only; repeat' split
  all_goals simp
@[simp] theorem State.updSearch_out (s : State) : s.updSearch.out = s.out := by
  unfold State.updSearch; dsimp only; repeat' split
  all_goals simp
@[simp] theorem State.updSearch_free (s : State) : s.updSearch.free = s.free := by
  unfold State.updSearch; dsimp only; repeat' split
  all_goals simp
@[simp] theorem State.updSearch_pending (s : State) : s.updSearch.pending = s.pending := by
  unfold State.updSearch; dsimp only; repeat' split
  all_goals simp

/-! ### settle -/

@[simp] theorem State.settle_sys_ctl (s : State) : s.settle.sys.ctl = s.sys.ctl := by
  simp [State.settle]
@[simp] theorem State.settle_sys_scrub (s : State) : s.settle.sys.scrub = s.sys.scrub := by
  simp [State.settle]
@[simp] theorem State.settle_sys_allocErr (s : State) : s.settle.sys.allocErr = s.sys.allocErr := by
  simp [State.settle]
@[simp] theorem State.settle_sys_panLock (s : State) : s.settle.sys.panLock = s.sys.panLock := by
  simp [State.settle]
@[simp] theorem State.settle_sys_dbgLock (s : State) : s.settle.sys.dbgLock = s.sys.dbgLock := by
  simp [State.settle]
@[simp] theorem State.settle_sys_cfgPar (s : State) : s.settle.sys.cfgPar = s.sys.cfgPar := by
  simp [State.settle]
@[simp] theorem State.settle_sys_keyFail (s : State) : s.settle.sys.keyFail = s.sys.keyFail := by
  simp [State.settle]
@[simp] theorem State.settle_sys_pshad (s : State) : s.settle.sys.pshad = s.sys.pshad := by
  simp [State.settle]
@[simp] theorem State.settle_sys_pllErr (s : State) : s.settle.sys.pllErr = s.sys.pllErr := by
  simp [State.settle]
@[simp] theorem State.settle_sys_lfErr (s : State) : s.settle.sys.lfErr = s.sys.lfErr := by
  simp [State.settle]
@[simp] theorem State.settle_sys_otpErr (s : State) : s.settle.sys.otpErr = s.sys.otpErr := by
  simp [State.settle]
@[simp] theorem State.settle_sys_ploc (s : State) : s.settle.sys.ploc = s.sys.ploc := by
  simp [State.settle]
@[simp] theorem State.settle_sys_rstCause (s : State) : s.settle.sys.rstCause = s.sys.rstCause := by
  simp [State.settle]
@[simp] theorem State.settle_sys_swPend (s : State) : s.settle.sys.swPend = s.sys.swPend := by
  simp [State.settle]
@[simp] theorem State.settle_sys_keys (s : State) : s.settle.sys.keys = s.sys.keys := by
  simp [State.settle]
@[simp] theorem State.settle_sys_parBad (s : State) : s.settle.sys.parBad = s.sys.parBad := by
  simp [State.settle]
@[simp] theorem State.settle_sys_shBad (s : State) : s.settle.sys.shBad = s.sys.shBad := by
  simp [State.settle]
@[simp] theorem State.settle_sys_parHit (s : State) : s.settle.sys.parHit = s.sys.parHit := by
  simp [State.settle]
@[simp] theorem State.settle_pow (s : State) : s.settle.pow = s.pow := by
  simp [State.settle]
@[simp] theorem State.settle_slu_ctl (s : State) : s.settle.slu.ctl = s.slu.ctl := by
  simp [State.settle]
@[simp] theorem State.settle_slu_len (s : State) : s.settle.slu.len = s.slu.len := by
  simp [State.settle]
@[simp] theorem State.settle_slu_keep (s : State) : s.settle.slu.keep = s.slu.keep := by
  simp [State.settle]
@[simp] theorem State.settle_slu_safe (s : State) : s.settle.slu.safe = s.slu.safe := by
  simp [State.settle]
@[simp] theorem State.settle_slu_cause (s : State) : s.settle.slu.cause = s.slu.cause := by
  simp [State.settle]
@[simp] theorem State.settle_slu_relVal (s : State) : s.settle.slu.relVal = s.slu.relVal := by
  simp [State.settle]
@[simp] theorem State.settle_slu_relLat (s : State) : s.settle.slu.relLat = s.slu.relLat := by
  simp [State.settle]
@[simp] theorem State.settle_slu_tideOk (s : State) : s.settle.slu.tideOk = s.slu.tideOk := by
  simp [State.settle]
@[simp] theorem State.settle_slu_localOk (s : State) : s.settle.slu.localOk = s.slu.localOk := by
  simp [State.settle]
@[simp] theorem State.settle_slu_fresh (s : State) : s.settle.slu.fresh = s.slu.fresh := by
  simp [State.settle]
@[simp] theorem State.settle_slu_lastRel (s : State) : s.settle.slu.lastRel = s.slu.lastRel := by
  simp [State.settle]
@[simp] theorem State.settle_slu_txNone (s : State) : s.settle.slu.txNone = s.slu.txNone := by
  simp [State.settle]
@[simp] theorem State.settle_slu_pairBad (s : State) : s.settle.slu.pairBad = s.slu.pairBad := by
  simp [State.settle]
@[simp] theorem State.settle_slu_cfgErr (s : State) : s.settle.slu.cfgErr = s.slu.cfgErr := by
  simp [State.settle]
@[simp] theorem State.settle_slu_waive (s : State) : s.settle.slu.waive = s.slu.waive := by
  simp [State.settle]
@[simp] theorem State.settle_slu_burst (s : State) : s.settle.slu.burst = s.slu.burst := by
  simp [State.settle]
@[simp] theorem State.settle_slu_det (s : State) : s.settle.slu.det = s.slu.det := by
  simp [State.settle]
@[simp] theorem State.settle_slu_safeIn (s : State) : s.settle.slu.safeIn = s.slu.safeIn := by
  simp [State.settle]
@[simp] theorem State.settle_slu_burstPend (s : State) : s.settle.slu.burstPend = s.slu.burstPend := by
  simp [State.settle]
@[simp] theorem State.settle_line_ctl (s : State) : s.settle.line.ctl = s.line.ctl := by
  simp [State.settle]
@[simp] theorem State.settle_line_addr (s : State) : s.settle.line.addr = s.line.addr := by
  simp [State.settle]
@[simp] theorem State.settle_line_dupAddr (s : State) : s.settle.line.dupAddr = s.line.dupAddr := by
  simp [State.settle]
@[simp] theorem State.settle_line_c0fmt (s : State) : s.settle.line.c0fmt = s.line.c0fmt := by
  simp [State.settle]
@[simp] theorem State.settle_line_cfgErr (s : State) : s.settle.line.cfgErr = s.line.cfgErr := by
  simp [State.settle]
@[simp] theorem State.settle_line_dlyMain (s : State) : s.settle.line.dlyMain = s.line.dlyMain := by
  simp [State.settle]
@[simp] theorem State.settle_line_dlyBackup (s : State) : s.settle.line.dlyBackup = s.line.dlyBackup := by
  simp [State.settle]
@[simp] theorem State.settle_line_dlyPend (s : State) : s.settle.line.dlyPend = s.line.dlyPend := by
  simp [State.settle]
@[simp] theorem State.settle_line_soundOut (s : State) : s.settle.line.soundOut = s.line.soundOut := by
  simp [State.settle]
@[simp] theorem State.settle_line_rollSlot (s : State) : s.settle.line.rollSlot = s.line.rollSlot := by
  simp [State.settle]
@[simp] theorem State.settle_line_rollSh (s : State) : s.settle.line.rollSh = s.line.rollSh := by
  simp [State.settle]
@[simp] theorem State.settle_line_rollShPair (s : State) : s.settle.line.rollShPair = s.line.rollShPair := by
  simp [State.settle]
@[simp] theorem State.settle_line_bridge (s : State) : s.settle.line.bridge = s.line.bridge := by
  simp [State.settle]
@[simp] theorem State.settle_line_bridgePA (s : State) : s.settle.line.bridgePA = s.line.bridgePA := by
  simp [State.settle]
@[simp] theorem State.settle_line_bridgeAP (s : State) : s.settle.line.bridgeAP = s.line.bridgeAP := by
  simp [State.settle]
@[simp] theorem State.settle_line_plcCtl (s : State) : s.settle.line.plcCtl = s.line.plcCtl := by
  simp [State.settle]
@[simp] theorem State.settle_line_plcCtlSh (s : State) : s.settle.line.plcCtlSh = s.line.plcCtlSh := by
  simp [State.settle]
@[simp] theorem State.settle_line_plan (s : State) : s.settle.line.plan = s.line.plan := by
  simp [State.settle]
@[simp] theorem State.settle_line_planSh (s : State) : s.settle.line.planSh = s.line.planSh := by
  simp [State.settle]
@[simp] theorem State.settle_line_policy (s : State) : s.settle.line.policy = s.line.policy := by
  simp [State.settle]
@[simp] theorem State.settle_line_policySh (s : State) : s.settle.line.policySh = s.line.policySh := by
  simp [State.settle]
@[simp] theorem State.settle_line_clamp (s : State) : s.settle.line.clamp = s.line.clamp := by
  simp [State.settle]
@[simp] theorem State.settle_line_better (s : State) : s.settle.line.better = s.line.better := by
  simp [State.settle]
@[simp] theorem State.settle_line_nodrv (s : State) : s.settle.line.nodrv = s.line.nodrv := by
  simp [State.settle]
@[simp] theorem State.settle_line_rank (s : State) : s.settle.line.rank = s.line.rank := by
  simp [State.settle]
@[simp] theorem State.settle_line_level (s : State) : s.settle.line.level = s.line.level := by
  simp [State.settle]
@[simp] theorem State.settle_line_marginRx (s : State) : s.settle.line.marginRx = s.line.marginRx := by
  simp [State.settle]
@[simp] theorem State.settle_line_marginPred (s : State) : s.settle.line.marginPred = s.line.marginPred := by
  simp [State.settle]
@[simp] theorem State.settle_line_pairCtl (s : State) : s.settle.line.pairCtl = s.line.pairCtl := by
  simp [State.settle]
@[simp] theorem State.settle_line_pairBt (s : State) : s.settle.line.pairBt = s.line.pairBt := by
  simp [State.settle]
@[simp] theorem State.settle_line_pairBtSh (s : State) : s.settle.line.pairBtSh = s.line.pairBtSh := by
  simp [State.settle]
@[simp] theorem State.settle_line_pairDbt (s : State) : s.settle.line.pairDbt = s.line.pairDbt := by
  simp [State.settle]
@[simp] theorem State.settle_line_pairDbtSh (s : State) : s.settle.line.pairDbtSh = s.line.pairDbtSh := by
  simp [State.settle]
@[simp] theorem State.settle_line_btErr (s : State) : s.settle.line.btErr = s.line.btErr := by
  simp [State.settle]
@[simp] theorem State.settle_line_tdcv (s : State) : s.settle.line.tdcv = s.line.tdcv := by
  simp [State.settle]
@[simp] theorem State.settle_line_plc (s : State) : s.settle.line.plc = s.line.plc := by
  simp [State.settle]
@[simp] theorem State.settle_line_pair (s : State) : s.settle.line.pair = s.line.pair := by
  simp [State.settle]
@[simp] theorem State.settle_line_rrLast (s : State) : s.settle.line.rrLast = s.line.rrLast := by
  simp [State.settle]
@[simp] theorem State.settle_line_gasp (s : State) : s.settle.line.gasp = s.line.gasp := by
  simp [State.settle]
@[simp] theorem State.settle_line_chanPend (s : State) : s.settle.line.chanPend = s.line.chanPend := by
  simp [State.settle]
@[simp] theorem State.settle_tide (s : State) : s.settle.tide = s.tide := by
  simp [State.settle]
@[simp] theorem State.settle_cal_ctl (s : State) : s.settle.cal.ctl = s.cal.ctl := by
  simp [State.settle]
@[simp] theorem State.settle_cal_bad (s : State) : s.settle.cal.bad = s.cal.bad := by
  simp [State.settle]
@[simp] theorem State.settle_cal_deny (s : State) : s.settle.cal.deny = s.cal.deny := by
  simp [State.settle]
@[simp] theorem State.settle_cal_range (s : State) : s.settle.cal.range = s.cal.range := by
  simp [State.settle]
@[simp] theorem State.settle_cal_wrap (s : State) : s.settle.cal.wrap = s.cal.wrap := by
  simp [State.settle]
@[simp] theorem State.settle_cal_pend (s : State) : s.settle.cal.pend = s.cal.pend := by
  simp [State.settle]
@[simp] theorem State.settle_cal_hold (s : State) : s.settle.cal.hold = s.cal.hold := by
  simp [State.settle]
@[simp] theorem State.settle_cal_latch (s : State) : s.settle.cal.latch = s.cal.latch := by
  simp [State.settle]
@[simp] theorem State.settle_sched (s : State) : s.settle.sched = s.sched := by
  simp [State.settle]
@[simp] theorem State.settle_tim (s : State) : s.settle.tim = s.tim := by
  simp [State.settle]
@[simp] theorem State.settle_eng_tnow (s : State) : s.settle.eng.tnow = s.eng.tnow := by
  simp [State.settle]
@[simp] theorem State.settle_eng_go (s : State) : s.settle.eng.go = s.eng.go := by
  simp [State.settle]
@[simp] theorem State.settle_eng_romPan (s : State) : s.settle.eng.romPan = s.eng.romPan := by
  simp [State.settle]
@[simp] theorem State.settle_eng_wdEn (s : State) : s.settle.eng.wdEn = s.eng.wdEn := by
  simp [State.settle]
@[simp] theorem State.settle_eng_wdt (s : State) : s.settle.eng.wdt = s.eng.wdt := by
  simp [State.settle]
@[simp] theorem State.settle_eng_wdLeft (s : State) : s.settle.eng.wdLeft = s.eng.wdLeft := by
  simp [State.settle]
@[simp] theorem State.settle_eng_started (s : State) : s.settle.eng.started = s.eng.started := by
  simp [State.settle]
@[simp] theorem State.settle_eng_auth (s : State) : s.settle.eng.auth = s.eng.auth := by
  simp [State.settle]
@[simp] theorem State.settle_eng_imgLock (s : State) : s.settle.eng.imgLock = s.eng.imgLock := by
  simp [State.settle]
@[simp] theorem State.settle_eng_cfgErr (s : State) : s.settle.eng.cfgErr = s.eng.cfgErr := by
  simp [State.settle]
@[simp] theorem State.settle_eng_locks (s : State) : s.settle.eng.locks = s.eng.locks := by
  simp [State.settle]
@[simp] theorem State.settle_eng_bp (s : State) : s.settle.eng.bp = s.eng.bp := by
  simp [State.settle]
@[simp] theorem State.settle_eng_stock (s : State) : s.settle.eng.stock = s.eng.stock := by
  simp [State.settle]
@[simp] theorem State.settle_pans (s : State) : s.settle.pans = s.pans := by
  simp [State.settle]
@[simp] theorem State.settle_flt (s : State) : s.settle.flt = s.flt := by
  simp [State.settle]
@[simp] theorem State.settle_alloc (s : State) : s.settle.alloc = s.alloc := by
  simp [State.settle]
@[simp] theorem State.settle_window (s : State) : s.settle.window = s.window := by
  simp [State.settle]
@[simp] theorem State.settle_windowFrom (s : State) : s.settle.windowFrom = s.windowFrom := by
  simp [State.settle]
@[simp] theorem State.settle_host (s : State) : s.settle.host = s.host := by
  simp [State.settle]
@[simp] theorem State.settle_otp (s : State) : s.settle.otp = s.otp := by
  simp [State.settle]
@[simp] theorem State.settle_mem (s : State) : s.settle.mem = s.mem := by
  simp [State.settle]
@[simp] theorem State.settle_out (s : State) : s.settle.out = s.out := by
  simp [State.settle]
@[simp] theorem State.settle_free (s : State) : s.settle.free = s.free := by
  simp [State.settle]
@[simp] theorem State.settle_pending (s : State) : s.settle.pending = s.pending := by
  simp [State.settle]

/-! ### keyFail -/

@[simp] theorem State.keyFail_sys_ctl (s : State) : s.keyFail.sys.ctl = s.sys.ctl := by
  unfold State.keyFail; split <;> simp
@[simp] theorem State.keyFail_sys_scrub (s : State) : s.keyFail.sys.scrub = s.sys.scrub := by
  unfold State.keyFail; split <;> simp
@[simp] theorem State.keyFail_sys_allocErr (s : State) : s.keyFail.sys.allocErr = s.sys.allocErr := by
  unfold State.keyFail; split <;> simp
@[simp] theorem State.keyFail_sys_panLock (s : State) : s.keyFail.sys.panLock = s.sys.panLock := by
  unfold State.keyFail; split <;> simp
@[simp] theorem State.keyFail_sys_dbgLock (s : State) : s.keyFail.sys.dbgLock = s.sys.dbgLock := by
  unfold State.keyFail; split <;> simp
@[simp] theorem State.keyFail_sys_cfgPar (s : State) : s.keyFail.sys.cfgPar = s.sys.cfgPar := by
  unfold State.keyFail; split <;> simp
@[simp] theorem State.keyFail_sys_pshad (s : State) : s.keyFail.sys.pshad = s.sys.pshad := by
  unfold State.keyFail; split <;> simp
@[simp] theorem State.keyFail_sys_pllErr (s : State) : s.keyFail.sys.pllErr = s.sys.pllErr := by
  unfold State.keyFail; split <;> simp
@[simp] theorem State.keyFail_sys_lfErr (s : State) : s.keyFail.sys.lfErr = s.sys.lfErr := by
  unfold State.keyFail; split <;> simp
@[simp] theorem State.keyFail_sys_otpErr (s : State) : s.keyFail.sys.otpErr = s.sys.otpErr := by
  unfold State.keyFail; split <;> simp
@[simp] theorem State.keyFail_sys_ploc (s : State) : s.keyFail.sys.ploc = s.sys.ploc := by
  unfold State.keyFail; split <;> simp
@[simp] theorem State.keyFail_sys_rstCause (s : State) : s.keyFail.sys.rstCause = s.sys.rstCause := by
  unfold State.keyFail; split <;> simp
@[simp] theorem State.keyFail_sys_swPend (s : State) : s.keyFail.sys.swPend = s.sys.swPend := by
  unfold State.keyFail; split <;> simp
@[simp] theorem State.keyFail_sys_keys (s : State) : s.keyFail.sys.keys = s.sys.keys := by
  unfold State.keyFail; split <;> simp
@[simp] theorem State.keyFail_sys_parBad (s : State) : s.keyFail.sys.parBad = s.sys.parBad := by
  unfold State.keyFail; split <;> simp
@[simp] theorem State.keyFail_sys_shBad (s : State) : s.keyFail.sys.shBad = s.sys.shBad := by
  unfold State.keyFail; split <;> simp
@[simp] theorem State.keyFail_sys_parHit (s : State) : s.keyFail.sys.parHit = s.sys.parHit := by
  unfold State.keyFail; split <;> simp
@[simp] theorem State.keyFail_pow (s : State) : s.keyFail.pow = s.pow := by
  unfold State.keyFail; split <;> simp
@[simp] theorem State.keyFail_slu (s : State) : s.keyFail.slu = s.slu := by
  unfold State.keyFail; split <;> simp
@[simp] theorem State.keyFail_line (s : State) : s.keyFail.line = s.line := by
  unfold State.keyFail; split <;> simp
@[simp] theorem State.keyFail_tide (s : State) : s.keyFail.tide = s.tide := by
  unfold State.keyFail; split <;> simp
@[simp] theorem State.keyFail_cal (s : State) : s.keyFail.cal = s.cal := by
  unfold State.keyFail; split <;> simp
@[simp] theorem State.keyFail_sched (s : State) : s.keyFail.sched = s.sched := by
  unfold State.keyFail; split <;> simp
@[simp] theorem State.keyFail_tim (s : State) : s.keyFail.tim = s.tim := by
  unfold State.keyFail; split <;> simp
@[simp] theorem State.keyFail_eng_tnow (s : State) : s.keyFail.eng.tnow = s.eng.tnow := by
  unfold State.keyFail; split <;> simp
@[simp] theorem State.keyFail_eng_go (s : State) : s.keyFail.eng.go = s.eng.go := by
  unfold State.keyFail; split <;> simp
@[simp] theorem State.keyFail_eng_romPan (s : State) : s.keyFail.eng.romPan = s.eng.romPan := by
  unfold State.keyFail; split <;> simp
@[simp] theorem State.keyFail_eng_wdEn (s : State) : s.keyFail.eng.wdEn = s.eng.wdEn := by
  unfold State.keyFail; split <;> simp
@[simp] theorem State.keyFail_eng_wdt (s : State) : s.keyFail.eng.wdt = s.eng.wdt := by
  unfold State.keyFail; split <;> simp
@[simp] theorem State.keyFail_eng_wdLeft (s : State) : s.keyFail.eng.wdLeft = s.eng.wdLeft := by
  unfold State.keyFail; split <;> simp
@[simp] theorem State.keyFail_eng_started (s : State) : s.keyFail.eng.started = s.eng.started := by
  unfold State.keyFail; split <;> simp
@[simp] theorem State.keyFail_eng_auth (s : State) : s.keyFail.eng.auth = s.eng.auth := by
  unfold State.keyFail; split <;> simp
@[simp] theorem State.keyFail_eng_imgLock (s : State) : s.keyFail.eng.imgLock = s.eng.imgLock := by
  unfold State.keyFail; split <;> simp
@[simp] theorem State.keyFail_eng_cfgErr (s : State) : s.keyFail.eng.cfgErr = s.eng.cfgErr := by
  unfold State.keyFail; split <;> simp
@[simp] theorem State.keyFail_eng_locks (s : State) : s.keyFail.eng.locks = s.eng.locks := by
  unfold State.keyFail; split <;> simp
@[simp] theorem State.keyFail_eng_bp (s : State) : s.keyFail.eng.bp = s.eng.bp := by
  unfold State.keyFail; split <;> simp
@[simp] theorem State.keyFail_eng_stock (s : State) : s.keyFail.eng.stock = s.eng.stock := by
  unfold State.keyFail; split <;> simp
@[simp] theorem State.keyFail_pans (s : State) : s.keyFail.pans = s.pans := by
  unfold State.keyFail; split <;> simp
@[simp] theorem State.keyFail_flt (s : State) : s.keyFail.flt = s.flt := by
  unfold State.keyFail; split <;> simp
@[simp] theorem State.keyFail_alloc (s : State) : s.keyFail.alloc = s.alloc := by
  unfold State.keyFail; split <;> simp
@[simp] theorem State.keyFail_window (s : State) : s.keyFail.window = s.window := by
  unfold State.keyFail; split <;> simp
@[simp] theorem State.keyFail_windowFrom (s : State) : s.keyFail.windowFrom = s.windowFrom := by
  unfold State.keyFail; split <;> simp
@[simp] theorem State.keyFail_host (s : State) : s.keyFail.host = s.host := by
  unfold State.keyFail; split <;> simp
@[simp] theorem State.keyFail_otp (s : State) : s.keyFail.otp = s.otp := by
  unfold State.keyFail; split <;> simp
@[simp] theorem State.keyFail_mem (s : State) : s.keyFail.mem = s.mem := by
  unfold State.keyFail; split <;> simp
@[simp] theorem State.keyFail_out (s : State) : s.keyFail.out = s.out := by
  unfold State.keyFail; split <;> simp
@[simp] theorem State.keyFail_free (s : State) : s.keyFail.free = s.free := by
  unfold State.keyFail; split <;> simp
@[simp] theorem State.keyFail_pending (s : State) : s.keyFail.pending = s.pending := by
  unfold State.keyFail; split <;> simp

/-! ### setLfErr -/

@[simp] theorem State.setLfErr_sys_ctl (s : State) : s.setLfErr.sys.ctl = s.sys.ctl := by
  unfold State.setLfErr; split <;> simp
@[simp] theorem State.setLfErr_sys_scrub (s : State) : s.setLfErr.sys.scrub = s.sys.scrub := by
  unfold State.setLfErr; split <;> simp
@[simp] theorem State.setLfErr_sys_allocErr (s : State) : s.setLfErr.sys.allocErr = s.sys.allocErr := by
  unfold State.setLfErr; split <;> simp
@[simp] theorem State.setLfErr_sys_panLock (s : State) : s.setLfErr.sys.panLock = s.sys.panLock := by
  unfold State.setLfErr; split <;> simp
@[simp] theorem State.setLfErr_sys_dbgLock (s : State) : s.setLfErr.sys.dbgLock = s.sys.dbgLock := by
  unfold State.setLfErr; split <;> simp
@[simp] theorem State.setLfErr_sys_cfgPar (s : State) : s.setLfErr.sys.cfgPar = s.sys.cfgPar := by
  unfold State.setLfErr; split <;> simp
@[simp] theorem State.setLfErr_sys_keyFail (s : State) : s.setLfErr.sys.keyFail = s.sys.keyFail := by
  unfold State.setLfErr; split <;> simp
@[simp] theorem State.setLfErr_sys_pshad (s : State) : s.setLfErr.sys.pshad = s.sys.pshad := by
  unfold State.setLfErr; split <;> simp
@[simp] theorem State.setLfErr_sys_pllErr (s : State) : s.setLfErr.sys.pllErr = s.sys.pllErr := by
  unfold State.setLfErr; split <;> simp
@[simp] theorem State.setLfErr_sys_otpErr (s : State) : s.setLfErr.sys.otpErr = s.sys.otpErr := by
  unfold State.setLfErr; split <;> simp
@[simp] theorem State.setLfErr_sys_ploc (s : State) : s.setLfErr.sys.ploc = s.sys.ploc := by
  unfold State.setLfErr; split <;> simp
@[simp] theorem State.setLfErr_sys_rstCause (s : State) : s.setLfErr.sys.rstCause = s.sys.rstCause := by
  unfold State.setLfErr; split <;> simp
@[simp] theorem State.setLfErr_sys_swPend (s : State) : s.setLfErr.sys.swPend = s.sys.swPend := by
  unfold State.setLfErr; split <;> simp
@[simp] theorem State.setLfErr_sys_keys (s : State) : s.setLfErr.sys.keys = s.sys.keys := by
  unfold State.setLfErr; split <;> simp
@[simp] theorem State.setLfErr_sys_parBad (s : State) : s.setLfErr.sys.parBad = s.sys.parBad := by
  unfold State.setLfErr; split <;> simp
@[simp] theorem State.setLfErr_sys_shBad (s : State) : s.setLfErr.sys.shBad = s.sys.shBad := by
  unfold State.setLfErr; split <;> simp
@[simp] theorem State.setLfErr_sys_parHit (s : State) : s.setLfErr.sys.parHit = s.sys.parHit := by
  unfold State.setLfErr; split <;> simp
@[simp] theorem State.setLfErr_pow (s : State) : s.setLfErr.pow = s.pow := by
  unfold State.setLfErr; split <;> simp
@[simp] theorem State.setLfErr_slu (s : State) : s.setLfErr.slu = s.slu := by
  unfold State.setLfErr; split <;> simp
@[simp] theorem State.setLfErr_line (s : State) : s.setLfErr.line = s.line := by
  unfold State.setLfErr; split <;> simp
@[simp] theorem State.setLfErr_tide (s : State) : s.setLfErr.tide = s.tide := by
  unfold State.setLfErr; split <;> simp
@[simp] theorem State.setLfErr_cal (s : State) : s.setLfErr.cal = s.cal := by
  unfold State.setLfErr; split <;> simp
@[simp] theorem State.setLfErr_sched (s : State) : s.setLfErr.sched = s.sched := by
  unfold State.setLfErr; split <;> simp
@[simp] theorem State.setLfErr_tim (s : State) : s.setLfErr.tim = s.tim := by
  unfold State.setLfErr; split <;> simp
@[simp] theorem State.setLfErr_eng_tnow (s : State) : s.setLfErr.eng.tnow = s.eng.tnow := by
  unfold State.setLfErr; split <;> simp
@[simp] theorem State.setLfErr_eng_go (s : State) : s.setLfErr.eng.go = s.eng.go := by
  unfold State.setLfErr; split <;> simp
@[simp] theorem State.setLfErr_eng_romPan (s : State) : s.setLfErr.eng.romPan = s.eng.romPan := by
  unfold State.setLfErr; split <;> simp
@[simp] theorem State.setLfErr_eng_wdEn (s : State) : s.setLfErr.eng.wdEn = s.eng.wdEn := by
  unfold State.setLfErr; split <;> simp
@[simp] theorem State.setLfErr_eng_wdt (s : State) : s.setLfErr.eng.wdt = s.eng.wdt := by
  unfold State.setLfErr; split <;> simp
@[simp] theorem State.setLfErr_eng_wdLeft (s : State) : s.setLfErr.eng.wdLeft = s.eng.wdLeft := by
  unfold State.setLfErr; split <;> simp
@[simp] theorem State.setLfErr_eng_started (s : State) : s.setLfErr.eng.started = s.eng.started := by
  unfold State.setLfErr; split <;> simp
@[simp] theorem State.setLfErr_eng_auth (s : State) : s.setLfErr.eng.auth = s.eng.auth := by
  unfold State.setLfErr; split <;> simp
@[simp] theorem State.setLfErr_eng_imgLock (s : State) : s.setLfErr.eng.imgLock = s.eng.imgLock := by
  unfold State.setLfErr; split <;> simp
@[simp] theorem State.setLfErr_eng_cfgErr (s : State) : s.setLfErr.eng.cfgErr = s.eng.cfgErr := by
  unfold State.setLfErr; split <;> simp
@[simp] theorem State.setLfErr_eng_locks (s : State) : s.setLfErr.eng.locks = s.eng.locks := by
  unfold State.setLfErr; split <;> simp
@[simp] theorem State.setLfErr_eng_bp (s : State) : s.setLfErr.eng.bp = s.eng.bp := by
  unfold State.setLfErr; split <;> simp
@[simp] theorem State.setLfErr_eng_stock (s : State) : s.setLfErr.eng.stock = s.eng.stock := by
  unfold State.setLfErr; split <;> simp
@[simp] theorem State.setLfErr_pans (s : State) : s.setLfErr.pans = s.pans := by
  unfold State.setLfErr; split <;> simp
@[simp] theorem State.setLfErr_flt (s : State) : s.setLfErr.flt = s.flt := by
  unfold State.setLfErr; split <;> simp
@[simp] theorem State.setLfErr_alloc (s : State) : s.setLfErr.alloc = s.alloc := by
  unfold State.setLfErr; split <;> simp
@[simp] theorem State.setLfErr_window (s : State) : s.setLfErr.window = s.window := by
  unfold State.setLfErr; split <;> simp
@[simp] theorem State.setLfErr_windowFrom (s : State) : s.setLfErr.windowFrom = s.windowFrom := by
  unfold State.setLfErr; split <;> simp
@[simp] theorem State.setLfErr_host (s : State) : s.setLfErr.host = s.host := by
  unfold State.setLfErr; split <;> simp
@[simp] theorem State.setLfErr_otp (s : State) : s.setLfErr.otp = s.otp := by
  unfold State.setLfErr; split <;> simp
@[simp] theorem State.setLfErr_mem (s : State) : s.setLfErr.mem = s.mem := by
  unfold State.setLfErr; split <;> simp
@[simp] theorem State.setLfErr_out (s : State) : s.setLfErr.out = s.out := by
  unfold State.setLfErr; split <;> simp
@[simp] theorem State.setLfErr_free (s : State) : s.setLfErr.free = s.free := by
  unfold State.setLfErr; split <;> simp
@[simp] theorem State.setLfErr_pending (s : State) : s.setLfErr.pending = s.pending := by
  unfold State.setLfErr; split <;> simp

/-! ### setOtpErr -/

@[simp] theorem State.setOtpErr_sys_ctl (s : State) : s.setOtpErr.sys.ctl = s.sys.ctl := by
  unfold State.setOtpErr; split <;> simp
@[simp] theorem State.setOtpErr_sys_scrub (s : State) : s.setOtpErr.sys.scrub = s.sys.scrub := by
  unfold State.setOtpErr; split <;> simp
@[simp] theorem State.setOtpErr_sys_allocErr (s : State) : s.setOtpErr.sys.allocErr = s.sys.allocErr := by
  unfold State.setOtpErr; split <;> simp
@[simp] theorem State.setOtpErr_sys_panLock (s : State) : s.setOtpErr.sys.panLock = s.sys.panLock := by
  unfold State.setOtpErr; split <;> simp
@[simp] theorem State.setOtpErr_sys_dbgLock (s : State) : s.setOtpErr.sys.dbgLock = s.sys.dbgLock := by
  unfold State.setOtpErr; split <;> simp
@[simp] theorem State.setOtpErr_sys_cfgPar (s : State) : s.setOtpErr.sys.cfgPar = s.sys.cfgPar := by
  unfold State.setOtpErr; split <;> simp
@[simp] theorem State.setOtpErr_sys_keyFail (s : State) : s.setOtpErr.sys.keyFail = s.sys.keyFail := by
  unfold State.setOtpErr; split <;> simp
@[simp] theorem State.setOtpErr_sys_pshad (s : State) : s.setOtpErr.sys.pshad = s.sys.pshad := by
  unfold State.setOtpErr; split <;> simp
@[simp] theorem State.setOtpErr_sys_pllErr (s : State) : s.setOtpErr.sys.pllErr = s.sys.pllErr := by
  unfold State.setOtpErr; split <;> simp
@[simp] theorem State.setOtpErr_sys_lfErr (s : State) : s.setOtpErr.sys.lfErr = s.sys.lfErr := by
  unfold State.setOtpErr; split <;> simp
@[simp] theorem State.setOtpErr_sys_ploc (s : State) : s.setOtpErr.sys.ploc = s.sys.ploc := by
  unfold State.setOtpErr; split <;> simp
@[simp] theorem State.setOtpErr_sys_rstCause (s : State) : s.setOtpErr.sys.rstCause = s.sys.rstCause := by
  unfold State.setOtpErr; split <;> simp
@[simp] theorem State.setOtpErr_sys_swPend (s : State) : s.setOtpErr.sys.swPend = s.sys.swPend := by
  unfold State.setOtpErr; split <;> simp
@[simp] theorem State.setOtpErr_sys_keys (s : State) : s.setOtpErr.sys.keys = s.sys.keys := by
  unfold State.setOtpErr; split <;> simp
@[simp] theorem State.setOtpErr_sys_parBad (s : State) : s.setOtpErr.sys.parBad = s.sys.parBad := by
  unfold State.setOtpErr; split <;> simp
@[simp] theorem State.setOtpErr_sys_shBad (s : State) : s.setOtpErr.sys.shBad = s.sys.shBad := by
  unfold State.setOtpErr; split <;> simp
@[simp] theorem State.setOtpErr_sys_parHit (s : State) : s.setOtpErr.sys.parHit = s.sys.parHit := by
  unfold State.setOtpErr; split <;> simp
@[simp] theorem State.setOtpErr_pow (s : State) : s.setOtpErr.pow = s.pow := by
  unfold State.setOtpErr; split <;> simp
@[simp] theorem State.setOtpErr_slu (s : State) : s.setOtpErr.slu = s.slu := by
  unfold State.setOtpErr; split <;> simp
@[simp] theorem State.setOtpErr_line (s : State) : s.setOtpErr.line = s.line := by
  unfold State.setOtpErr; split <;> simp
@[simp] theorem State.setOtpErr_tide (s : State) : s.setOtpErr.tide = s.tide := by
  unfold State.setOtpErr; split <;> simp
@[simp] theorem State.setOtpErr_cal (s : State) : s.setOtpErr.cal = s.cal := by
  unfold State.setOtpErr; split <;> simp
@[simp] theorem State.setOtpErr_sched (s : State) : s.setOtpErr.sched = s.sched := by
  unfold State.setOtpErr; split <;> simp
@[simp] theorem State.setOtpErr_tim (s : State) : s.setOtpErr.tim = s.tim := by
  unfold State.setOtpErr; split <;> simp
@[simp] theorem State.setOtpErr_eng_tnow (s : State) : s.setOtpErr.eng.tnow = s.eng.tnow := by
  unfold State.setOtpErr; split <;> simp
@[simp] theorem State.setOtpErr_eng_go (s : State) : s.setOtpErr.eng.go = s.eng.go := by
  unfold State.setOtpErr; split <;> simp
@[simp] theorem State.setOtpErr_eng_romPan (s : State) : s.setOtpErr.eng.romPan = s.eng.romPan := by
  unfold State.setOtpErr; split <;> simp
@[simp] theorem State.setOtpErr_eng_wdEn (s : State) : s.setOtpErr.eng.wdEn = s.eng.wdEn := by
  unfold State.setOtpErr; split <;> simp
@[simp] theorem State.setOtpErr_eng_wdt (s : State) : s.setOtpErr.eng.wdt = s.eng.wdt := by
  unfold State.setOtpErr; split <;> simp
@[simp] theorem State.setOtpErr_eng_wdLeft (s : State) : s.setOtpErr.eng.wdLeft = s.eng.wdLeft := by
  unfold State.setOtpErr; split <;> simp
@[simp] theorem State.setOtpErr_eng_started (s : State) : s.setOtpErr.eng.started = s.eng.started := by
  unfold State.setOtpErr; split <;> simp
@[simp] theorem State.setOtpErr_eng_auth (s : State) : s.setOtpErr.eng.auth = s.eng.auth := by
  unfold State.setOtpErr; split <;> simp
@[simp] theorem State.setOtpErr_eng_imgLock (s : State) : s.setOtpErr.eng.imgLock = s.eng.imgLock := by
  unfold State.setOtpErr; split <;> simp
@[simp] theorem State.setOtpErr_eng_cfgErr (s : State) : s.setOtpErr.eng.cfgErr = s.eng.cfgErr := by
  unfold State.setOtpErr; split <;> simp
@[simp] theorem State.setOtpErr_eng_locks (s : State) : s.setOtpErr.eng.locks = s.eng.locks := by
  unfold State.setOtpErr; split <;> simp
@[simp] theorem State.setOtpErr_eng_bp (s : State) : s.setOtpErr.eng.bp = s.eng.bp := by
  unfold State.setOtpErr; split <;> simp
@[simp] theorem State.setOtpErr_eng_stock (s : State) : s.setOtpErr.eng.stock = s.eng.stock := by
  unfold State.setOtpErr; split <;> simp
@[simp] theorem State.setOtpErr_pans (s : State) : s.setOtpErr.pans = s.pans := by
  unfold State.setOtpErr; split <;> simp
@[simp] theorem State.setOtpErr_flt (s : State) : s.setOtpErr.flt = s.flt := by
  unfold State.setOtpErr; split <;> simp
@[simp] theorem State.setOtpErr_alloc (s : State) : s.setOtpErr.alloc = s.alloc := by
  unfold State.setOtpErr; split <;> simp
@[simp] theorem State.setOtpErr_window (s : State) : s.setOtpErr.window = s.window := by
  unfold State.setOtpErr; split <;> simp
@[simp] theorem State.setOtpErr_windowFrom (s : State) : s.setOtpErr.windowFrom = s.windowFrom := by
  unfold State.setOtpErr; split <;> simp
@[simp] theorem State.setOtpErr_host (s : State) : s.setOtpErr.host = s.host := by
  unfold State.setOtpErr; split <;> simp
@[simp] theorem State.setOtpErr_otp (s : State) : s.setOtpErr.otp = s.otp := by
  unfold State.setOtpErr; split <;> simp
@[simp] theorem State.setOtpErr_mem (s : State) : s.setOtpErr.mem = s.mem := by
  unfold State.setOtpErr; split <;> simp
@[simp] theorem State.setOtpErr_out (s : State) : s.setOtpErr.out = s.out := by
  unfold State.setOtpErr; split <;> simp
@[simp] theorem State.setOtpErr_free (s : State) : s.setOtpErr.free = s.free := by
  unfold State.setOtpErr; split <;> simp
@[simp] theorem State.setOtpErr_pending (s : State) : s.setOtpErr.pending = s.pending := by
  unfold State.setOtpErr; split <;> simp

/-! ### setTideLock -/

@[simp] theorem State.setTideLock_sys (s : State) (k : Lock) : (s.setTideLock k).sys = s.sys := by
  unfold State.setTideLock; split <;> simp
@[simp] theorem State.setTideLock_pow (s : State) (k : Lock) : (s.setTideLock k).pow = s.pow := by
  unfold State.setTideLock; split <;> simp
@[simp] theorem State.setTideLock_slu (s : State) (k : Lock) : (s.setTideLock k).slu = s.slu := by
  unfold State.setTideLock; split <;> simp
@[simp] theorem State.setTideLock_line (s : State) (k : Lock) : (s.setTideLock k).line = s.line := by
  unfold State.setTideLock; split <;> simp
@[simp] theorem State.setTideLock_cal (s : State) (k : Lock) : (s.setTideLock k).cal = s.cal := by
  unfold State.setTideLock; split <;> simp
@[simp] theorem State.setTideLock_sched (s : State) (k : Lock) : (s.setTideLock k).sched = s.sched := by
  unfold State.setTideLock; split <;> simp
@[simp] theorem State.setTideLock_tim (s : State) (k : Lock) : (s.setTideLock k).tim = s.tim := by
  unfold State.setTideLock; split <;> simp
@[simp] theorem State.setTideLock_eng_tnow (s : State) (k : Lock) : (s.setTideLock k).eng.tnow = s.eng.tnow := by
  unfold State.setTideLock; split <;> simp
@[simp] theorem State.setTideLock_eng_go (s : State) (k : Lock) : (s.setTideLock k).eng.go = s.eng.go := by
  unfold State.setTideLock; split <;> simp
@[simp] theorem State.setTideLock_eng_romPan (s : State) (k : Lock) : (s.setTideLock k).eng.romPan = s.eng.romPan := by
  unfold State.setTideLock; split <;> simp
@[simp] theorem State.setTideLock_eng_wdEn (s : State) (k : Lock) : (s.setTideLock k).eng.wdEn = s.eng.wdEn := by
  unfold State.setTideLock; split <;> simp
@[simp] theorem State.setTideLock_eng_wdt (s : State) (k : Lock) : (s.setTideLock k).eng.wdt = s.eng.wdt := by
  unfold State.setTideLock; split <;> simp
@[simp] theorem State.setTideLock_eng_wdLeft (s : State) (k : Lock) : (s.setTideLock k).eng.wdLeft = s.eng.wdLeft := by
  unfold State.setTideLock; split <;> simp
@[simp] theorem State.setTideLock_eng_started (s : State) (k : Lock) : (s.setTideLock k).eng.started = s.eng.started := by
  unfold State.setTideLock; split <;> simp
@[simp] theorem State.setTideLock_eng_auth (s : State) (k : Lock) : (s.setTideLock k).eng.auth = s.eng.auth := by
  unfold State.setTideLock; split <;> simp
@[simp] theorem State.setTideLock_eng_imgLock (s : State) (k : Lock) : (s.setTideLock k).eng.imgLock = s.eng.imgLock := by
  unfold State.setTideLock; split <;> simp
@[simp] theorem State.setTideLock_eng_cfgErr (s : State) (k : Lock) : (s.setTideLock k).eng.cfgErr = s.eng.cfgErr := by
  unfold State.setTideLock; split <;> simp
@[simp] theorem State.setTideLock_eng_locks (s : State) (k : Lock) : (s.setTideLock k).eng.locks = s.eng.locks := by
  unfold State.setTideLock; split <;> simp
@[simp] theorem State.setTideLock_eng_bp (s : State) (k : Lock) : (s.setTideLock k).eng.bp = s.eng.bp := by
  unfold State.setTideLock; split <;> simp
@[simp] theorem State.setTideLock_eng_stock (s : State) (k : Lock) : (s.setTideLock k).eng.stock = s.eng.stock := by
  unfold State.setTideLock; split <;> simp
@[simp] theorem State.setTideLock_pans (s : State) (k : Lock) : (s.setTideLock k).pans = s.pans := by
  unfold State.setTideLock; split <;> simp
@[simp] theorem State.setTideLock_flt (s : State) (k : Lock) : (s.setTideLock k).flt = s.flt := by
  unfold State.setTideLock; split <;> simp
@[simp] theorem State.setTideLock_alloc (s : State) (k : Lock) : (s.setTideLock k).alloc = s.alloc := by
  unfold State.setTideLock; split <;> simp
@[simp] theorem State.setTideLock_window (s : State) (k : Lock) : (s.setTideLock k).window = s.window := by
  unfold State.setTideLock; split <;> simp
@[simp] theorem State.setTideLock_windowFrom (s : State) (k : Lock) : (s.setTideLock k).windowFrom = s.windowFrom := by
  unfold State.setTideLock; split <;> simp
@[simp] theorem State.setTideLock_host (s : State) (k : Lock) : (s.setTideLock k).host = s.host := by
  unfold State.setTideLock; split <;> simp
@[simp] theorem State.setTideLock_otp (s : State) (k : Lock) : (s.setTideLock k).otp = s.otp := by
  unfold State.setTideLock; split <;> simp
@[simp] theorem State.setTideLock_mem (s : State) (k : Lock) : (s.setTideLock k).mem = s.mem := by
  unfold State.setTideLock; split <;> simp
@[simp] theorem State.setTideLock_out (s : State) (k : Lock) : (s.setTideLock k).out = s.out := by
  unfold State.setTideLock; split <;> simp
@[simp] theorem State.setTideLock_free (s : State) (k : Lock) : (s.setTideLock k).free = s.free := by
  unfold State.setTideLock; split <;> simp
@[simp] theorem State.setTideLock_pending (s : State) (k : Lock) : (s.setTideLock k).pending = s.pending := by
  unfold State.setTideLock; split <;> simp

/-! ### setConf -/

@[simp] theorem State.setConf_sys (s : State) (port : LinePort) (c : Confinement) : (s.setConf port c).sys = s.sys := by
  unfold State.setConf; split <;> cases port <;> simp [State.updPort]
@[simp] theorem State.setConf_pow (s : State) (port : LinePort) (c : Confinement) : (s.setConf port c).pow = s.pow := by
  unfold State.setConf; split <;> cases port <;> simp [State.updPort]
@[simp] theorem State.setConf_slu (s : State) (port : LinePort) (c : Confinement) : (s.setConf port c).slu = s.slu := by
  unfold State.setConf; split <;> cases port <;> simp [State.updPort]
@[simp] theorem State.setConf_tide (s : State) (port : LinePort) (c : Confinement) : (s.setConf port c).tide = s.tide := by
  unfold State.setConf; split <;> cases port <;> simp [State.updPort]
@[simp] theorem State.setConf_cal (s : State) (port : LinePort) (c : Confinement) : (s.setConf port c).cal = s.cal := by
  unfold State.setConf; split <;> cases port <;> simp [State.updPort]
@[simp] theorem State.setConf_sched (s : State) (port : LinePort) (c : Confinement) : (s.setConf port c).sched = s.sched := by
  unfold State.setConf; split <;> cases port <;> simp [State.updPort]
@[simp] theorem State.setConf_tim (s : State) (port : LinePort) (c : Confinement) : (s.setConf port c).tim = s.tim := by
  unfold State.setConf; split <;> cases port <;> simp [State.updPort]
@[simp] theorem State.setConf_eng_tnow (s : State) (port : LinePort) (c : Confinement) : (s.setConf port c).eng.tnow = s.eng.tnow := by
  unfold State.setConf; split <;> cases port <;> simp [State.updPort]
@[simp] theorem State.setConf_eng_go (s : State) (port : LinePort) (c : Confinement) : (s.setConf port c).eng.go = s.eng.go := by
  unfold State.setConf; split <;> cases port <;> simp [State.updPort]
@[simp] theorem State.setConf_eng_romPan (s : State) (port : LinePort) (c : Confinement) : (s.setConf port c).eng.romPan = s.eng.romPan := by
  unfold State.setConf; split <;> cases port <;> simp [State.updPort]
@[simp] theorem State.setConf_eng_wdEn (s : State) (port : LinePort) (c : Confinement) : (s.setConf port c).eng.wdEn = s.eng.wdEn := by
  unfold State.setConf; split <;> cases port <;> simp [State.updPort]
@[simp] theorem State.setConf_eng_wdt (s : State) (port : LinePort) (c : Confinement) : (s.setConf port c).eng.wdt = s.eng.wdt := by
  unfold State.setConf; split <;> cases port <;> simp [State.updPort]
@[simp] theorem State.setConf_eng_wdLeft (s : State) (port : LinePort) (c : Confinement) : (s.setConf port c).eng.wdLeft = s.eng.wdLeft := by
  unfold State.setConf; split <;> cases port <;> simp [State.updPort]
@[simp] theorem State.setConf_eng_started (s : State) (port : LinePort) (c : Confinement) : (s.setConf port c).eng.started = s.eng.started := by
  unfold State.setConf; split <;> cases port <;> simp [State.updPort]
@[simp] theorem State.setConf_eng_auth (s : State) (port : LinePort) (c : Confinement) : (s.setConf port c).eng.auth = s.eng.auth := by
  unfold State.setConf; split <;> cases port <;> simp [State.updPort]
@[simp] theorem State.setConf_eng_imgLock (s : State) (port : LinePort) (c : Confinement) : (s.setConf port c).eng.imgLock = s.eng.imgLock := by
  unfold State.setConf; split <;> cases port <;> simp [State.updPort]
@[simp] theorem State.setConf_eng_cfgErr (s : State) (port : LinePort) (c : Confinement) : (s.setConf port c).eng.cfgErr = s.eng.cfgErr := by
  unfold State.setConf; split <;> cases port <;> simp [State.updPort]
@[simp] theorem State.setConf_eng_locks (s : State) (port : LinePort) (c : Confinement) : (s.setConf port c).eng.locks = s.eng.locks := by
  unfold State.setConf; split <;> cases port <;> simp [State.updPort]
@[simp] theorem State.setConf_eng_bp (s : State) (port : LinePort) (c : Confinement) : (s.setConf port c).eng.bp = s.eng.bp := by
  unfold State.setConf; split <;> cases port <;> simp [State.updPort]
@[simp] theorem State.setConf_eng_stock (s : State) (port : LinePort) (c : Confinement) : (s.setConf port c).eng.stock = s.eng.stock := by
  unfold State.setConf; split <;> cases port <;> simp [State.updPort]
@[simp] theorem State.setConf_pans (s : State) (port : LinePort) (c : Confinement) : (s.setConf port c).pans = s.pans := by
  unfold State.setConf; split <;> cases port <;> simp [State.updPort]
@[simp] theorem State.setConf_flt (s : State) (port : LinePort) (c : Confinement) : (s.setConf port c).flt = s.flt := by
  unfold State.setConf; split <;> cases port <;> simp [State.updPort]
@[simp] theorem State.setConf_alloc (s : State) (port : LinePort) (c : Confinement) : (s.setConf port c).alloc = s.alloc := by
  unfold State.setConf; split <;> cases port <;> simp [State.updPort]
@[simp] theorem State.setConf_window (s : State) (port : LinePort) (c : Confinement) : (s.setConf port c).window = s.window := by
  unfold State.setConf; split <;> cases port <;> simp [State.updPort]
@[simp] theorem State.setConf_windowFrom (s : State) (port : LinePort) (c : Confinement) : (s.setConf port c).windowFrom = s.windowFrom := by
  unfold State.setConf; split <;> cases port <;> simp [State.updPort]
@[simp] theorem State.setConf_host (s : State) (port : LinePort) (c : Confinement) : (s.setConf port c).host = s.host := by
  unfold State.setConf; split <;> cases port <;> simp [State.updPort]
@[simp] theorem State.setConf_otp (s : State) (port : LinePort) (c : Confinement) : (s.setConf port c).otp = s.otp := by
  unfold State.setConf; split <;> cases port <;> simp [State.updPort]
@[simp] theorem State.setConf_mem (s : State) (port : LinePort) (c : Confinement) : (s.setConf port c).mem = s.mem := by
  unfold State.setConf; split <;> cases port <;> simp [State.updPort]
@[simp] theorem State.setConf_out (s : State) (port : LinePort) (c : Confinement) : (s.setConf port c).out = s.out := by
  unfold State.setConf; split <;> cases port <;> simp [State.updPort]
@[simp] theorem State.setConf_free (s : State) (port : LinePort) (c : Confinement) : (s.setConf port c).free = s.free := by
  unfold State.setConf; split <;> cases port <;> simp [State.updPort]
@[simp] theorem State.setConf_pending (s : State) (port : LinePort) (c : Confinement) : (s.setConf port c).pending = s.pending := by
  unfold State.setConf; split <;> cases port <;> simp [State.updPort]

/-! ### advance -/

@[simp] theorem State.advance_eng_tnow (s : State) (t : Fin 8) : (s.advance t).eng.tnow = s.eng.tnow := rfl
@[simp] theorem State.advance_eng_go (s : State) (t : Fin 8) : (s.advance t).eng.go = s.eng.go := rfl
@[simp] theorem State.advance_eng_romPan (s : State) (t : Fin 8) : (s.advance t).eng.romPan = s.eng.romPan := rfl
@[simp] theorem State.advance_eng_wdEn (s : State) (t : Fin 8) : (s.advance t).eng.wdEn = s.eng.wdEn := rfl
@[simp] theorem State.advance_eng_wdt (s : State) (t : Fin 8) : (s.advance t).eng.wdt = s.eng.wdt := rfl
@[simp] theorem State.advance_eng_wdLeft (s : State) (t : Fin 8) : (s.advance t).eng.wdLeft = s.eng.wdLeft := rfl
@[simp] theorem State.advance_eng_started (s : State) (t : Fin 8) : (s.advance t).eng.started = s.eng.started := rfl
@[simp] theorem State.advance_eng_auth (s : State) (t : Fin 8) : (s.advance t).eng.auth = s.eng.auth := rfl
@[simp] theorem State.advance_eng_imgLock (s : State) (t : Fin 8) : (s.advance t).eng.imgLock = s.eng.imgLock := rfl
@[simp] theorem State.advance_eng_cfgErr (s : State) (t : Fin 8) : (s.advance t).eng.cfgErr = s.eng.cfgErr := rfl
@[simp] theorem State.advance_eng_locks (s : State) (t : Fin 8) : (s.advance t).eng.locks = s.eng.locks := rfl
@[simp] theorem State.advance_eng_bp (s : State) (t : Fin 8) : (s.advance t).eng.bp = s.eng.bp := rfl
@[simp] theorem State.advance_eng_stock (s : State) (t : Fin 8) : (s.advance t).eng.stock = s.eng.stock := rfl

/-! ### jump -/

@[simp] theorem State.jump_eng_tnow (s : State) (t : Fin 8) (pc : BitVec 15) : (s.jump t pc).eng.tnow = s.eng.tnow := rfl
@[simp] theorem State.jump_eng_go (s : State) (t : Fin 8) (pc : BitVec 15) : (s.jump t pc).eng.go = s.eng.go := rfl
@[simp] theorem State.jump_eng_romPan (s : State) (t : Fin 8) (pc : BitVec 15) : (s.jump t pc).eng.romPan = s.eng.romPan := rfl
@[simp] theorem State.jump_eng_wdEn (s : State) (t : Fin 8) (pc : BitVec 15) : (s.jump t pc).eng.wdEn = s.eng.wdEn := rfl
@[simp] theorem State.jump_eng_wdt (s : State) (t : Fin 8) (pc : BitVec 15) : (s.jump t pc).eng.wdt = s.eng.wdt := rfl
@[simp] theorem State.jump_eng_wdLeft (s : State) (t : Fin 8) (pc : BitVec 15) : (s.jump t pc).eng.wdLeft = s.eng.wdLeft := rfl
@[simp] theorem State.jump_eng_started (s : State) (t : Fin 8) (pc : BitVec 15) : (s.jump t pc).eng.started = s.eng.started := rfl
@[simp] theorem State.jump_eng_auth (s : State) (t : Fin 8) (pc : BitVec 15) : (s.jump t pc).eng.auth = s.eng.auth := rfl
@[simp] theorem State.jump_eng_imgLock (s : State) (t : Fin 8) (pc : BitVec 15) : (s.jump t pc).eng.imgLock = s.eng.imgLock := rfl
@[simp] theorem State.jump_eng_cfgErr (s : State) (t : Fin 8) (pc : BitVec 15) : (s.jump t pc).eng.cfgErr = s.eng.cfgErr := rfl
@[simp] theorem State.jump_eng_locks (s : State) (t : Fin 8) (pc : BitVec 15) : (s.jump t pc).eng.locks = s.eng.locks := rfl
@[simp] theorem State.jump_eng_bp (s : State) (t : Fin 8) (pc : BitVec 15) : (s.jump t pc).eng.bp = s.eng.bp := rfl
@[simp] theorem State.jump_eng_stock (s : State) (t : Fin 8) (pc : BitVec 15) : (s.jump t pc).eng.stock = s.eng.stock := rfl

/-! ### result -/

@[simp] theorem State.result_sys (s : State) (t : Fin 8) (rd : Fin 16) (v : Word) : (s.result t rd v).sys = s.sys := by
  simp [State.result]
@[simp] theorem State.result_pow (s : State) (t : Fin 8) (rd : Fin 16) (v : Word) : (s.result t rd v).pow = s.pow := by
  simp [State.result]
@[simp] theorem State.result_slu (s : State) (t : Fin 8) (rd : Fin 16) (v : Word) : (s.result t rd v).slu = s.slu := by
  simp [State.result]
@[simp] theorem State.result_irq (s : State) (t : Fin 8) (rd : Fin 16) (v : Word) : (s.result t rd v).irq = s.irq := by
  simp [State.result]
@[simp] theorem State.result_line (s : State) (t : Fin 8) (rd : Fin 16) (v : Word) : (s.result t rd v).line = s.line := by
  simp [State.result]
@[simp] theorem State.result_tide (s : State) (t : Fin 8) (rd : Fin 16) (v : Word) : (s.result t rd v).tide = s.tide := by
  simp [State.result]
@[simp] theorem State.result_cal (s : State) (t : Fin 8) (rd : Fin 16) (v : Word) : (s.result t rd v).cal = s.cal := by
  simp [State.result]
@[simp] theorem State.result_sched (s : State) (t : Fin 8) (rd : Fin 16) (v : Word) : (s.result t rd v).sched = s.sched := by
  simp [State.result]
@[simp] theorem State.result_tim (s : State) (t : Fin 8) (rd : Fin 16) (v : Word) : (s.result t rd v).tim = s.tim := by
  simp [State.result]
@[simp] theorem State.result_eng_tnow (s : State) (t : Fin 8) (rd : Fin 16) (v : Word) : (s.result t rd v).eng.tnow = s.eng.tnow := by
  simp [State.result]
@[simp] theorem State.result_eng_go (s : State) (t : Fin 8) (rd : Fin 16) (v : Word) : (s.result t rd v).eng.go = s.eng.go := by
  simp [State.result]
@[simp] theorem State.result_eng_romPan (s : State) (t : Fin 8) (rd : Fin 16) (v : Word) : (s.result t rd v).eng.romPan = s.eng.romPan := by
  simp [State.result]
@[simp] theorem State.result_eng_wdEn (s : State) (t : Fin 8) (rd : Fin 16) (v : Word) : (s.result t rd v).eng.wdEn = s.eng.wdEn := by
  simp [State.result]
@[simp] theorem State.result_eng_wdt (s : State) (t : Fin 8) (rd : Fin 16) (v : Word) : (s.result t rd v).eng.wdt = s.eng.wdt := by
  simp [State.result]
@[simp] theorem State.result_eng_wdLeft (s : State) (t : Fin 8) (rd : Fin 16) (v : Word) : (s.result t rd v).eng.wdLeft = s.eng.wdLeft := by
  simp [State.result]
@[simp] theorem State.result_eng_started (s : State) (t : Fin 8) (rd : Fin 16) (v : Word) : (s.result t rd v).eng.started = s.eng.started := by
  simp [State.result]
@[simp] theorem State.result_eng_auth (s : State) (t : Fin 8) (rd : Fin 16) (v : Word) : (s.result t rd v).eng.auth = s.eng.auth := by
  simp [State.result]
@[simp] theorem State.result_eng_imgLock (s : State) (t : Fin 8) (rd : Fin 16) (v : Word) : (s.result t rd v).eng.imgLock = s.eng.imgLock := by
  simp [State.result]
@[simp] theorem State.result_eng_cfgErr (s : State) (t : Fin 8) (rd : Fin 16) (v : Word) : (s.result t rd v).eng.cfgErr = s.eng.cfgErr := by
  simp [State.result]
@[simp] theorem State.result_eng_locks (s : State) (t : Fin 8) (rd : Fin 16) (v : Word) : (s.result t rd v).eng.locks = s.eng.locks := by
  simp [State.result]
@[simp] theorem State.result_eng_bp (s : State) (t : Fin 8) (rd : Fin 16) (v : Word) : (s.result t rd v).eng.bp = s.eng.bp := by
  simp [State.result]
@[simp] theorem State.result_eng_stock (s : State) (t : Fin 8) (rd : Fin 16) (v : Word) : (s.result t rd v).eng.stock = s.eng.stock := by
  simp [State.result]
@[simp] theorem State.result_pans (s : State) (t : Fin 8) (rd : Fin 16) (v : Word) : (s.result t rd v).pans = s.pans := by
  simp [State.result]
@[simp] theorem State.result_flt (s : State) (t : Fin 8) (rd : Fin 16) (v : Word) : (s.result t rd v).flt = s.flt := by
  simp [State.result]
@[simp] theorem State.result_alloc (s : State) (t : Fin 8) (rd : Fin 16) (v : Word) : (s.result t rd v).alloc = s.alloc := by
  simp [State.result]
@[simp] theorem State.result_window (s : State) (t : Fin 8) (rd : Fin 16) (v : Word) : (s.result t rd v).window = s.window := by
  simp [State.result]
@[simp] theorem State.result_windowFrom (s : State) (t : Fin 8) (rd : Fin 16) (v : Word) : (s.result t rd v).windowFrom = s.windowFrom := by
  simp [State.result]
@[simp] theorem State.result_host (s : State) (t : Fin 8) (rd : Fin 16) (v : Word) : (s.result t rd v).host = s.host := by
  simp [State.result]
@[simp] theorem State.result_otp (s : State) (t : Fin 8) (rd : Fin 16) (v : Word) : (s.result t rd v).otp = s.otp := by
  simp [State.result]
@[simp] theorem State.result_mem (s : State) (t : Fin 8) (rd : Fin 16) (v : Word) : (s.result t rd v).mem = s.mem := by
  simp [State.result]
@[simp] theorem State.result_out (s : State) (t : Fin 8) (rd : Fin 16) (v : Word) : (s.result t rd v).out = s.out := by
  simp [State.result]
@[simp] theorem State.result_free (s : State) (t : Fin 8) (rd : Fin 16) (v : Word) : (s.result t rd v).free = s.free := by
  simp [State.result]
@[simp] theorem State.result_pending (s : State) (t : Fin 8) (rd : Fin 16) (v : Word) : (s.result t rd v).pending = s.pending := by
  simp [State.result]

/-! ### releaseLock -/

@[simp] theorem State.releaseLock_sys (s : State) (l : Fin 32) : (s.releaseLock l).sys = s.sys := by
  unfold State.releaseLock; split <;> simp
@[simp] theorem State.releaseLock_pow (s : State) (l : Fin 32) : (s.releaseLock l).pow = s.pow := by
  unfold State.releaseLock; split <;> simp
@[simp] theorem State.releaseLock_slu (s : State) (l : Fin 32) : (s.releaseLock l).slu = s.slu := by
  unfold State.releaseLock; split <;> simp
@[simp] theorem State.releaseLock_irq (s : State) (l : Fin 32) : (s.releaseLock l).irq = s.irq := by
  unfold State.releaseLock; split <;> simp
@[simp] theorem State.releaseLock_line (s : State) (l : Fin 32) : (s.releaseLock l).line = s.line := by
  unfold State.releaseLock; split <;> simp
@[simp] theorem State.releaseLock_tide (s : State) (l : Fin 32) : (s.releaseLock l).tide = s.tide := by
  unfold State.releaseLock; split <;> simp
@[simp] theorem State.releaseLock_cal (s : State) (l : Fin 32) : (s.releaseLock l).cal = s.cal := by
  unfold State.releaseLock; split <;> simp
@[simp] theorem State.releaseLock_sched (s : State) (l : Fin 32) : (s.releaseLock l).sched = s.sched := by
  unfold State.releaseLock; split <;> simp
@[simp] theorem State.releaseLock_tim (s : State) (l : Fin 32) : (s.releaseLock l).tim = s.tim := by
  unfold State.releaseLock; split <;> simp
@[simp] theorem State.releaseLock_eng_tnow (s : State) (l : Fin 32) : (s.releaseLock l).eng.tnow = s.eng.tnow := by
  unfold State.releaseLock; split <;> simp
@[simp] theorem State.releaseLock_eng_go (s : State) (l : Fin 32) : (s.releaseLock l).eng.go = s.eng.go := by
  unfold State.releaseLock; split <;> simp
@[simp] theorem State.releaseLock_eng_romPan (s : State) (l : Fin 32) : (s.releaseLock l).eng.romPan = s.eng.romPan := by
  unfold State.releaseLock; split <;> simp
@[simp] theorem State.releaseLock_eng_wdEn (s : State) (l : Fin 32) : (s.releaseLock l).eng.wdEn = s.eng.wdEn := by
  unfold State.releaseLock; split <;> simp
@[simp] theorem State.releaseLock_eng_wdt (s : State) (l : Fin 32) : (s.releaseLock l).eng.wdt = s.eng.wdt := by
  unfold State.releaseLock; split <;> simp
@[simp] theorem State.releaseLock_eng_wdLeft (s : State) (l : Fin 32) : (s.releaseLock l).eng.wdLeft = s.eng.wdLeft := by
  unfold State.releaseLock; split <;> simp
@[simp] theorem State.releaseLock_eng_started (s : State) (l : Fin 32) : (s.releaseLock l).eng.started = s.eng.started := by
  unfold State.releaseLock; split <;> simp
@[simp] theorem State.releaseLock_eng_auth (s : State) (l : Fin 32) : (s.releaseLock l).eng.auth = s.eng.auth := by
  unfold State.releaseLock; split <;> simp
@[simp] theorem State.releaseLock_eng_imgLock (s : State) (l : Fin 32) : (s.releaseLock l).eng.imgLock = s.eng.imgLock := by
  unfold State.releaseLock; split <;> simp
@[simp] theorem State.releaseLock_eng_cfgErr (s : State) (l : Fin 32) : (s.releaseLock l).eng.cfgErr = s.eng.cfgErr := by
  unfold State.releaseLock; split <;> simp
@[simp] theorem State.releaseLock_eng_bp (s : State) (l : Fin 32) : (s.releaseLock l).eng.bp = s.eng.bp := by
  unfold State.releaseLock; split <;> simp
@[simp] theorem State.releaseLock_eng_stock (s : State) (l : Fin 32) : (s.releaseLock l).eng.stock = s.eng.stock := by
  unfold State.releaseLock; split <;> simp
@[simp] theorem State.releaseLock_pans (s : State) (l : Fin 32) : (s.releaseLock l).pans = s.pans := by
  unfold State.releaseLock; split <;> simp
@[simp] theorem State.releaseLock_flt (s : State) (l : Fin 32) : (s.releaseLock l).flt = s.flt := by
  unfold State.releaseLock; split <;> simp
@[simp] theorem State.releaseLock_alloc (s : State) (l : Fin 32) : (s.releaseLock l).alloc = s.alloc := by
  unfold State.releaseLock; split <;> simp
@[simp] theorem State.releaseLock_window (s : State) (l : Fin 32) : (s.releaseLock l).window = s.window := by
  unfold State.releaseLock; split <;> simp
@[simp] theorem State.releaseLock_windowFrom (s : State) (l : Fin 32) : (s.releaseLock l).windowFrom = s.windowFrom := by
  unfold State.releaseLock; split <;> simp
@[simp] theorem State.releaseLock_host (s : State) (l : Fin 32) : (s.releaseLock l).host = s.host := by
  unfold State.releaseLock; split <;> simp
@[simp] theorem State.releaseLock_otp (s : State) (l : Fin 32) : (s.releaseLock l).otp = s.otp := by
  unfold State.releaseLock; split <;> simp
@[simp] theorem State.releaseLock_mem (s : State) (l : Fin 32) : (s.releaseLock l).mem = s.mem := by
  unfold State.releaseLock; split <;> simp
@[simp] theorem State.releaseLock_out (s : State) (l : Fin 32) : (s.releaseLock l).out = s.out := by
  unfold State.releaseLock; split <;> simp
@[simp] theorem State.releaseLock_free (s : State) (l : Fin 32) : (s.releaseLock l).free = s.free := by
  unfold State.releaseLock; split <;> simp
@[simp] theorem State.releaseLock_pending (s : State) (l : Fin 32) : (s.releaseLock l).pending = s.pending := by
  unfold State.releaseLock; split <;> simp

/-! ### tideEvent -/

@[simp] theorem State.tideEvent_sys (s : State) : s.tideEvent.sys = s.sys := by
  unfold State.tideEvent; exact foldl_keeps (fun s => s.sys) _ (by simp) _ _
@[simp] theorem State.tideEvent_pow (s : State) : s.tideEvent.pow = s.pow := by
  unfold State.tideEvent; exact foldl_keeps (fun s => s.pow) _ (by simp) _ _
@[simp] theorem State.tideEvent_slu (s : State) : s.tideEvent.slu = s.slu := by
  unfold State.tideEvent; exact foldl_keeps (fun s => s.slu) _ (by simp) _ _
@[simp] theorem State.tideEvent_irq (s : State) : s.tideEvent.irq = s.irq := by
  unfold State.tideEvent; exact foldl_keeps (fun s => s.irq) _ (by simp) _ _
@[simp] theorem State.tideEvent_line (s : State) : s.tideEvent.line = s.line := by
  unfold State.tideEvent; exact foldl_keeps (fun s => s.line) _ (by simp) _ _
@[simp] theorem State.tideEvent_tide (s : State) : s.tideEvent.tide = s.tide := by
  unfold State.tideEvent; exact foldl_keeps (fun s => s.tide) _ (by simp) _ _
@[simp] theorem State.tideEvent_cal (s : State) : s.tideEvent.cal = s.cal := by
  unfold State.tideEvent; exact foldl_keeps (fun s => s.cal) _ (by simp) _ _
@[simp] theorem State.tideEvent_sched (s : State) : s.tideEvent.sched = s.sched := by
  unfold State.tideEvent; exact foldl_keeps (fun s => s.sched) _ (by simp) _ _
@[simp] theorem State.tideEvent_tim (s : State) : s.tideEvent.tim = s.tim := by
  unfold State.tideEvent; exact foldl_keeps (fun s => s.tim) _ (by simp) _ _
@[simp] theorem State.tideEvent_eng_tnow (s : State) : s.tideEvent.eng.tnow = s.eng.tnow := by
  unfold State.tideEvent; exact foldl_keeps (fun s => s.eng.tnow) _ (by simp) _ _
@[simp] theorem State.tideEvent_eng_go (s : State) : s.tideEvent.eng.go = s.eng.go := by
  unfold State.tideEvent; exact foldl_keeps (fun s => s.eng.go) _ (by simp) _ _
@[simp] theorem State.tideEvent_eng_romPan (s : State) : s.tideEvent.eng.romPan = s.eng.romPan := by
  unfold State.tideEvent; exact foldl_keeps (fun s => s.eng.romPan) _ (by simp) _ _
@[simp] theorem State.tideEvent_eng_wdEn (s : State) : s.tideEvent.eng.wdEn = s.eng.wdEn := by
  unfold State.tideEvent; exact foldl_keeps (fun s => s.eng.wdEn) _ (by simp) _ _
@[simp] theorem State.tideEvent_eng_wdt (s : State) : s.tideEvent.eng.wdt = s.eng.wdt := by
  unfold State.tideEvent; exact foldl_keeps (fun s => s.eng.wdt) _ (by simp) _ _
@[simp] theorem State.tideEvent_eng_wdLeft (s : State) : s.tideEvent.eng.wdLeft = s.eng.wdLeft := by
  unfold State.tideEvent; exact foldl_keeps (fun s => s.eng.wdLeft) _ (by simp) _ _
@[simp] theorem State.tideEvent_eng_started (s : State) : s.tideEvent.eng.started = s.eng.started := by
  unfold State.tideEvent; exact foldl_keeps (fun s => s.eng.started) _ (by simp) _ _
@[simp] theorem State.tideEvent_eng_auth (s : State) : s.tideEvent.eng.auth = s.eng.auth := by
  unfold State.tideEvent; exact foldl_keeps (fun s => s.eng.auth) _ (by simp) _ _
@[simp] theorem State.tideEvent_eng_imgLock (s : State) : s.tideEvent.eng.imgLock = s.eng.imgLock := by
  unfold State.tideEvent; exact foldl_keeps (fun s => s.eng.imgLock) _ (by simp) _ _
@[simp] theorem State.tideEvent_eng_cfgErr (s : State) : s.tideEvent.eng.cfgErr = s.eng.cfgErr := by
  unfold State.tideEvent; exact foldl_keeps (fun s => s.eng.cfgErr) _ (by simp) _ _
@[simp] theorem State.tideEvent_eng_locks (s : State) : s.tideEvent.eng.locks = s.eng.locks := by
  unfold State.tideEvent; exact foldl_keeps (fun s => s.eng.locks) _ (by simp) _ _
@[simp] theorem State.tideEvent_eng_bp (s : State) : s.tideEvent.eng.bp = s.eng.bp := by
  unfold State.tideEvent; exact foldl_keeps (fun s => s.eng.bp) _ (by simp) _ _
@[simp] theorem State.tideEvent_eng_stock (s : State) : s.tideEvent.eng.stock = s.eng.stock := by
  unfold State.tideEvent; exact foldl_keeps (fun s => s.eng.stock) _ (by simp) _ _
@[simp] theorem State.tideEvent_pans (s : State) : s.tideEvent.pans = s.pans := by
  unfold State.tideEvent; exact foldl_keeps (fun s => s.pans) _ (by simp) _ _
@[simp] theorem State.tideEvent_flt (s : State) : s.tideEvent.flt = s.flt := by
  unfold State.tideEvent; exact foldl_keeps (fun s => s.flt) _ (by simp) _ _
@[simp] theorem State.tideEvent_alloc (s : State) : s.tideEvent.alloc = s.alloc := by
  unfold State.tideEvent; exact foldl_keeps (fun s => s.alloc) _ (by simp) _ _
@[simp] theorem State.tideEvent_window (s : State) : s.tideEvent.window = s.window := by
  unfold State.tideEvent; exact foldl_keeps (fun s => s.window) _ (by simp) _ _
@[simp] theorem State.tideEvent_windowFrom (s : State) : s.tideEvent.windowFrom = s.windowFrom := by
  unfold State.tideEvent; exact foldl_keeps (fun s => s.windowFrom) _ (by simp) _ _
@[simp] theorem State.tideEvent_host (s : State) : s.tideEvent.host = s.host := by
  unfold State.tideEvent; exact foldl_keeps (fun s => s.host) _ (by simp) _ _
@[simp] theorem State.tideEvent_otp (s : State) : s.tideEvent.otp = s.otp := by
  unfold State.tideEvent; exact foldl_keeps (fun s => s.otp) _ (by simp) _ _
@[simp] theorem State.tideEvent_mem (s : State) : s.tideEvent.mem = s.mem := by
  unfold State.tideEvent; exact foldl_keeps (fun s => s.mem) _ (by simp) _ _
@[simp] theorem State.tideEvent_out (s : State) : s.tideEvent.out = s.out := by
  unfold State.tideEvent; exact foldl_keeps (fun s => s.out) _ (by simp) _ _
@[simp] theorem State.tideEvent_free (s : State) : s.tideEvent.free = s.free := by
  unfold State.tideEvent; exact foldl_keeps (fun s => s.free) _ (by simp) _ _
@[simp] theorem State.tideEvent_pending (s : State) : s.tideEvent.pending = s.pending := by
  unfold State.tideEvent; exact foldl_keeps (fun s => s.pending) _ (by simp) _ _

/-! ### engComplete -/

@[simp] theorem State.engComplete_sys (s : State) (t : Fin 8) : (s.engComplete t).sys = s.sys := by
  unfold State.engComplete; split <;> simp
@[simp] theorem State.engComplete_pow (s : State) (t : Fin 8) : (s.engComplete t).pow = s.pow := by
  unfold State.engComplete; split <;> simp
@[simp] theorem State.engComplete_slu (s : State) (t : Fin 8) : (s.engComplete t).slu = s.slu := by
  unfold State.engComplete; split <;> simp
@[simp] theorem State.engComplete_line (s : State) (t : Fin 8) : (s.engComplete t).line = s.line := by
  unfold State.engComplete; split <;> simp
@[simp] theorem State.engComplete_tide (s : State) (t : Fin 8) : (s.engComplete t).tide = s.tide := by
  unfold State.engComplete; split <;> simp
@[simp] theorem State.engComplete_cal (s : State) (t : Fin 8) : (s.engComplete t).cal = s.cal := by
  unfold State.engComplete; split <;> simp
@[simp] theorem State.engComplete_sched (s : State) (t : Fin 8) : (s.engComplete t).sched = s.sched := by
  unfold State.engComplete; split <;> simp
@[simp] theorem State.engComplete_tim (s : State) (t : Fin 8) : (s.engComplete t).tim = s.tim := by
  unfold State.engComplete; split <;> simp
@[simp] theorem State.engComplete_eng_tnow (s : State) (t : Fin 8) : (s.engComplete t).eng.tnow = s.eng.tnow := by
  unfold State.engComplete; split <;> simp
@[simp] theorem State.engComplete_eng_go (s : State) (t : Fin 8) : (s.engComplete t).eng.go = s.eng.go := by
  unfold State.engComplete; split <;> simp
@[simp] theorem State.engComplete_eng_romPan (s : State) (t : Fin 8) : (s.engComplete t).eng.romPan = s.eng.romPan := by
  unfold State.engComplete; split <;> simp
@[simp] theorem State.engComplete_eng_wdEn (s : State) (t : Fin 8) : (s.engComplete t).eng.wdEn = s.eng.wdEn := by
  unfold State.engComplete; split <;> simp
@[simp] theorem State.engComplete_eng_wdt (s : State) (t : Fin 8) : (s.engComplete t).eng.wdt = s.eng.wdt := by
  unfold State.engComplete; split <;> simp
@[simp] theorem State.engComplete_eng_wdLeft (s : State) (t : Fin 8) : (s.engComplete t).eng.wdLeft = s.eng.wdLeft := by
  unfold State.engComplete; split <;> simp
@[simp] theorem State.engComplete_eng_started (s : State) (t : Fin 8) : (s.engComplete t).eng.started = s.eng.started := by
  unfold State.engComplete; split <;> simp
@[simp] theorem State.engComplete_eng_auth (s : State) (t : Fin 8) : (s.engComplete t).eng.auth = s.eng.auth := by
  unfold State.engComplete; split <;> simp
@[simp] theorem State.engComplete_eng_imgLock (s : State) (t : Fin 8) : (s.engComplete t).eng.imgLock = s.eng.imgLock := by
  unfold State.engComplete; split <;> simp
@[simp] theorem State.engComplete_eng_cfgErr (s : State) (t : Fin 8) : (s.engComplete t).eng.cfgErr = s.eng.cfgErr := by
  unfold State.engComplete; split <;> simp
@[simp] theorem State.engComplete_eng_locks (s : State) (t : Fin 8) : (s.engComplete t).eng.locks = s.eng.locks := by
  unfold State.engComplete; split <;> simp
@[simp] theorem State.engComplete_eng_bp (s : State) (t : Fin 8) : (s.engComplete t).eng.bp = s.eng.bp := by
  unfold State.engComplete; split <;> simp
@[simp] theorem State.engComplete_eng_stock (s : State) (t : Fin 8) : (s.engComplete t).eng.stock = s.eng.stock := by
  unfold State.engComplete; split <;> simp
@[simp] theorem State.engComplete_pans (s : State) (t : Fin 8) : (s.engComplete t).pans = s.pans := by
  unfold State.engComplete; split <;> simp
@[simp] theorem State.engComplete_flt (s : State) (t : Fin 8) : (s.engComplete t).flt = s.flt := by
  unfold State.engComplete; split <;> simp
@[simp] theorem State.engComplete_alloc (s : State) (t : Fin 8) : (s.engComplete t).alloc = s.alloc := by
  unfold State.engComplete; split <;> simp
@[simp] theorem State.engComplete_window (s : State) (t : Fin 8) : (s.engComplete t).window = s.window := by
  unfold State.engComplete; split <;> simp
@[simp] theorem State.engComplete_windowFrom (s : State) (t : Fin 8) : (s.engComplete t).windowFrom = s.windowFrom := by
  unfold State.engComplete; split <;> simp
@[simp] theorem State.engComplete_host (s : State) (t : Fin 8) : (s.engComplete t).host = s.host := by
  unfold State.engComplete; split <;> simp
@[simp] theorem State.engComplete_otp (s : State) (t : Fin 8) : (s.engComplete t).otp = s.otp := by
  unfold State.engComplete; split <;> simp
@[simp] theorem State.engComplete_mem (s : State) (t : Fin 8) : (s.engComplete t).mem = s.mem := by
  unfold State.engComplete; split <;> simp
@[simp] theorem State.engComplete_out (s : State) (t : Fin 8) : (s.engComplete t).out = s.out := by
  unfold State.engComplete; split <;> simp
@[simp] theorem State.engComplete_free (s : State) (t : Fin 8) : (s.engComplete t).free = s.free := by
  unfold State.engComplete; split <;> simp
@[simp] theorem State.engComplete_pending (s : State) (t : Fin 8) : (s.engComplete t).pending = s.pending := by
  unfold State.engComplete; split <;> simp

/-! ### doorbell -/

@[simp] theorem State.doorbell_sys (s : State) (n : Fin 4) (k : Nat) : (s.doorbell n k).sys = s.sys := by
  unfold State.doorbell; split <;> simp
@[simp] theorem State.doorbell_pow (s : State) (n : Fin 4) (k : Nat) : (s.doorbell n k).pow = s.pow := by
  unfold State.doorbell; split <;> simp
@[simp] theorem State.doorbell_slu (s : State) (n : Fin 4) (k : Nat) : (s.doorbell n k).slu = s.slu := by
  unfold State.doorbell; split <;> simp
@[simp] theorem State.doorbell_line (s : State) (n : Fin 4) (k : Nat) : (s.doorbell n k).line = s.line := by
  unfold State.doorbell; split <;> simp
@[simp] theorem State.doorbell_tide (s : State) (n : Fin 4) (k : Nat) : (s.doorbell n k).tide = s.tide := by
  unfold State.doorbell; split <;> simp
@[simp] theorem State.doorbell_cal (s : State) (n : Fin 4) (k : Nat) : (s.doorbell n k).cal = s.cal := by
  unfold State.doorbell; split <;> simp
@[simp] theorem State.doorbell_sched (s : State) (n : Fin 4) (k : Nat) : (s.doorbell n k).sched = s.sched := by
  unfold State.doorbell; split <;> simp
@[simp] theorem State.doorbell_tim (s : State) (n : Fin 4) (k : Nat) : (s.doorbell n k).tim = s.tim := by
  unfold State.doorbell; split <;> simp
@[simp] theorem State.doorbell_eng_tnow (s : State) (n : Fin 4) (k : Nat) : (s.doorbell n k).eng.tnow = s.eng.tnow := by
  unfold State.doorbell; split <;> simp
@[simp] theorem State.doorbell_eng_go (s : State) (n : Fin 4) (k : Nat) : (s.doorbell n k).eng.go = s.eng.go := by
  unfold State.doorbell; split <;> simp
@[simp] theorem State.doorbell_eng_romPan (s : State) (n : Fin 4) (k : Nat) : (s.doorbell n k).eng.romPan = s.eng.romPan := by
  unfold State.doorbell; split <;> simp
@[simp] theorem State.doorbell_eng_wdEn (s : State) (n : Fin 4) (k : Nat) : (s.doorbell n k).eng.wdEn = s.eng.wdEn := by
  unfold State.doorbell; split <;> simp
@[simp] theorem State.doorbell_eng_wdt (s : State) (n : Fin 4) (k : Nat) : (s.doorbell n k).eng.wdt = s.eng.wdt := by
  unfold State.doorbell; split <;> simp
@[simp] theorem State.doorbell_eng_wdLeft (s : State) (n : Fin 4) (k : Nat) : (s.doorbell n k).eng.wdLeft = s.eng.wdLeft := by
  unfold State.doorbell; split <;> simp
@[simp] theorem State.doorbell_eng_started (s : State) (n : Fin 4) (k : Nat) : (s.doorbell n k).eng.started = s.eng.started := by
  unfold State.doorbell; split <;> simp
@[simp] theorem State.doorbell_eng_auth (s : State) (n : Fin 4) (k : Nat) : (s.doorbell n k).eng.auth = s.eng.auth := by
  unfold State.doorbell; split <;> simp
@[simp] theorem State.doorbell_eng_imgLock (s : State) (n : Fin 4) (k : Nat) : (s.doorbell n k).eng.imgLock = s.eng.imgLock := by
  unfold State.doorbell; split <;> simp
@[simp] theorem State.doorbell_eng_cfgErr (s : State) (n : Fin 4) (k : Nat) : (s.doorbell n k).eng.cfgErr = s.eng.cfgErr := by
  unfold State.doorbell; split <;> simp
@[simp] theorem State.doorbell_eng_locks (s : State) (n : Fin 4) (k : Nat) : (s.doorbell n k).eng.locks = s.eng.locks := by
  unfold State.doorbell; split <;> simp
@[simp] theorem State.doorbell_eng_bp (s : State) (n : Fin 4) (k : Nat) : (s.doorbell n k).eng.bp = s.eng.bp := by
  unfold State.doorbell; split <;> simp
@[simp] theorem State.doorbell_eng_stock (s : State) (n : Fin 4) (k : Nat) : (s.doorbell n k).eng.stock = s.eng.stock := by
  unfold State.doorbell; split <;> simp
@[simp] theorem State.doorbell_flt (s : State) (n : Fin 4) (k : Nat) : (s.doorbell n k).flt = s.flt := by
  unfold State.doorbell; split <;> simp
@[simp] theorem State.doorbell_alloc (s : State) (n : Fin 4) (k : Nat) : (s.doorbell n k).alloc = s.alloc := by
  unfold State.doorbell; split <;> simp
@[simp] theorem State.doorbell_window (s : State) (n : Fin 4) (k : Nat) : (s.doorbell n k).window = s.window := by
  unfold State.doorbell; split <;> simp
@[simp] theorem State.doorbell_windowFrom (s : State) (n : Fin 4) (k : Nat) : (s.doorbell n k).windowFrom = s.windowFrom := by
  unfold State.doorbell; split <;> simp
@[simp] theorem State.doorbell_host (s : State) (n : Fin 4) (k : Nat) : (s.doorbell n k).host = s.host := by
  unfold State.doorbell; split <;> simp
@[simp] theorem State.doorbell_otp (s : State) (n : Fin 4) (k : Nat) : (s.doorbell n k).otp = s.otp := by
  unfold State.doorbell; split <;> simp
@[simp] theorem State.doorbell_mem (s : State) (n : Fin 4) (k : Nat) : (s.doorbell n k).mem = s.mem := by
  unfold State.doorbell; split <;> simp
@[simp] theorem State.doorbell_out (s : State) (n : Fin 4) (k : Nat) : (s.doorbell n k).out = s.out := by
  unfold State.doorbell; split <;> simp
@[simp] theorem State.doorbell_free (s : State) (n : Fin 4) (k : Nat) : (s.doorbell n k).free = s.free := by
  unfold State.doorbell; split <;> simp
@[simp] theorem State.doorbell_pending (s : State) (n : Fin 4) (k : Nat) : (s.doorbell n k).pending = s.pending := by
  unfold State.doorbell; split <;> simp

end Sys2Proof.Machine
end

