-- ==== Sys2Proof/Laws/Memory.lean ====
section
/-! SUPPORT. The memory operations keep the canonical form, and a byte reads what was written last at its address. -/

namespace Sys2Proof.Machine

/-- The canonical form as two facts about the list. -/
theorem Memory.wf_iff (m : List Host.Cell) :
    Memory.wf m = true ↔ (∀ c ∈ m, c.2 ≠ 0) ∧ m.Pairwise (fun c d => c.1 < d.1) := by
  simp [Memory.wf, List.all_eq_true]

theorem Memory.wf_nil : Memory.wf [] = true := by decide

/-- Leaving entries out keeps the form. -/
theorem Memory.wf_filter (m : List Host.Cell) (p : Host.Cell → Bool) (h : Memory.wf m = true) :
    Memory.wf (m.filter p) = true := by
  rw [Memory.wf_iff] at *
  exact ⟨fun c hc => h.1 c (List.mem_filter.1 hc).1, h.2.filter p⟩

theorem mem_memInsert (c x : Host.Cell) (m : List Host.Cell) : x ∈ memInsert c m ↔ x = c ∨ x ∈ m := by
  induction m with
  | nil => simp [memInsert]
  | cons d m ih =>
    simp only [memInsert]
    split <;> simp_all [or_left_comm]

theorem pairwise_memInsert (c : Host.Cell) (m : List Host.Cell) (hm : m.Pairwise (fun c d => c.1 < d.1))
    (hc : ∀ x ∈ m, x.1 ≠ c.1) : (memInsert c m).Pairwise (fun c d => c.1 < d.1) := by
  induction m with
  | nil => simp [memInsert]
  | cons d m ih =>
    simp only [memInsert]
    rw [List.pairwise_cons] at hm
    split
    · next h =>
      refine List.pairwise_cons.2 ⟨?_, List.pairwise_cons.2 hm⟩
      intro x hx
      rcases List.mem_cons.1 hx with rfl | hx
      · exact h
      · exact Nat.lt_trans h (hm.1 x hx)
    · next h =>
      refine List.pairwise_cons.2 ⟨?_, ih hm.2 fun x hx => hc x (List.mem_cons_of_mem _ hx)⟩
      intro x hx
      rcases (mem_memInsert c x m).1 hx with rfl | hx
      · exact Nat.lt_of_le_of_ne (Nat.le_of_not_lt h) (hc d (List.mem_cons_self ..))
      · exact hm.1 x hx

/-- One byte written keeps the form. -/
theorem Memory.wf_memPut (m : List Host.Cell) (a : Nat) (b : Byte) (h : Memory.wf m = true) :
    Memory.wf (memPut m a b) = true := by
  have hr := Memory.wf_filter m (fun c => c.1 != a) h
  simp only [memPut]
  split
  · exact hr
  · next hb =>
    rw [Memory.wf_iff] at *
    refine ⟨fun c hc => ?_, pairwise_memInsert _ _ hr.2 fun x hx => ?_⟩
    · rcases (mem_memInsert _ c _).1 hc with rfl | hc
      · exact hb
      · exact hr.1 c hc
    · simpa using (List.mem_filter.1 hx).2

/-- One word written keeps the form. -/
theorem Memory.wf_memPutWord (m : List Host.Cell) (a : Nat) (v : Word) (h : Memory.wf m = true) :
    Memory.wf (memPutWord m a v) = true :=
  Memory.wf_memPut _ _ _ (Memory.wf_memPut _ _ _ (Memory.wf_memPut _ _ _ (Memory.wf_memPut _ _ _ h)))

/-- A zeroed range keeps the form. -/
theorem Memory.wf_memZero (m : List Host.Cell) (lo hi : Nat) (h : Memory.wf m = true) : Memory.wf (memZero m lo hi) = true :=
  Memory.wf_filter m _ h

theorem memGet_nil (a : Nat) : memGet [] a = 0 := rfl

theorem memGet_cons (c : Host.Cell) (m : List Host.Cell) (a : Nat) :
    memGet (c :: m) a = if c.1 = a then c.2 else memGet m a := by
  by_cases h : c.1 = a
  · simp [memGet, h]
  · have h' : (c.1 == a) = false := beq_eq_false_iff_ne.2 h
    simp [memGet, h, h']

theorem memGet_memInsert (c : Host.Cell) (m : List Host.Cell) (a : Nat) (hc : ∀ x ∈ m, x.1 ≠ c.1) :
    memGet (memInsert c m) a = if c.1 = a then c.2 else memGet m a := by
  induction m with
  | nil => simp [memInsert, memGet_cons]
  | cons d m ih =>
    have hd : d.1 ≠ c.1 := hc d (List.mem_cons_self ..)
    have ih' := ih fun x hx => hc x (List.mem_cons_of_mem _ hx)
    simp only [memInsert]
    split
    · simp only [memGet_cons]
    · simp only [memGet_cons, ih']
      repeat' split
      all_goals first | rfl | omega

theorem memGet_filter (m : List Host.Cell) (p : Nat → Bool) (a : Nat) :
    memGet (m.filter fun c => p c.1) a = if p a then memGet m a else 0 := by
  induction m with
  | nil => simp [memGet_nil]
  | cons d m ih =>
    simp only [List.filter_cons]
    by_cases h : d.1 = a
    · subst h
      by_cases hp : p d.1 <;> simp_all [memGet_cons]
    · by_cases hp : p d.1 <;> simp [hp, memGet_cons, h, ih]

/-- A byte read after a byte written. -/
theorem memGet_memPut (m : List Host.Cell) (a x : Nat) (b : Byte) :
    memGet (memPut m a b) x = if x = a then b else memGet m x := by
  simp only [memPut]
  split
  · next hb =>
    rw [memGet_filter m (fun k => k != a), hb]
    by_cases h : x = a <;> simp [h]
  · rw [memGet_memInsert _ _ _ fun y hy => by simpa using (List.mem_filter.1 hy).2, memGet_filter m (fun k => k != a)]
    by_cases h : x = a
    · simp [h]
    · simp [h, Ne.symm h]

/-- A byte outside a word written reads as before. -/
theorem memGet_memPutWord_of_ne (m : List Host.Cell) (a x : Nat) (v : Word) (h : x < a ∨ a + 4 ≤ x) :
    memGet (memPutWord m a v) x = memGet m x := by
  simp only [memPutWord, memGet_memPut]
  repeat' split
  all_goals first | rfl | omega

/-- A word reads as the word written. -/
theorem memWord_memPutWord (m : List Host.Cell) (a : Nat) (v : Word) : memWord (memPutWord m a v) a = v := by
  simp only [memWord, memPutWord, memGet_memPut]
  simp only [↓reduceIte, show a + 2 ≠ a + 3 by omega, show a + 1 ≠ a + 3 by omega, show a + 1 ≠ a + 2 by omega,
    show a ≠ a + 3 by omega, show a ≠ a + 2 by omega, show a ≠ a + 1 by omega]
  apply BitVec.eq_of_getLsbD_eq
  intro i hi
  simp only [BitVec.getLsbD_append, BitVec.getLsbD_extractLsb']
  repeat' split
  · simp_all
  · simp only [show 8 + (i - 8) = i by omega]; simp_all
  · simp only [show 16 + (i - 8 - 8) = i by omega]; simp_all
  · simp only [show 24 + (i - 8 - 8 - 8) = i by omega, show i - 8 - 8 - 8 < 8 by omega, decide_true, Bool.true_and]

/-- A word apart from a word written reads as before. -/
theorem memWord_memPutWord_of_ne (m : List Host.Cell) (a x : Nat) (v : Word) (h : x + 4 ≤ a ∨ a + 4 ≤ x) :
    memWord (memPutWord m a v) x = memWord m x := by
  simp only [memWord]
  rw [memGet_memPutWord_of_ne, memGet_memPutWord_of_ne, memGet_memPutWord_of_ne, memGet_memPutWord_of_ne] <;> omega

/-- A byte of a zeroed range reads zero, any other as before. -/
theorem memGet_memZero (m : List Host.Cell) (lo hi a : Nat) :
    memGet (memZero m lo hi) a = if lo ≤ a ∧ a < hi then 0 else memGet m a := by
  rw [memZero, memGet_filter m (fun k => decide (k < lo) || decide (hi ≤ k))]
  by_cases h : lo ≤ a ∧ a < hi
  · have : ¬ (a < lo) ∧ ¬ (hi ≤ a) := by omega
    simp [h, this]
  · have : a < lo ∨ hi ≤ a := by omega
    simp [h, this]

end Sys2Proof.Machine
end

