-- ==== Sys2Proof/Laws/Keeps.lean ====
section
/-! SUPPORT. What every operation of the machine keeps, whatever else it does: the canonical form of memory, the queue of
waiting commands, the programmed OTP words, and, unless a reset has begun, the locks of SYS_LOCK with the allocation. One lemma per
operation follows, here and in the files Laws/Keeps*.lean; a proof over all commands cites them and unfolds no operation. -/

namespace Sys2Proof.Machine

/-- State `s` has kept what state `b` had; `w` true allows a software reset to be requested meanwhile. -/
structure Keeps (w : Bool) (b s : State) : Prop where
  mem : Memory.wf b.mem = true → Memory.wf s.mem = true
  pending : s.pending = b.pending
  otp : s.otp.words = b.otp.words
  locks : s.pow.state = .reset ∨ ((b.sys.panLock = true → s.sys.panLock = true ∧ s.alloc = b.alloc) ∧
    (b.sys.dbgLock = true → s.sys.dbgLock = true))
  sw : w = true ∨ (b.sys.swPend = false → s.sys.swPend = false)

theorem Keeps.refl (w : Bool) (s : State) : Keeps w s s := ⟨id, rfl, rfl, .inr ⟨fun h => ⟨h, rfl⟩, id⟩, .inr id⟩

@[simp] theorem Keeps.of_self (w : Bool) (s : State) : Keeps w s s := .refl w s

/-- A branch keeps what both sides keep. -/
@[simp] theorem keeps_ite {w : Bool} {b s t : State} {c : Prop} [Decidable c] :
    Keeps w b (if c then s else t) ↔ (c → Keeps w b s) ∧ (¬c → Keeps w b t) := by
  by_cases h : c <;> simp [h]

/-- A fold keeps what each of its steps keeps. -/
@[simp] theorem keeps_foldl {α : Type} {w : Bool} {b : State} (f : State → α → State) (l : List α)
    (hf : ∀ s x, Keeps w b s → Keeps w b (f s x)) {s : State} (h : Keeps w b s) : Keeps w b (l.foldl f s) := by
  induction l generalizing s with
  | nil => exact h
  | cons x l ih => exact ih (hf s x h)

@[simp] theorem keeps_elim {α : Type} {w : Bool} {b s : State} (o : Option α) (f : α → State) (h : Keeps w b s)
    (hf : ∀ x, Keeps w b (f x)) : Keeps w b (o.elim s f) := by
  cases o with
  | none => exact h
  | some x => exact hf x

/-- Two states that agree in the parts `Keeps` reads. -/
theorem Keeps.congr {w : Bool} {b s t : State} (h : Keeps w b s) (hm : t.mem = s.mem) (hq : t.pending = s.pending)
    (ho : t.otp = s.otp) (hp : t.pow = s.pow) (hs : t.sys = s.sys) (ha : t.alloc = s.alloc) : Keeps w b t :=
  ⟨by rw [hm]; exact h.mem, hq.trans h.pending, by rw [ho]; exact h.otp, by rw [hp, hs, ha]; exact h.locks,
    by rw [hs]; exact h.sw⟩

/-! ### Records put in place -/

section
variable {w : Bool} {b s : State}

theorem Keeps.put_mem (h : Keeps w b s) (m : List Host.Cell) (hm : Memory.wf s.mem = true → Memory.wf m = true) :
    Keeps w b { s with mem := m } := ⟨fun x => hm (h.mem x), h.pending, h.otp, h.locks, h.sw⟩
@[simp] theorem keeps_put_slu (x : Sluice) (h : Keeps w b s) : Keeps w b { s with slu := x } :=
  ⟨h.mem, h.pending, h.otp, h.locks, h.sw⟩
@[simp] theorem keeps_put_irq (x : Irq) (h : Keeps w b s) : Keeps w b { s with irq := x } :=
  ⟨h.mem, h.pending, h.otp, h.locks, h.sw⟩
@[simp] theorem keeps_put_line (x : Line) (h : Keeps w b s) : Keeps w b { s with line := x } :=
  ⟨h.mem, h.pending, h.otp, h.locks, h.sw⟩
@[simp] theorem keeps_put_tide (x : Tide) (h : Keeps w b s) : Keeps w b { s with tide := x } :=
  ⟨h.mem, h.pending, h.otp, h.locks, h.sw⟩
@[simp] theorem keeps_put_cal (x : Cal) (h : Keeps w b s) : Keeps w b { s with cal := x } :=
  ⟨h.mem, h.pending, h.otp, h.locks, h.sw⟩
@[simp] theorem keeps_put_sched (x : Sched) (h : Keeps w b s) : Keeps w b { s with sched := x } :=
  ⟨h.mem, h.pending, h.otp, h.locks, h.sw⟩
@[simp] theorem keeps_put_tim (x : Timers) (h : Keeps w b s) : Keeps w b { s with tim := x } :=
  ⟨h.mem, h.pending, h.otp, h.locks, h.sw⟩
@[simp] theorem keeps_put_eng (x : Engine) (h : Keeps w b s) : Keeps w b { s with eng := x } :=
  ⟨h.mem, h.pending, h.otp, h.locks, h.sw⟩
@[simp] theorem keeps_put_pans (x : Tab Pan 4) (h : Keeps w b s) : Keeps w b { s with pans := x } :=
  ⟨h.mem, h.pending, h.otp, h.locks, h.sw⟩
@[simp] theorem keeps_put_flt (x : Tab Filter 128) (h : Keeps w b s) : Keeps w b { s with flt := x } :=
  ⟨h.mem, h.pending, h.otp, h.locks, h.sw⟩
@[simp] theorem keeps_put_host (x : Tab HostState 2) (h : Keeps w b s) : Keeps w b { s with host := x } :=
  ⟨h.mem, h.pending, h.otp, h.locks, h.sw⟩
@[simp] theorem keeps_put_window (x : Fin 4) (y : BitVec 64) (h : Keeps w b s) :
    Keeps w b { s with window := x, windowFrom := y } :=
  ⟨h.mem, h.pending, h.otp, h.locks, h.sw⟩
@[simp] theorem keeps_put_out (x : Word) (h : Keeps w b s) : Keeps w b { s with out := x } :=
  ⟨h.mem, h.pending, h.otp, h.locks, h.sw⟩
@[simp] theorem keeps_put_free (x : Nat) (h : Keeps w b s) : Keeps w b { s with free := x } :=
  ⟨h.mem, h.pending, h.otp, h.locks, h.sw⟩

/-- A power record that leaves the power state alone. -/
theorem Keeps.put_pow (h : Keeps w b s) (p : Power) (hp : p.state = s.pow.state) : Keeps w b { s with pow := p } :=
  ⟨h.mem, h.pending, h.otp, h.locks.imp (fun x => hp.trans x) id, h.sw⟩

/-- A system record that leaves the locks and the software reset alone. -/
theorem Keeps.put_sys (h : Keeps w b s) (y : Sys) (hl : y.panLock = s.sys.panLock) (hd : y.dbgLock = s.sys.dbgLock)
    (hs : y.swPend = s.sys.swPend) : Keeps w b { s with sys := y } :=
  ⟨h.mem, h.pending, h.otp, h.locks.imp id (by simp only [hl, hd]; exact id), h.sw.imp id (by simp only [hs]; exact id)⟩

/-- Out of reset the power state may change. -/
theorem Keeps.put_state (h : Keeps w b s) (hs : s.pow.state ≠ .reset) (p : Power) : Keeps w b { s with pow := p } :=
  ⟨h.mem, h.pending, h.otp, .inr (h.locks.resolve_left hs), h.sw⟩

/-- The locks may be set. -/
theorem Keeps.put_locks (h : Keeps w b s) (y : Sys) (hl : y.panLock = true ∨ y.panLock = s.sys.panLock)
    (hd : y.dbgLock = true ∨ y.dbgLock = s.sys.dbgLock) (hs : y.swPend = s.sys.swPend) : Keeps w b { s with sys := y } := by
  refine ⟨h.mem, h.pending, h.otp, h.locks.imp id fun x => ⟨fun hb => ?_, fun hb => ?_⟩, h.sw.imp id (by simp only [hs]; exact id)⟩
  · exact ⟨hl.elim id fun e => e.trans (x.1 hb).1, (x.1 hb).2⟩
  · exact hd.elim id fun e => e.trans (x.2 hb)

/-- The allocation may change while it is not locked. -/
theorem Keeps.put_alloc (h : Keeps w b s) (hs : s.sys.panLock = false) (x : Tab Word 48) : Keeps w b { s with alloc := x } :=
  ⟨h.mem, h.pending, h.otp, h.locks.imp id fun y => ⟨fun hb => by have := (y.1 hb).1; simp_all, y.2⟩, h.sw⟩

/-- A software reset may be asked for. -/
theorem Keeps.weaken (h : Keeps w b s) : Keeps true b s := ⟨h.mem, h.pending, h.otp, h.locks, .inl rfl⟩

/-- No software reset is left pending. -/
theorem Keeps.no_reset (h : Keeps true b s) (hs : s.sys.swPend = false) : Keeps w b s :=
  ⟨h.mem, h.pending, h.otp, h.locks, .inr fun _ => hs⟩

end

end Sys2Proof.Machine
end

