-- ==== Sys2Proof/Laws/KeepsCore.lean ====
section
/-! SUPPORT. What each operation keeps (Ops, Operands, Irq, Queues, Filters, Engine, Alu, Timers). -/

namespace Sys2Proof.Machine

@[simp] theorem State.putSlotWord_keeps {w : Bool} {b s : State} (g k : Nat) (v : Word) (h : Keeps w b s) :
    Keeps w b (s.putSlotWord g k v) := h.put_mem _ (Memory.wf_memPutWord _ _ _)
@[simp] theorem State.putSlotWords_keeps {w : Bool} {b s : State} (g k : Nat) (vs : List Word) (h : Keeps w b s) :
    Keeps w b (s.putSlotWords g k vs) := by
  induction vs generalizing s k with
  | nil => exact h
  | cons v vs ih => exact ih _ (by simp [h])
@[simp] theorem State.updSys_keeps {w₀ : Bool} {s₀ s : State} (f : Sys → Sys) (hl : (f s.sys).panLock = s.sys.panLock)
    (hd : (f s.sys).dbgLock = s.sys.dbgLock) (hs : (f s.sys).swPend = s.sys.swPend) (hk : Keeps w₀ s₀ s) :
    Keeps w₀ s₀ (s.updSys f) := hk.put_sys _ hl hd hs
@[simp] theorem State.updSlu_keeps {w₀ : Bool} {s₀ : State} {s : State} (f : Sluice → Sluice) (hk : Keeps w₀ s₀ s) :
    Keeps w₀ s₀ (State.updSlu s f) := by simp +contextual (maxDischargeDepth := 30) [State.updSlu, *]
@[simp] theorem State.updLine_keeps {w₀ : Bool} {s₀ : State} {s : State} (f : Line → Line) (hk : Keeps w₀ s₀ s) :
    Keeps w₀ s₀ (State.updLine s f) := by simp +contextual (maxDischargeDepth := 30) [State.updLine, *]
@[simp] theorem State.updTide_keeps {w₀ : Bool} {s₀ : State} {s : State} (f : Tide → Tide) (hk : Keeps w₀ s₀ s) :
    Keeps w₀ s₀ (State.updTide s f) := by simp +contextual (maxDischargeDepth := 30) [State.updTide, *]
@[simp] theorem State.updPow_keeps {w₀ : Bool} {s₀ s : State} (f : Power → Power) (hp : (f s.pow).state = s.pow.state)
    (hk : Keeps w₀ s₀ s) : Keeps w₀ s₀ (s.updPow f) := hk.put_pow _ hp
@[simp] theorem State.updCal_keeps {w₀ : Bool} {s₀ : State} {s : State} (f : Cal → Cal) (hk : Keeps w₀ s₀ s) : Keeps
    w₀ s₀ (State.updCal s f) := by simp +contextual (maxDischargeDepth := 30) [State.updCal, *]
@[simp] theorem State.updEng_keeps {w₀ : Bool} {s₀ : State} {s : State} (f : Engine → Engine) (hk : Keeps w₀ s₀ s) :
    Keeps w₀ s₀ (State.updEng s f) := by simp +contextual (maxDischargeDepth := 30) [State.updEng, *]
@[simp] theorem State.mapHosts_keeps {w₀ : Bool} {s₀ s : State} (f : HostState → HostState) (hk : Keeps w₀ s₀ s) :
    Keeps w₀ s₀ (s.mapHosts f) := keeps_put_host _ hk
@[simp] theorem State.updPan_keeps {w₀ : Bool} {s₀ : State} {s : State} (n : Fin 4) (f : Pan → Pan) (hk : Keeps w₀ s₀
    s) : Keeps w₀ s₀ (State.updPan s n f) := by simp +contextual (maxDischargeDepth := 30) [State.updPan, *]
@[simp] theorem State.updThr_keeps {w₀ : Bool} {s₀ : State} {s : State} (t : Fin 8) (f : Thread → Thread) (hk : Keeps
    w₀ s₀ s) : Keeps w₀ s₀ (State.updThr s t f) := by simp +contextual (maxDischargeDepth := 30) [State.updThr, *]
@[simp] theorem State.updTim_keeps {w₀ : Bool} {s₀ : State} {s : State} (n : Fin 8) (f : Timer → Timer) (hk : Keeps w₀
    s₀ s) : Keeps w₀ s₀ (State.updTim s n f) := by simp +contextual (maxDischargeDepth := 30) [State.updTim, *]
@[simp] theorem State.updSch_keeps {w₀ : Bool} {s₀ : State} {s : State} (e : Fin 32) (f : SchEntry → SchEntry) (hk :
    Keeps w₀ s₀ s) : Keeps w₀ s₀ (State.updSch s e f) := by simp +contextual (maxDischargeDepth := 30) [State.updSch, *]
@[simp] theorem State.updFlt_keeps {w₀ : Bool} {s₀ : State} {s : State} (k : Fin 128) (f : Filter → Filter) (hk :
    Keeps w₀ s₀ s) : Keeps w₀ s₀ (State.updFlt s k f) := by simp +contextual (maxDischargeDepth := 30) [State.updFlt, *]
@[simp] theorem State.updTq_keeps {w₀ : Bool} {s₀ : State} {s : State} (n : Fin 4) (q : Fin 4) (f : TxQueue → TxQueue)
    (hk : Keeps w₀ s₀ s) : Keeps w₀ s₀ (State.updTq s n q f) := by simp +contextual (maxDischargeDepth := 30) [State.updTq, *]
@[simp] theorem State.updRxf_keeps {w₀ : Bool} {s₀ : State} {s : State} (n : Fin 4) (q : Fin 4) (f : RxFifo → RxFifo)
    (hk : Keeps w₀ s₀ s) : Keeps w₀ s₀ (State.updRxf s n q f) := by simp +contextual (maxDischargeDepth := 30) [State.updRxf, *]
@[simp] theorem State.ret_keeps {w₀ : Bool} {s₀ : State} {s : State} (v : Word) (hk : Keeps w₀ s₀ s) : Keeps w₀ s₀
    (State.ret s v) := by simp +contextual (maxDischargeDepth := 30) [State.ret, *]
@[simp] theorem State.takeFree_keeps {w₀ : Bool} {s₀ : State} {s : State} (hk : Keeps w₀ s₀ s) : Keeps w₀ s₀
    (State.takeFree s) := by simp +contextual (maxDischargeDepth := 30) [State.takeFree, *]
@[simp] theorem State.passSlot_keeps {w₀ : Bool} {s₀ : State} {s : State} (g : Nat) (own : Nat) (othr : Nat) (hk :
    Keeps w₀ s₀ s) : Keeps w₀ s₀ (State.passSlot s g own othr) := by simp +contextual (maxDischargeDepth := 30) [State.passSlot, *]
@[simp] theorem State.putG_keeps {w₀ : Bool} {s₀ : State} {s : State} (t : Fin 8) (n : Fin 16) (v : Word) (hk : Keeps
    w₀ s₀ s) : Keeps w₀ s₀ (State.putG s t n v) := by simp +contextual (maxDischargeDepth := 30) [State.putG, *]
@[simp] theorem State.putReg_keeps {w₀ : Bool} {s₀ : State} {s : State} (t : Fin 8) (r : Reg) (v : Word) (hk : Keeps
    w₀ s₀ s) : Keeps w₀ s₀ (State.putReg s t r v) := by
  simp only [State.putReg]
  repeat' split
  all_goals simp +contextual (maxDischargeDepth := 30) [*]
@[simp] theorem State.updIrq_keeps {w₀ : Bool} {s₀ : State} {s : State} (f : Irq → Irq) (hk : Keeps w₀ s₀ s) : Keeps
    w₀ s₀ (State.updIrq s f) := by simp +contextual (maxDischargeDepth := 30) [State.updIrq, *]
@[simp] theorem State.endWait_keeps {w₀ : Bool} {s₀ : State} {s : State} (t : Fin 8) (rd : Fin 16) (v : Word) (hk :
    Keeps w₀ s₀ s) : Keeps w₀ s₀ (State.endWait s t rd v) := by simp +contextual (maxDischargeDepth := 30) [State.endWait, *]
@[simp] theorem State.takeEvents_keeps {w₀ : Bool} {s₀ : State} {s : State} (t : Fin 8) (hk : Keeps w₀ s₀ s) : Keeps
    w₀ s₀ (State.takeEvents s t).2 := by simp +contextual (maxDischargeDepth := 30) [State.takeEvents, *]
@[simp] theorem State.checkWait_keeps {w₀ : Bool} {s₀ : State} {s : State} (t : Fin 8) (hk : Keeps w₀ s₀ s) : Keeps w₀
    s₀ (State.checkWait s t) := by
  unfold State.checkWait
  dsimp only
  repeat' split
  all_goals simp +contextual (maxDischargeDepth := 30) [*]
@[simp] theorem State.settleWaits_keeps {w₀ : Bool} {s₀ : State} {s : State} (hk : Keeps w₀ s₀ s) : Keeps w₀ s₀
    (State.settleWaits s) := by simp +contextual (maxDischargeDepth := 30) [State.settleWaits, *]
@[simp] theorem State.setEvent_keeps {w₀ : Bool} {s₀ : State} {s : State} (t : Fin 8) (b : Nat) (hk : Keeps w₀ s₀ s) :
    Keeps w₀ s₀ (State.setEvent s t b) := by simp +contextual (maxDischargeDepth := 30) [State.setEvent, *]
@[simp] theorem State.arrive_keeps {w₀ : Bool} {s₀ : State} {s : State} (k : Nat) (hk : Keeps w₀ s₀ s) : Keeps w₀ s₀
    (State.arrive s k) := by simp +contextual (maxDischargeDepth := 30) [State.arrive, *]
@[simp] theorem State.flushDeferred_keeps {w₀ : Bool} {s₀ : State} {s : State} (hk : Keeps w₀ s₀ s) : Keeps w₀ s₀
    (State.flushDeferred s) := by simp +contextual (maxDischargeDepth := 30) [State.flushDeferred, *]
@[simp] theorem State.panFault_keeps {w₀ : Bool} {s₀ : State} {s : State} (n : Fin 4) (b : Nat) (hk : Keeps w₀ s₀ s) :
    Keeps w₀ s₀ (State.panFault s n b) := by simp +contextual (maxDischargeDepth := 30) [State.panFault, *]
@[simp] theorem State.panFaults_keeps {w₀ : Bool} {s₀ : State} {s : State} (ns : List (Fin 4)) (b : Nat) (hk : Keeps
    w₀ s₀ s) : Keeps w₀ s₀ (State.panFaults s ns b) := by simp +contextual (maxDischargeDepth := 30) [State.panFaults, *]
@[simp] theorem State.ownRef_keeps {w₀ : Bool} {s₀ : State} {s : State} (n : Fin 4) (hk : Keeps w₀ s₀ s) : Keeps w₀ s₀
    (State.ownRef s n) := by simp +contextual (maxDischargeDepth := 30) [State.ownRef, *]
@[simp] theorem State.noteSeen_keeps {w₀ : Bool} {s₀ s : State} (hk : Keeps w₀ s₀ s) : Keeps w₀ s₀ (State.noteSeen s)
    := by
  simp +contextual (maxDischargeDepth := 30) [State.noteSeen, *]
@[simp] theorem State.noteLost_keeps {w₀ : Bool} {s₀ : State} {s : State} (x : Fin 10) (k : Fin 128) (hk : Keeps w₀ s₀
    s) : Keeps w₀ s₀ (State.noteLost s x k) := by simp +contextual (maxDischargeDepth := 30) [State.noteLost, *]
@[simp] theorem State.takeSource_keeps {w₀ : Bool} {s₀ : State} {s : State} (x : Fin 10) (k : Fin 128) (hk : Keeps w₀
    s₀ s) : Keeps w₀ s₀ (State.takeSource s x k) := by simp +contextual (maxDischargeDepth := 30) [State.takeSource, *]
@[simp] theorem State.emptyClaim_keeps {w₀ : Bool} {s₀ : State} {s : State} (x : Fin 10) (hk : Keeps w₀ s₀ s) : Keeps
    w₀ s₀ (State.emptyClaim s x).2 := by simp +contextual (maxDischargeDepth := 30) [State.emptyClaim, *]
@[simp] theorem State.hostClaim_keeps {w₀ : Bool} {s₀ : State} {s : State} (h : Fin 2) (hk : Keeps w₀ s₀ s) : Keeps w₀
    s₀ (State.hostClaim s h).2 := by
  unfold State.hostClaim
  dsimp only
  repeat' split
  all_goals simp +contextual (maxDischargeDepth := 30) [*]
@[simp] theorem State.engClaim_keeps {w₀ : Bool} {s₀ : State} {s : State} (t : Fin 8) (hk : Keeps w₀ s₀ s) : Keeps w₀
    s₀ (State.engClaim s t).2 := by
  unfold State.engClaim
  dsimp only
  repeat' split
  all_goals simp +contextual (maxDischargeDepth := 30) [*]
@[simp] theorem State.orderFault_keeps {w₀ : Bool} {s₀ : State} {s : State} (h : Fin 2) (hk : Keeps w₀ s₀ s) : Keeps
    w₀ s₀ (State.orderFault s h) := by simp +contextual (maxDischargeDepth := 30) [State.orderFault, *]
@[simp] theorem State.hostDone_keeps {w₀ : Bool} {s₀ : State} {s : State} (h : Fin 2) (v : Word) (hk : Keeps w₀ s₀ s)
    : Keeps w₀ s₀ (State.hostDone s h v) := by
  simp only [State.hostDone]
  repeat' split
  all_goals simp +contextual (maxDischargeDepth := 30) [*]
@[simp] theorem State.unwind_keeps {w₀ : Bool} {s₀ : State} {s : State} (h : Fin 2) (hk : Keeps w₀ s₀ s) : Keeps w₀ s₀
    (State.unwind s h) := by simp +contextual (maxDischargeDepth := 30) [State.unwind, *]
@[simp] theorem State.engComplete_keeps {w₀ : Bool} {s₀ : State} {s : State} (t : Fin 8) (hk : Keeps w₀ s₀ s) : Keeps
    w₀ s₀ (State.engComplete s t) := by
  simp only [State.engComplete]
  repeat' split
  all_goals simp +contextual (maxDischargeDepth := 30) [*]
@[simp] theorem State.pendSet_keeps {w₀ : Bool} {s₀ : State} {s : State} (ks : List (Fin 128)) (hk : Keeps w₀ s₀ s) :
    Keeps w₀ s₀ (State.pendSet s ks) := by simp +contextual (maxDischargeDepth := 30) [State.pendSet, *]
@[simp] theorem State.pendClr_keeps {w₀ : Bool} {s₀ : State} {s : State} (ks : List (Fin 128)) (hk : Keeps w₀ s₀ s) :
    Keeps w₀ s₀ (State.pendClr s ks) := by simp +contextual (maxDischargeDepth := 30) [State.pendClr, *]
@[simp] theorem State.enSet_keeps {w₀ : Bool} {s₀ : State} {s : State} (ks : List (Fin 128)) (hk : Keeps w₀ s₀ s) :
    Keeps w₀ s₀ (State.enSet s ks) := by simp +contextual (maxDischargeDepth := 30) [State.enSet, *]
@[simp] theorem State.enClr_keeps {w₀ : Bool} {s₀ : State} {s : State} (ks : List (Fin 128)) (hk : Keeps w₀ s₀ s) :
    Keeps w₀ s₀ (State.enClr s ks) := by simp +contextual (maxDischargeDepth := 30) [State.enClr, *]
@[simp] theorem State.doorbell_keeps {w₀ : Bool} {s₀ : State} {s : State} (n : Fin 4) (k : Nat) (hk : Keeps w₀ s₀ s) :
    Keeps w₀ s₀ (State.doorbell s n k) := by simp +contextual (maxDischargeDepth := 30) [State.doorbell, *]
@[simp] theorem State.fillSlot_keeps {w₀ : Bool} {s₀ : State} {s : State} (n : Fin 4) (g : Nat) (f : Frame) (rlim :
    Nat) (prod : Nat) (dl : Option Instant) (ws : List Word) (hk : Keeps w₀ s₀ s) : Keeps w₀ s₀ (State.fillSlot s n g
    f rlim prod dl ws) := by simp +contextual (maxDischargeDepth := 30) [State.fillSlot, *]
@[simp] theorem State.openItem_keeps {w₀ : Bool} {s₀ : State} {s : State} (n : Fin 4) (q : Fin 4) (v : Word) (hk :
    Keeps w₀ s₀ s) : Keeps w₀ s₀ (State.openItem s n q v) := by simp +contextual (maxDischargeDepth := 30) [State.openItem, *]
@[simp] theorem State.submitWord_keeps {w₀ : Bool} {s₀ : State} {s : State} (p : Party) (n : Fin 4) (q : Fin 4) (v :
    Word) (hk : Keeps w₀ s₀ s) : Keeps w₀ s₀ (State.submitWord s p n q v) := by simp +contextual (maxDischargeDepth := 30) [State.submitWord, *]
@[simp] theorem State.sdataWord_keeps {w₀ : Bool} {s₀ : State} {s : State} (p : Party) (n : Fin 4) (q : Fin 4) (v :
    Word) (hk : Keeps w₀ s₀ s) : Keeps w₀ s₀ (State.sdataWord s p n q v) := by simp +contextual (maxDischargeDepth := 30) [State.sdataWord, *]
@[simp] theorem State.panFaultBits_keeps {w₀ : Bool} {s₀ : State} {s : State} (n : Fin 4) (bits : List Nat) (hk :
    Keeps w₀ s₀ s) : Keeps w₀ s₀ (State.panFaultBits s n bits) := by simp +contextual (maxDischargeDepth := 30) [State.panFaultBits, *]
@[simp] theorem State.acceptItem_keeps {w₀ : Bool} {s₀ : State} {s : State} (n : Fin 4) (q : Fin 4) (i : OpenItem) (g
    : Nat) (hk : Keeps w₀ s₀ s) : Keeps w₀ s₀ (State.acceptItem s n q i g) := by simp +contextual (maxDischargeDepth := 30) [State.acceptItem, *]
@[simp] theorem State.commitItem_keeps {w₀ : Bool} {s₀ : State} {s : State} (n : Fin 4) (q : Fin 4) (hk : Keeps w₀ s₀
    s) : Keeps w₀ s₀ (State.commitItem s n q).2 := by
  unfold State.commitItem
  dsimp only
  repeat' split
  all_goals simp +contextual (maxDischargeDepth := 30) [*]
@[simp] theorem State.commit_keeps {w₀ : Bool} {s₀ : State} {s : State} (p : Party) (n : Fin 4) (q : Fin 4) (hk :
    Keeps w₀ s₀ s) : Keeps w₀ s₀ (State.commit s p n q).2 := by
  simp only [State.commit]
  repeat' split
  all_goals simp +contextual (maxDischargeDepth := 30) [*]
@[simp] theorem State.writeStatus_keeps {w₀ : Bool} {s₀ : State} {s : State} (g : Nat) (code : Nat) (r : Record) (hk :
    Keeps w₀ s₀ s) : Keeps w₀ s₀ (State.writeStatus s g code r) := by
  unfold State.writeStatus
  dsimp only
  repeat' split
  all_goals simp +contextual (maxDischargeDepth := 30) [*]
@[simp] theorem State.cplEvent_keeps {w₀ : Bool} {s₀ : State} {s : State} (n : Fin 4) (q : TxQueue) (hk : Keeps w₀ s₀
    s) : Keeps w₀ s₀ (State.cplEvent s n q) := by
  simp only [State.cplEvent]
  repeat' split
  all_goals simp +contextual (maxDischargeDepth := 30) [*]
@[simp] theorem State.arriveOwn_keeps {w₀ : Bool} {s₀ s : State} (n : Fin 4) (k : Nat) (hk : Keeps w₀ s₀ s) : Keeps w₀
    s₀ (State.arriveOwn s n k) := by
  simp +contextual (maxDischargeDepth := 30) [State.arriveOwn, *]
@[simp] theorem State.completeItem_keeps {w₀ : Bool} {s₀ : State} {s : State} (n : Fin 4) (q : Fin 4) (g : Nat) (code
    : Nat) (r : Record) (hk : Keeps w₀ s₀ s) : Keeps w₀ s₀ (State.completeItem s n q g code r) := by simp +contextual (maxDischargeDepth := 30) [State.completeItem, *]
@[simp] theorem State.flushQueue_keeps {w₀ : Bool} {s₀ : State} {s : State} (n : Fin 4) (q : Fin 4) (hk : Keeps w₀ s₀
    s) : Keeps w₀ s₀ (State.flushQueue s n q).2 := by simp +contextual (maxDischargeDepth := 30) [State.flushQueue, *]
@[simp] theorem State.passSlots_keeps {w₀ : Bool} {s₀ : State} {s : State} (gs : List Nat) (own : Nat) (othr : Nat)
    (hk : Keeps w₀ s₀ s) : Keeps w₀ s₀ (State.passSlots s gs own othr) := by simp +contextual (maxDischargeDepth := 30) [State.passSlots, *]
@[simp] theorem State.tqSetEn_keeps {w₀ : Bool} {s₀ : State} {s : State} (n : Fin 4) (q : Fin 4) (on : Bool) (hk :
    Keeps w₀ s₀ s) : Keeps w₀ s₀ (State.tqSetEn s n q on) := by simp +contextual (maxDischargeDepth := 30) [State.tqSetEn, *]
@[simp] theorem State.tqCtl_keeps {w₀ : Bool} {s₀ : State} {s : State} (n : Fin 4) (q : Fin 4) (v : Word) (hk : Keeps
    w₀ s₀ s) : Keeps w₀ s₀ (State.tqCtl s n q v) := by simp +contextual (maxDischargeDepth := 30) [State.tqCtl, *]
@[simp] theorem State.tqRing_keeps {w₀ : Bool} {s₀ : State} {s : State} (n : Fin 4) (q : Fin 4) (v : Word) (hk : Keeps
    w₀ s₀ s) : Keeps w₀ s₀ (State.tqRing s n q v) := by simp +contextual (maxDischargeDepth := 30) [State.tqRing, *]
@[simp] theorem State.rxfSetEn_keeps {w₀ : Bool} {s₀ : State} {s : State} (n : Fin 4) (q : Fin 4) (on : Bool) (hk :
    Keeps w₀ s₀ s) : Keeps w₀ s₀ (State.rxfSetEn s n q on) := by simp +contextual (maxDischargeDepth := 30) [State.rxfSetEn, *]
@[simp] theorem State.rxfCtl_keeps {w₀ : Bool} {s₀ : State} {s : State} (n : Fin 4) (q : Fin 4) (v : Word) (hk : Keeps
    w₀ s₀ s) : Keeps w₀ s₀ (State.rxfCtl s n q v) := by simp +contextual (maxDischargeDepth := 30) [State.rxfCtl, *]
@[simp] theorem State.rxfRing_keeps {w₀ : Bool} {s₀ : State} {s : State} (n : Fin 4) (q : Fin 4) (v : Word) (hk :
    Keeps w₀ s₀ s) : Keeps w₀ s₀ (State.rxfRing s n q v) := by simp +contextual (maxDischargeDepth := 30) [State.rxfRing, *]
@[simp] theorem State.fetchHead_keeps {w₀ : Bool} {s₀ s : State} (p : Party) (n : Fin 4) (q : Fin 4) (rxf : Bool) (hk
    : Keeps w₀ s₀ s) : Keeps w₀ s₀ (State.fetchHead s p n q rxf).2 := by
  unfold State.fetchHead
  repeat' split
  all_goals simp +contextual (maxDischargeDepth := 30) [*]
@[simp] theorem State.fetchTake_keeps {w₀ : Bool} {s₀ s : State} (f : OpenFetch) (g : Nat) (hk : Keeps w₀ s₀ s) :
    Keeps w₀ s₀ (State.fetchTake s f g) := by
  simp +contextual (maxDischargeDepth := 30) [State.fetchTake, *]
@[simp] theorem State.fetchPart_keeps {w₀ : Bool} {s₀ s : State} (f : OpenFetch) (k : Nat) (take : Bool) (hk : Keeps
    w₀ s₀ s) : Keeps w₀ s₀ (State.fetchPart s f k take).2.2 := by
  unfold State.fetchPart
  dsimp only
  repeat' split
  all_goals simp +contextual (maxDischargeDepth := 30) [*]
@[simp] theorem State.fetchEnd_keeps {w₀ : Bool} {s₀ s : State} (f : OpenFetch) (hk : Keeps w₀ s₀ s) : Keeps w₀ s₀
    (State.fetchEnd s f).2 := by
  unfold State.fetchEnd
  repeat' split
  all_goals simp +contextual (maxDischargeDepth := 30) [*]
@[simp] theorem State.fetchWhole_keeps {w₀ : Bool} {s₀ s : State} (p : Party) (n : Fin 4) (q : Fin 4) (rxf : Bool) (k
    : Nat) (take : Bool) (hk : Keeps w₀ s₀ s) : Keeps w₀ s₀ (State.fetchWhole s p n q rxf k take).2.2 := by
  unfold State.fetchWhole
  simp +contextual (maxDischargeDepth := 30) [*]
@[simp] theorem State.deliverSlot_keeps {w₀ : Bool} {s₀ : State} {s : State} (n : Fin 4) (g : Nat) (f : Frame) (d :
    Delivery) (w2 : Word) (hk : Keeps w₀ s₀ s) : Keeps w₀ s₀ (State.deliverSlot s n g f d w2) := by simp +contextual (maxDischargeDepth := 30) [State.deliverSlot, *]
@[simp] theorem State.fifoEvent_keeps {w₀ : Bool} {s₀ : State} {s : State} (n : Fin 4) (q : Fin 4) (hk : Keeps w₀ s₀
    s) : Keeps w₀ s₀ (State.fifoEvent s n q) := by simp +contextual (maxDischargeDepth := 30) [State.fifoEvent, *]
@[simp] theorem State.deliverFifo_keeps {w₀ : Bool} {s₀ s : State} (n : Fin 4) (q : Fin 4) (f : Frame) (d : Delivery)
    (hk : Keeps w₀ s₀ s) : Keeps w₀ s₀ (State.deliverFifo s n q f d).2 := by
  unfold State.deliverFifo
  dsimp only
  repeat' split
  all_goals simp +contextual (maxDischargeDepth := 30) [*]
@[simp] theorem State.putMailbox_keeps {w₀ : Bool} {s₀ s : State} (n : Fin 4) (g : Nat) (f : Frame) (d : Delivery) (hk
    : Keeps w₀ s₀ s) : Keeps w₀ s₀ (State.putMailbox s n g f d) := by
  simp +contextual (maxDischargeDepth := 30) [State.putMailbox, *]
@[simp] theorem State.deliverMailbox_keeps {w₀ : Bool} {s₀ : State} {s : State} (n : Fin 4) (g : Nat) (f : Frame) (d :
    Delivery) (hk : Keeps w₀ s₀ s) : Keeps w₀ s₀ (State.deliverMailbox s n g f d) := by simp +contextual (maxDischargeDepth := 30) [State.deliverMailbox, *]
@[simp] theorem State.putHeld_keeps {w₀ : Bool} {s₀ s : State} (hs : List HeldFrame) (hk : Keeps w₀ s₀ s) : Keeps w₀
    s₀ (State.putHeld s hs) := by
  simp +contextual (maxDischargeDepth := 30) [State.putHeld, *]
@[simp] theorem State.writeW2_keeps {w₀ : Bool} {s₀ : State} {s : State} (g : Nat) (v : Word) (hk : Keeps w₀ s₀ s) :
    Keeps w₀ s₀ (State.writeW2 s g v).2 := by
  unfold State.writeW2
  dsimp only
  repeat' split
  all_goals simp +contextual (maxDischargeDepth := 30) [*]
@[simp] theorem State.writeSlot_keeps {w₀ : Bool} {s₀ : State} {s : State} (p : Party) (g : Nat) (w : Nat) (v : Word)
    (hk : Keeps w₀ s₀ s) : Keeps w₀ s₀ (State.writeSlot s p g w v).2 := by
  simp only [State.writeSlot]
  repeat' split
  all_goals simp +contextual (maxDischargeDepth := 30) [*]
@[simp] theorem State.hitFilter_keeps {w₀ : Bool} {s₀ : State} {s : State} (k : Fin 128) (hk : Keeps w₀ s₀ s) : Keeps
    w₀ s₀ (State.hitFilter s k) := by simp +contextual (maxDischargeDepth := 30) [State.hitFilter, *]
@[simp] theorem State.dropFilter_keeps {w₀ : Bool} {s₀ : State} {s : State} (k : Fin 128) (hk : Keeps w₀ s₀ s) : Keeps
    w₀ s₀ (State.dropFilter s k) := by simp +contextual (maxDischargeDepth := 30) [State.dropFilter, *]
@[simp] theorem State.freeMailbox_keeps {w₀ : Bool} {s₀ : State} {s : State} (o : Option Nat) (hk : Keeps w₀ s₀ s) :
    Keeps w₀ s₀ (State.freeMailbox s o) := by
  simp only [State.freeMailbox]
  repeat' split
  all_goals simp +contextual (maxDischargeDepth := 30) [*]
@[simp] theorem State.takeMailbox_keeps {w₀ : Bool} {s₀ : State} {s : State} (o : Option Nat) (named : Bool) (hk :
    Keeps w₀ s₀ s) : Keeps w₀ s₀ (State.takeMailbox s o named) := by
  unfold State.takeMailbox
  dsimp only
  repeat' split
  all_goals simp +contextual (maxDischargeDepth := 30) [*]
@[simp] theorem State.dropShadow_keeps {w₀ : Bool} {s₀ s : State} (k : ShKey) (hk : Keeps w₀ s₀ s) : Keeps w₀ s₀
    (State.dropShadow s k) := by
  unfold State.dropShadow
  repeat' split
  all_goals simp +contextual (maxDischargeDepth := 30) [*]
@[simp] theorem State.weed_keeps {w₀ : Bool} {s₀ s : State} (k : ShKey) (hk : Keeps w₀ s₀ s) : Keeps w₀ s₀ (State.weed
    s k) := by
  unfold State.weed
  split
  · exact hk
  · have h1 := State.updSys_keeps (fun y => { y with shBad := y.shBad.filter fun e => e.1 != k }) rfl rfl rfl hk
    simp only [keeps_ite]
    exact ⟨fun _ => State.updSys_keeps _ rfl rfl rfl (State.dropShadow_keeps k h1), fun _ => h1⟩
@[simp] theorem State.weedAll_keeps {w₀ : Bool} {s₀ s : State} (ks : List ShKey) (hk : Keeps w₀ s₀ s) : Keeps w₀ s₀
    (State.weedAll s ks) := keeps_foldl _ _ (fun _ x h => State.weed_keeps x h) hk
@[simp] theorem State.applyFilter_keeps {w₀ : Bool} {s₀ : State} {s : State} (k : Fin 128) (hk : Keeps w₀ s₀ s) :
    Keeps w₀ s₀ (State.applyFilter s k) := by simp +contextual (maxDischargeDepth := 30) [State.applyFilter, *]
@[simp] theorem State.setLock_keeps {w₀ : Bool} {s₀ : State} {s : State} (l : Fin 32) (o : Option (Fin 8)) (hk : Keeps
    w₀ s₀ s) : Keeps w₀ s₀ (State.setLock s l o) := by simp +contextual (maxDischargeDepth := 30) [State.setLock, *]
@[simp] theorem State.releaseLock_keeps {w₀ : Bool} {s₀ : State} {s : State} (l : Fin 32) (hk : Keeps w₀ s₀ s) : Keeps
    w₀ s₀ (State.releaseLock s l) := by
  simp only [State.releaseLock]
  repeat' split
  all_goals simp +contextual (maxDischargeDepth := 30) [*]
@[simp] theorem State.dropItemOf_keeps {w₀ : Bool} {s₀ : State} {s : State} (t : Fin 8) (hk : Keeps w₀ s₀ s) : Keeps
    w₀ s₀ (State.dropItemOf s t) := by simp +contextual (maxDischargeDepth := 30) [State.dropItemOf, *]
@[simp] theorem State.freeSlotsOf_keeps {w₀ : Bool} {s₀ : State} {s : State} (t : Fin 8) (hk : Keeps w₀ s₀ s) : Keeps
    w₀ s₀ (State.freeSlotsOf s t) := by simp +contextual (maxDischargeDepth := 30) [State.freeSlotsOf, *]
@[simp] theorem State.orphan_keeps {w₀ : Bool} {s₀ : State} {s : State} (t : Fin 8) (hk : Keeps w₀ s₀ s) : Keeps w₀ s₀
    (State.orphan s t) := by simp +contextual (maxDischargeDepth := 30) [State.orphan, *]
@[simp] theorem State.tellParent_keeps {w₀ : Bool} {s₀ : State} {s : State} (c : Fin 8) (hk : Keeps w₀ s₀ s) : Keeps
    w₀ s₀ (State.tellParent s c) := by
  unfold State.tellParent
  dsimp only
  repeat' split
  all_goals simp +contextual (maxDischargeDepth := 30) [*]
@[simp] theorem State.haltThread_keeps {w₀ : Bool} {s₀ : State} {s : State} (t : Fin 8) (f : Thread → Thread) (hk :
    Keeps w₀ s₀ s) : Keeps w₀ s₀ (State.haltThread s t f) := by simp +contextual (maxDischargeDepth := 30) [State.haltThread, *]
@[simp] theorem State.threadFault_keeps {w₀ : Bool} {s₀ : State} {s : State} (t : Fin 8) (c : Nat) (hk : Keeps w₀ s₀
    s) : Keeps w₀ s₀ (State.threadFault s t c) := by simp +contextual (maxDischargeDepth := 30) [State.threadFault, *]
@[simp] theorem State.advance_keeps {w₀ : Bool} {s₀ : State} {s : State} (t : Fin 8) (hk : Keeps w₀ s₀ s) : Keeps w₀
    s₀ (State.advance s t) := by simp +contextual (maxDischargeDepth := 30) [State.advance, *]
@[simp] theorem State.jump_keeps {w₀ : Bool} {s₀ : State} {s : State} (t : Fin 8) (pc : BitVec 15) (hk : Keeps w₀ s₀
    s) : Keeps w₀ s₀ (State.jump s t pc) := by simp +contextual (maxDischargeDepth := 30) [State.jump, *]
@[simp] theorem State.meetBreak_keeps {w₀ : Bool} {s₀ s : State} (t : Fin 8) (hk : Keeps w₀ s₀ s) : Keeps w₀ s₀
    (State.meetBreak s t) := by
  simp +contextual (maxDischargeDepth := 30) [State.meetBreak, *]
@[simp] theorem State.issue_keeps {w₀ : Bool} {s₀ : State} {s : State} (t : Fin 8) (k : State → State) (hk : ∀ s,
    Keeps w₀ s₀ s → Keeps w₀ s₀ (k s)) (hk : Keeps w₀ s₀ s) : Keeps w₀ s₀ (State.issue s t k) := by simp +contextual (maxDischargeDepth := 30) [State.issue, *]
@[simp] theorem State.issueReg_keeps {w₀ : Bool} {s₀ : State} {s : State} (t : Fin 8) (rd : Reg) (v : Word) (hk :
    Keeps w₀ s₀ s) : Keeps w₀ s₀ (State.issueReg s t rd v) := by simp +contextual (maxDischargeDepth := 30) [State.issueReg, *]
@[simp] theorem State.startThread_keeps {w₀ : Bool} {s₀ : State} {s : State} (t : Fin 8) (pc : BitVec 15) (hk : Keeps
    w₀ s₀ s) : Keeps w₀ s₀ (State.startThread s t pc).2 := by
  simp only [State.startThread]
  repeat' split
  all_goals simp +contextual (maxDischargeDepth := 30) [*]
@[simp] theorem State.goThread_keeps {w₀ : Bool} {s₀ s : State} (n : Fin 4) (t : Fin 8) (hk : Keeps w₀ s₀ s) : Keeps
    w₀ s₀ (State.goThread s n t) := by
  simp +contextual (maxDischargeDepth := 30) [State.goThread, *]
@[simp] theorem State.goNow_keeps {w₀ : Bool} {s₀ s : State} (hk : Keeps w₀ s₀ s) : Keeps w₀ s₀ s.goNow := by
  unfold State.goNow
  refine keeps_foldl _ _ (fun s n hs => ?_) (keeps_put_eng _ hk)
  repeat' split
  all_goals simp [*]
@[simp] theorem State.beginWait_keeps {w₀ : Bool} {s₀ : State} {s : State} (t : Fin 8) (rd : Fin 16) (w : WaitOn) (hk
    : Keeps w₀ s₀ s) : Keeps w₀ s₀ (State.beginWait s t rd w) := by simp +contextual (maxDischargeDepth := 30) [State.beginWait, *]
@[simp] theorem State.wakeReached_keeps {w₀ : Bool} {s₀ : State} {s : State} (t : Fin 8) (hk : Keeps w₀ s₀ s) : Keeps
    w₀ s₀ (State.wakeReached s t) := by
  unfold State.wakeReached
  dsimp only
  repeat' split
  all_goals simp +contextual (maxDischargeDepth := 30) [*]
@[simp] theorem State.armWake_keeps {w₀ : Bool} {s₀ : State} {s : State} (t : Fin 8) (v : BitVec 64) (hk : Keeps w₀ s₀
    s) : Keeps w₀ s₀ (State.armWake s t v) := by simp +contextual (maxDischargeDepth := 30) [State.armWake, *]
@[simp] theorem State.bitField_keeps {w₀ : Bool} {s₀ : State} {s : State} (t : Fin 8) (rd : Reg) (pos : BitVec 5) (wid
    : BitVec 5) (v : Word) (hk : Keeps w₀ s₀ s) : Keeps w₀ s₀ (State.bitField s t rd pos wid v) := by simp +contextual (maxDischargeDepth := 30) [State.bitField, *]
@[simp] theorem State.branch_keeps {w₀ : Bool} {s₀ : State} {s : State} (t : Fin 8) (c : Bool) (off : BitVec 16) (hk :
    Keeps w₀ s₀ s) : Keeps w₀ s₀ (State.branch s t c off) := by simp +contextual (maxDischargeDepth := 30) [State.branch, *]
@[simp] theorem State.jumpTo_keeps {w₀ : Bool} {s₀ : State} {s : State} (t : Fin 8) (rd : Fin 16) (v : Word) (hk :
    Keeps w₀ s₀ s) : Keeps w₀ s₀ (State.jumpTo s t rd v) := by simp +contextual (maxDischargeDepth := 30) [State.jumpTo, *]
@[simp] theorem State.timApply_keeps {w₀ : Bool} {s₀ : State} {s : State} (n : Fin 8) (hk : Keeps w₀ s₀ s) : Keeps w₀
    s₀ (State.timApply s n) := by simp +contextual (maxDischargeDepth := 30) [State.timApply, *]
@[simp] theorem State.timWriteCtl_keeps {w₀ : Bool} {s₀ : State} {s : State} (n : Fin 8) (v : Word) (hk : Keeps w₀ s₀
    s) : Keeps w₀ s₀ (State.timWriteCtl s n v) := by simp +contextual (maxDischargeDepth := 30) [State.timWriteCtl, *]
@[simp] theorem State.timCtl_keeps {w₀ : Bool} {s₀ : State} {s : State} (n : Fin 8) (via : Via) (v : Word) (hk : Keeps
    w₀ s₀ s) : Keeps w₀ s₀ (State.timCtl s n via v) := by
  simp only [State.timCtl]
  repeat' split
  all_goals simp +contextual (maxDischargeDepth := 30) [*]
@[simp] theorem State.timSource_keeps {w₀ : Bool} {s₀ : State} {s : State} (n : Fin 8) (kind : Nat) (hk : Keeps w₀ s₀
    s) : Keeps w₀ s₀ (State.timSource s n kind) := by simp +contextual (maxDischargeDepth := 30) [State.timSource, *]
@[simp] theorem State.timMaster_keeps {w₀ : Bool} {s₀ s : State} (n : Fin 8) (kind : Nat) (hk : Keeps w₀ s₀ s) : Keeps
    w₀ s₀ (State.timMaster s n kind) := by
  simp +contextual (maxDischargeDepth := 30) [State.timMaster, *]
@[simp] theorem State.endRequest_keeps {w₀ : Bool} {s₀ s : State} (listenOnly : Bool) (hk : Keeps w₀ s₀ s) :
    Keeps w₀ s₀ (s.endRequest listenOnly) := by
  refine hk.put_pow _ ?_
  dsimp only
  split <;> rfl
@[simp] theorem State.timTick_keeps {w₀ : Bool} {s₀ s : State} (n : Fin 8) (hk : Keeps w₀ s₀ s) : Keeps w₀ s₀
    (State.timTick s n) := by
  simp +contextual (maxDischargeDepth := 30) [State.timTick, *]
@[simp] theorem State.timEvent_keeps {w₀ : Bool} {s₀ s : State} (n : Fin 8) (hk : Keeps w₀ s₀ s) : Keeps w₀ s₀
    (State.timEvent s n) := by
  simp +contextual (maxDischargeDepth := 30) [State.timEvent, *]
@[simp] theorem State.timEvents_keeps {w₀ : Bool} {s₀ s : State} (n : Fin 8) (k : Nat) (hk : Keeps w₀ s₀ s) : Keeps w₀ s₀
    (State.timEvents s n k) := by
  induction k generalizing s with
  | zero => exact hk
  | succ k ih => exact ih (State.timEvent_keeps n hk)
@[simp] theorem State.timCycle_keeps {w₀ : Bool} {s₀ s : State} (g : State) (ticks : Nat) (lf : Nat) (links : List
    (Fin 8)) (n : Fin 8) (hk : Keeps w₀ s₀ s) : Keeps w₀ s₀ (State.timCycle s g ticks lf links n) := by
  unfold State.timCycle
  dsimp only
  repeat' split
  all_goals simp +contextual (maxDischargeDepth := 30) [*]
@[simp] theorem State.updLatch_keeps {w₀ : Bool} {s₀ : State} {s : State} (p : Party) (n : Fin 8) (f : TimLatch →
    TimLatch) (hk : Keeps w₀ s₀ s) : Keeps w₀ s₀ (State.updLatch s p n f) := by simp +contextual (maxDischargeDepth := 30) [State.updLatch, *]
@[simp] theorem State.timCapture_keeps {w₀ : Bool} {s₀ s : State} (n : Fin 8) (trig : Nat) (hk : Keeps w₀ s₀ s) :
    Keeps w₀ s₀ (State.timCapture s n trig) := by
  simp +contextual (maxDischargeDepth := 30) [State.timCapture, *]
@[simp] theorem State.capqRead_keeps {w₀ : Bool} {s₀ : State} {s : State} (p : Party) (n : Fin 8) (hk : Keeps w₀ s₀ s)
    : Keeps w₀ s₀ (State.capqRead s p n).2 := by simp +contextual (maxDischargeDepth := 30) [State.capqRead, *]
@[simp] theorem State.timLo_keeps {w₀ : Bool} {s₀ : State} {s : State} (p : Party) (n : Fin 8) (x : TimPair) (hk :
    Keeps w₀ s₀ s) : Keeps w₀ s₀ (State.timLo s p n x).2 := by simp +contextual (maxDischargeDepth := 30) [State.timLo, *]
@[simp] theorem State.timPutHi_keeps {w₀ : Bool} {s₀ : State} {s : State} (p : Party) (n : Fin 8) (x : TimPair) (v :
    Word) (hk : Keeps w₀ s₀ s) : Keeps w₀ s₀ (State.timPutHi s p n x v) := by simp +contextual (maxDischargeDepth := 30) [State.timPutHi, *]
@[simp] theorem State.timPutLo_keeps {w₀ : Bool} {s₀ : State} {s : State} (p : Party) (n : Fin 8) (x : TimPair) (v :
    Word) (hk : Keeps w₀ s₀ s) : Keeps w₀ s₀ (State.timPutLo s p n x v) := by
  unfold State.timPutLo
  dsimp only
  repeat' split
  all_goals simp +contextual (maxDischargeDepth := 30) [*]
@[simp] theorem State.timPutStat_keeps {w₀ : Bool} {s₀ : State} {s : State} (n : Fin 8) (v : Word) (hk : Keeps w₀ s₀
    s) : Keeps w₀ s₀ (State.timPutStat s n v) := by simp +contextual (maxDischargeDepth := 30) [State.timPutStat, *]
@[simp] theorem State.tpEdge_keeps {w₀ : Bool} {s₀ : State} {s : State} (n : Fin 8) (rising : Bool) (hk : Keeps w₀ s₀
    s) : Keeps w₀ s₀ (State.tpEdge s n rising) := by simp +contextual (maxDischargeDepth := 30) [State.tpEdge, *]
@[simp] theorem State.timMakeup_keeps {w₀ : Bool} {s₀ : State} {s : State} (n : Fin 8) (iv : Interval) (tide : Nat)
    (hk : Keeps w₀ s₀ s) : Keeps w₀ s₀ (State.timMakeup s n iv tide) := by simp +contextual (maxDischargeDepth := 30) [State.timMakeup, *]
@[simp] theorem State.fixGates_keeps {w₀ : Bool} {s₀ : State} {s : State} (hk : Keeps w₀ s₀ s) : Keeps w₀ s₀
    (State.fixGates s) := by simp +contextual (maxDischargeDepth := 30) [State.fixGates, *]

end Sys2Proof.Machine
end

