-- ==== Sys2Proof/Laws/KeepsLine.lean ====
section
/-! SUPPORT. What each operation keeps (Flags, Sched, Attempt, Sluice, Cal, Tide, Select, Line). -/

namespace Sys2Proof.Machine

@[simp] theorem State.keyFail_keeps {w₀ : Bool} {s₀ : State} {s : State} (hk : Keeps w₀ s₀ s) : Keeps w₀ s₀
    (State.keyFail s) := by simp +contextual (maxDischargeDepth := 30) [State.keyFail, *]
@[simp] theorem State.setPllErr_keeps {w₀ : Bool} {s₀ : State} {s : State} (hk : Keeps w₀ s₀ s) : Keeps w₀ s₀
    (State.setPllErr s) := by simp +contextual (maxDischargeDepth := 30) [State.setPllErr, *]
@[simp] theorem State.setLfErr_keeps {w₀ : Bool} {s₀ : State} {s : State} (hk : Keeps w₀ s₀ s) : Keeps w₀ s₀
    (State.setLfErr s) := by simp +contextual (maxDischargeDepth := 30) [State.setLfErr, *]
@[simp] theorem State.setOtpErr_keeps {w₀ : Bool} {s₀ : State} {s : State} (hk : Keeps w₀ s₀ s) : Keeps w₀ s₀
    (State.setOtpErr s) := by simp +contextual (maxDischargeDepth := 30) [State.setOtpErr, *]
@[simp] theorem State.updPort_keeps {w₀ : Bool} {s₀ : State} {s : State} (port : LinePort) (f : PortState → PortState)
    (hk : Keeps w₀ s₀ s) : Keeps w₀ s₀ (State.updPort s port f) := by
  simp only [State.updPort]
  repeat' split
  all_goals simp +contextual (maxDischargeDepth := 30) [*]
@[simp] theorem State.tideRefused_keeps {w₀ : Bool} {s₀ : State} {s : State} (a1 : Via) (hk : Keeps w₀ s₀ s) : Keeps
    w₀ s₀ (State.tideRefused s a1) := by
  simp only [State.tideRefused]
  repeat' split
  all_goals simp +contextual (maxDischargeDepth := 30) [*]
@[simp] theorem State.applyRate_keeps {w₀ : Bool} {s₀ : State} {s : State} (hk : Keeps w₀ s₀ s) : Keeps w₀ s₀
    (State.applyRate s) := by
  simp only [State.applyRate]
  repeat' split
  all_goals simp +contextual (maxDischargeDepth := 30) [*]
@[simp] theorem State.applyPeriod_keeps {w₀ : Bool} {s₀ : State} {s : State} (hk : Keeps w₀ s₀ s) : Keeps w₀ s₀
    (State.applyPeriod s) := by
  simp only [State.applyPeriod]
  repeat' split
  all_goals simp +contextual (maxDischargeDepth := 30) [*]
@[simp] theorem State.updRun_keeps {w₀ : Bool} {s₀ : State} {s : State} (hk : Keeps w₀ s₀ s) : Keeps w₀ s₀
    (State.updRun s) := by simp +contextual (maxDischargeDepth := 30) [State.updRun, *]
@[simp] theorem State.updLife_keeps {w₀ : Bool} {s₀ : State} {s : State} (hk : Keeps w₀ s₀ s) : Keeps w₀ s₀
    (State.updLife s) := by simp +contextual (maxDischargeDepth := 30) [State.updLife, *]
@[simp] theorem State.updUnrel_keeps {w₀ : Bool} {s₀ : State} {s : State} (hk : Keeps w₀ s₀ s) : Keeps w₀ s₀
    (State.updUnrel s) := by simp +contextual (maxDischargeDepth := 30) [State.updUnrel, *]
@[simp] theorem State.updSearch_keeps {w₀ : Bool} {s₀ s : State} (hk : Keeps w₀ s₀ s) : Keeps w₀ s₀ (State.updSearch
    s) := by
  simp +contextual (maxDischargeDepth := 30) [State.updSearch, *]
@[simp] theorem State.settle_keeps {w₀ : Bool} {s₀ : State} {s : State} (hk : Keeps w₀ s₀ s) : Keeps w₀ s₀
    (State.settle s) := by simp +contextual (maxDischargeDepth := 30) [State.settle, *]
@[simp] theorem State.schEvent_keeps {w₀ : Bool} {s₀ : State} {s : State} (e : Fin 32) (hk : Keeps w₀ s₀ s) : Keeps w₀
    s₀ (State.schEvent s e) := by simp +contextual (maxDischargeDepth := 30) [State.schEvent, *]
@[simp] theorem State.schComplete_keeps {w₀ : Bool} {s₀ : State} {s : State} (e : Fin 32) (r : Nat) (hk : Keeps w₀ s₀
    s) : Keeps w₀ s₀ (State.schComplete s e r) := by simp +contextual (maxDischargeDepth := 30) [State.schComplete, *]
@[simp] theorem State.putLate_keeps {w₀ : Bool} {s₀ : State} {s : State} (e : Fin 32) (hk : Keeps w₀ s₀ s) : Keeps w₀
    s₀ (State.putLate s e) := by simp +contextual (maxDischargeDepth := 30) [State.putLate, *]
@[simp] theorem State.giveBack_keeps {w₀ : Bool} {s₀ : State} {s : State} (g : Nat) (who : Option (Fin 8)) (hk : Keeps
    w₀ s₀ s) : Keeps w₀ s₀ (State.giveBack s g who) := by
  simp only [State.giveBack]
  repeat' split
  all_goals simp +contextual (maxDischargeDepth := 30) [*]
@[simp] theorem State.reportTx_keeps {w₀ : Bool} {s₀ : State} {s : State} (n : Fin 4) (q : Fin 4) (code : Nat) (hk :
    Keeps w₀ s₀ s) : Keeps w₀ s₀ (State.reportTx s n q code) := by simp +contextual (maxDischargeDepth := 30) [State.reportTx, *]
@[simp] theorem State.finishTx_keeps {w₀ : Bool} {s₀ : State} {s : State} (n : Fin 4) (q : Fin 4) (g : Nat) (code :
    Nat) (who : Option (Fin 8)) (r : Record) (hk : Keeps w₀ s₀ s) : Keeps w₀ s₀ (State.finishTx s n q g code who r) := by simp +contextual (maxDischargeDepth := 30) [State.finishTx, *]
@[simp] theorem State.completeFired_keeps {w₀ : Bool} {s₀ : State} {s : State} (x : FiredTx) (code : Nat) (r : Record)
    (hk : Keeps w₀ s₀ s) : Keeps w₀ s₀ (State.completeFired s x code r) := by simp +contextual (maxDischargeDepth := 30) [State.completeFired, *]
@[simp] theorem State.dropTx_keeps {w₀ : Bool} {s₀ : State} {s : State} (e : Fin 32) (code : Nat) (hk : Keeps w₀ s₀ s)
    : Keeps w₀ s₀ (State.dropTx s e code) := by
  unfold State.dropTx
  dsimp only
  repeat' split
  all_goals simp +contextual (maxDischargeDepth := 30) [*]
@[simp] theorem State.changePlan_keeps {w₀ : Bool} {s₀ : State} {s : State} (plan : BitVec 3) (hk : Keeps w₀ s₀ s) :
    Keeps w₀ s₀ (State.changePlan s plan) := by simp +contextual (maxDischargeDepth := 30) [State.changePlan, *]
@[simp] theorem State.channelDone_keeps {w₀ : Bool} {s₀ : State} {s : State} (e : Fin 32) (plan : BitVec 3) (late :
    Bool) (hk : Keeps w₀ s₀ s) : Keeps w₀ s₀ (State.channelDone s e plan late) := by simp +contextual (maxDischargeDepth := 30) [State.channelDone, *]
@[simp] theorem State.fireChannel_keeps {w₀ : Bool} {s₀ : State} {s : State} (e : Fin 32) (late : Bool) (hk : Keeps w₀
    s₀ s) : Keeps w₀ s₀ (State.fireChannel s e late) := by
  simp only [State.fireChannel]
  repeat' split
  all_goals simp +contextual (maxDischargeDepth := 30) [*]
@[simp] theorem State.firePin_keeps {w₀ : Bool} {s₀ : State} {s : State} (e : Fin 32) (hk : Keeps w₀ s₀ s) : Keeps w₀
    s₀ (State.firePin s e).2 := by
  unfold State.firePin
  dsimp only
  repeat' split
  all_goals simp +contextual (maxDischargeDepth := 30) [*]
@[simp] theorem State.fireCapture_keeps {w₀ : Bool} {s₀ : State} {s : State} (e : Fin 32) (hk : Keeps w₀ s₀ s) : Keeps
    w₀ s₀ (State.fireCapture s e) := by simp +contextual (maxDischargeDepth := 30) [State.fireCapture, *]
@[simp] theorem State.fireThread_keeps {w₀ : Bool} {s₀ : State} {s : State} (e : Fin 32) (hk : Keeps w₀ s₀ s) : Keeps
    w₀ s₀ (State.fireThread s e).2 := by
  unfold State.fireThread
  dsimp only
  repeat' split
  all_goals simp +contextual (maxDischargeDepth := 30) [*]
@[simp] theorem State.fireTx_keeps {w₀ : Bool} {s₀ : State} {s : State} (e : Fin 32) (hk : Keeps w₀ s₀ s) : Keeps w₀
    s₀ (State.fireTx s e) := by
  unfold State.fireTx
  dsimp only
  repeat' split
  all_goals simp +contextual (maxDischargeDepth := 30) [*]
@[simp] theorem State.schFire_keeps {w₀ : Bool} {s₀ : State} {s : State} (e : Fin 32) (late : Bool) (hk : Keeps w₀ s₀
    s) : Keeps w₀ s₀ (State.schFire s e late) := by
  unfold State.schFire
  dsimp only
  repeat' split
  all_goals simp +contextual (maxDischargeDepth := 30) [*]
@[simp] theorem State.schLate_keeps {w₀ : Bool} {s₀ : State} {s : State} (e : Fin 32) (hk : Keeps w₀ s₀ s) : Keeps w₀
    s₀ (State.schLate s e) := by simp +contextual (maxDischargeDepth := 30) [State.schLate, *]
@[simp] theorem State.takeTx_keeps {w₀ : Bool} {s₀ : State} {s : State} (e : Fin 32) (who : Option (Fin 8)) (g : Nat)
    (hk : Keeps w₀ s₀ s) : Keeps w₀ s₀ (State.takeTx s e who g) := by simp +contextual (maxDischargeDepth := 30) [State.takeTx, *]
@[simp] theorem State.schArm_keeps {w₀ : Bool} {s₀ : State} {s : State} (p : Party) (e : Fin 32) (v : Word) (hk :
    Keeps w₀ s₀ s) : Keeps w₀ s₀ (State.schArm s p e v) := by
  unfold State.schArm
  dsimp only
  repeat' split
  all_goals simp +contextual (maxDischargeDepth := 30) [*]
@[simp] theorem State.schDisarm_keeps {w₀ : Bool} {s₀ : State} {s : State} (e : Fin 32) (v : Word) (hk : Keeps w₀ s₀
    s) : Keeps w₀ s₀ (State.schDisarm s e v) := by
  simp only [State.schDisarm]
  repeat' split
  all_goals simp +contextual (maxDischargeDepth := 30) [*]
@[simp] theorem State.schCtl_keeps {w₀ : Bool} {s₀ : State} {s : State} (p : Party) (e : Fin 32) (v : Word) (hk :
    Keeps w₀ s₀ s) : Keeps w₀ s₀ (State.schCtl s p e v) := by simp +contextual (maxDischargeDepth := 30) [State.schCtl, *]
@[simp] theorem State.schWrite_keeps {w₀ : Bool} {s₀ : State} {s : State} (e : Fin 32) (f : SchEntry → SchEntry) (hk :
    Keeps w₀ s₀ s) : Keeps w₀ s₀ (State.schWrite s e f) := by simp +contextual (maxDischargeDepth := 30) [State.schWrite, *]
@[simp] theorem State.schMoved_keeps {w₀ : Bool} {s₀ s : State} (hk : Keeps w₀ s₀ s) : Keeps w₀ s₀ s.schMoved := by
  unfold State.schMoved
  refine keeps_foldl _ _ (fun s e hs => ?_) hk
  split
  all_goals simp [hs]
@[simp] theorem State.setBridgeQ_keeps {w₀ : Bool} {s₀ : State} {s : State} (port : LinePort) (q : List Forward) (hk :
    Keeps w₀ s₀ s) : Keeps w₀ s₀ (State.setBridgeQ s port q) := by
  simp only [State.setBridgeQ]
  repeat' split
  all_goals simp +contextual (maxDischargeDepth := 30) [*]
@[simp] theorem State.bridgeDrop_keeps {w₀ : Bool} {s₀ : State} {s : State} (port : LinePort) (hk : Keeps w₀ s₀ s) :
    Keeps w₀ s₀ (State.bridgeDrop s port) := by simp +contextual (maxDischargeDepth := 30) [State.bridgeDrop, *]
@[simp] theorem State.bumpRcnt_keeps {w₀ : Bool} {s₀ : State} {s : State} (g : Nat) (hk : Keeps w₀ s₀ s) : Keeps w₀ s₀
    (State.bumpRcnt s g) := by simp +contextual (maxDischargeDepth := 30) [State.bumpRcnt, *]
@[simp] theorem State.bumpLost_keeps {w₀ : Bool} {s₀ : State} {s : State} (g : Nat) (hk : Keeps w₀ s₀ s) : Keeps w₀ s₀
    (State.bumpLost s g) := by simp +contextual (maxDischargeDepth := 30) [State.bumpLost, *]
@[simp] theorem State.unwire_keeps {w₀ : Bool} {s₀ s : State} (n : Fin 4) (q : Fin 4) (g : Nat) (last : Instant ×
    Bool) (hk : Keeps w₀ s₀ s) : Keeps w₀ s₀ (State.unwire s n q g last) := by
  simp +contextual (maxDischargeDepth := 30) [State.unwire, *]
@[simp] theorem State.finish_keeps {w₀ : Bool} {s₀ : State} {s : State} (port : LinePort) (a : TxAttempt) (code : Nat)
    (r : Record) (hk : Keeps w₀ s₀ s) : Keeps w₀ s₀ (State.finish s port a code r) := by
  unfold State.finish
  dsimp only
  repeat' split
  all_goals simp +contextual (maxDischargeDepth := 30) [*]
@[simp] theorem State.requeue_keeps {w₀ : Bool} {s₀ s : State} (port : LinePort) (a : TxAttempt) (ack : Bool) (f :
    Forward → Forward) (hk : Keeps w₀ s₀ s) : Keeps w₀ s₀ (State.requeue s port a ack f) := by
  unfold State.requeue
  dsimp only
  repeat' split
  all_goals simp +contextual (maxDischargeDepth := 30) [*]
@[simp] theorem State.failed_keeps {w₀ : Bool} {s₀ s : State} (port : LinePort) (a : TxAttempt) (unack : Bool) (ack :
    Bool) (hk : Keeps w₀ s₀ s) : Keeps w₀ s₀ (State.failed s port a unack ack) := by
  unfold State.failed
  dsimp only
  repeat' split
  all_goals simp +contextual (maxDischargeDepth := 30) [*]
@[simp] theorem State.putOff_keeps {w₀ : Bool} {s₀ : State} {s : State} (port : LinePort) (a : TxAttempt) (lost :
    Bool) (hk : Keeps w₀ s₀ s) : Keeps w₀ s₀ (State.putOff s port a lost) := by
  unfold State.putOff
  dsimp only
  repeat' split
  all_goals simp +contextual (maxDischargeDepth := 30) [*]
@[simp] theorem State.leaveString_keeps {w₀ : Bool} {s₀ s : State} (hk : Keeps w₀ s₀ s) : Keeps w₀ s₀
    (State.leaveString s) := by
  simp +contextual (maxDischargeDepth := 30) [State.leaveString, *]
@[simp] theorem State.portDown_keeps {w₀ : Bool} {s₀ : State} {s : State} (port : LinePort) (hk : Keeps w₀ s₀ s) :
    Keeps w₀ s₀ (State.portDown s port) := by simp +contextual (maxDischargeDepth := 30) [State.portDown, *]
@[simp] theorem State.lineIdle_keeps {w₀ : Bool} {s₀ : State} {s : State} (port : LinePort) (hk : Keeps w₀ s₀ s) :
    Keeps w₀ s₀ (State.lineIdle s port) := by simp +contextual (maxDischargeDepth := 30) [State.lineIdle, *]
@[simp] theorem State.dropTxOn_keeps {w₀ : Bool} {s₀ : State} {s : State} (port : LinePort) (hk : Keeps w₀ s₀ s) :
    Keeps w₀ s₀ (State.dropTxOn s port) := by simp +contextual (maxDischargeDepth := 30) [State.dropTxOn, *]
@[simp] theorem State.sluiceFrame_keeps {w₀ : Bool} {s₀ : State} {s : State} (port : LinePort) (hk : Keeps w₀ s₀ s) :
    Keeps w₀ s₀ (State.sluiceFrame s port) := by
  unfold State.sluiceFrame
  dsimp only
  repeat' split
  all_goals simp +contextual (maxDischargeDepth := 30) [*]
@[simp] theorem State.setConf_keeps {w₀ : Bool} {s₀ : State} {s : State} (port : LinePort) (c : Confinement) (hk :
    Keeps w₀ s₀ s) : Keeps w₀ s₀ (State.setConf s port c) := by simp +contextual (maxDischargeDepth := 30) [State.setConf, *]
@[simp] theorem State.enterQuarantine_keeps {w₀ : Bool} {s₀ : State} {s : State} (port : LinePort) (now : Nat) (hk :
    Keeps w₀ s₀ s) : Keeps w₀ s₀ (State.enterQuarantine s port now) := by
  unfold State.enterQuarantine
  dsimp only
  repeat' split
  all_goals simp +contextual (maxDischargeDepth := 30) [*]
@[simp] theorem State.follow_keeps {w₀ : Bool} {s₀ : State} {s : State} (port : LinePort) (now : Nat) (hk : Keeps w₀
    s₀ s) : Keeps w₀ s₀ (State.follow s port now) := by simp +contextual (maxDischargeDepth := 30) [State.follow, *]
@[simp] theorem State.bringAon_keeps {w₀ : Bool} {s₀ s : State} (us : Nat) (hk : Keeps w₀ s₀ s) : Keeps w₀ s₀
    (State.bringAon s us) := by
  simp +contextual (maxDischargeDepth := 30) [State.bringAon, *]
@[simp] theorem State.addCount_keeps {w₀ : Bool} {s₀ : State} {s : State} (port : LinePort) (dTec : Int) (dRec : Int)
    (hk : Keeps w₀ s₀ s) : Keeps w₀ s₀ (State.addCount s port dTec dRec) := by simp +contextual (maxDischargeDepth := 30) [State.addCount, *]
@[simp] theorem State.addCounts_keeps {w₀ : Bool} {s₀ s : State} (port : LinePort) (dTec dRec : Int) (n : Nat)
    (hk : Keeps w₀ s₀ s) : Keeps w₀ s₀ (s.addCounts port dTec dRec n) := by
  induction n generalizing s with
  | zero => exact hk
  | succ n ih => exact ih (by simp [hk])
@[simp] theorem State.commitCount_keeps {w₀ : Bool} {s₀ : State} {s : State} (port : LinePort) (now : Nat) (hk : Keeps
    w₀ s₀ s) : Keeps w₀ s₀ (State.commitCount s port now) := by
  unfold State.commitCount
  dsimp only
  repeat' split
  all_goals simp +contextual (maxDischargeDepth := 30) [*]
@[simp] theorem State.rejoinPort_keeps {w₀ : Bool} {s₀ : State} {s : State} (port : LinePort) (hk : Keeps w₀ s₀ s) :
    Keeps w₀ s₀ (State.rejoinPort s port) := by simp +contextual (maxDischargeDepth := 30) [State.rejoinPort, *]
@[simp] theorem State.quarantineStep_keeps {w₀ : Bool} {s₀ : State} {s : State} (port : LinePort) (hk : Keeps w₀ s₀ s)
    : Keeps w₀ s₀ (State.quarantineStep s port) := by simp +contextual (maxDischargeDepth := 30) [State.quarantineStep, *]
@[simp] theorem State.rejoinWrite_keeps {w₀ : Bool} {s₀ : State} {s : State} (port : LinePort) (hk : Keeps w₀ s₀ s) :
    Keeps w₀ s₀ (State.rejoinWrite s port) := by
  unfold State.rejoinWrite
  dsimp only
  repeat' split
  all_goals simp +contextual (maxDischargeDepth := 30) [*]
@[simp] theorem State.emitBurst_keeps {w₀ : Bool} {s₀ : State} {s : State} (hk : Keeps w₀ s₀ s) : Keeps w₀ s₀
    (State.emitBurst s) := by simp +contextual (maxDischargeDepth := 30) [State.emitBurst, *]
@[simp] theorem State.tryRelease_keeps {w₀ : Bool} {s₀ : State} {s : State} (hk : Keeps w₀ s₀ s) : Keeps w₀ s₀
    (State.tryRelease s) := by simp +contextual (maxDischargeDepth := 30) [State.tryRelease, *]
@[simp] theorem State.tideStep_keeps {w₀ : Bool} {s₀ : State} {s : State} (hk : Keeps w₀ s₀ s) : Keeps w₀ s₀
    (State.tideStep s) := by simp +contextual (maxDischargeDepth := 30) [State.tideStep, *]
@[simp] theorem State.keeperStep_keeps {w₀ : Bool} {s₀ : State} {s : State} (hk : Keeps w₀ s₀ s) : Keeps w₀ s₀
    (State.keeperStep s) := by simp +contextual (maxDischargeDepth := 30) [State.keeperStep, *]
@[simp] theorem State.safeLatch_keeps {w₀ : Bool} {s₀ : State} {s : State} (cause : Nat) (hk : Keeps w₀ s₀ s) : Keeps
    w₀ s₀ (State.safeLatch s cause) := by simp +contextual (maxDischargeDepth := 30) [State.safeLatch, *]
@[simp] theorem State.sluiceRequest_keeps {w₀ : Bool} {s₀ : State} {s : State} (hk : Keeps w₀ s₀ s) : Keeps w₀ s₀
    (State.sluiceRequest s) := by simp +contextual (maxDischargeDepth := 30) [State.sluiceRequest, *]
@[simp] theorem State.localStep_keeps {w₀ : Bool} {s₀ : State} {s : State} (hk : Keeps w₀ s₀ s) : Keeps w₀ s₀
    (State.localStep s) := by simp +contextual (maxDischargeDepth := 30) [State.localStep, *]
@[simp] theorem State.keepAlive_keeps {w₀ : Bool} {s₀ : State} {s : State} (permit : Bool) (rel : Byte) (hk : Keeps w₀
    s₀ s) : Keeps w₀ s₀ (State.keepAlive s permit rel) := by simp +contextual (maxDischargeDepth := 30) [State.keepAlive, *]
@[simp] theorem State.nodeStep_keeps {w₀ : Bool} {s₀ : State} {s : State} (permit : Bool) (rel : Byte) (hk : Keeps w₀
    s₀ s) : Keeps w₀ s₀ (State.nodeStep s permit rel) := by simp +contextual (maxDischargeDepth := 30) [State.nodeStep, *]
@[simp] theorem State.refresh_keeps {w₀ : Bool} {s₀ : State} {s : State} (permit : Bool) (rel : Byte) (hk : Keeps w₀
    s₀ s) : Keeps w₀ s₀ (State.refresh s permit rel) := by simp +contextual (maxDischargeDepth := 30) [State.refresh, *]
@[simp] theorem State.refreshOwn_keeps {w₀ : Bool} {s₀ : State} {s : State} (permit : Bool) (rel : Byte) (hk : Keeps
    w₀ s₀ s) : Keeps w₀ s₀ (State.refreshOwn s permit rel) := by simp +contextual (maxDischargeDepth := 30) [State.refreshOwn, *]
@[simp] theorem State.lapse_keeps {w₀ : Bool} {s₀ : State} {s : State} (hk : Keeps w₀ s₀ s) : Keeps w₀ s₀ (State.lapse
    s) := by simp +contextual (maxDischargeDepth := 30) [State.lapse, *]
@[simp] theorem State.sluCtlWrite_keeps {w₀ : Bool} {s₀ : State} {s : State} (v : Word) (hk : Keeps w₀ s₀ s) : Keeps
    w₀ s₀ (State.sluCtlWrite s v).2 := by
  unfold State.sluCtlWrite
  dsimp only
  repeat' split
  all_goals simp +contextual (maxDischargeDepth := 30) [*]
@[simp] theorem State.calArrive_keeps {w₀ : Bool} {s₀ : State} {s : State} (k : Nat) (hk : Keeps w₀ s₀ s) : Keeps w₀
    s₀ (State.calArrive s k) := by simp +contextual (maxDischargeDepth := 30) [State.calArrive, *]
@[simp] theorem State.calFlags_keeps {w₀ : Bool} {s₀ : State} {s : State} (old : Word) (wrapped : Bool) (hk : Keeps w₀
    s₀ s) : Keeps w₀ s₀ (State.calFlags s old wrapped) := by simp +contextual (maxDischargeDepth := 30) [State.calFlags, *]
@[simp] theorem State.calPeriodic_keeps {w₀ : Bool} {s₀ : State} {s : State} (hk : Keeps w₀ s₀ s) : Keeps w₀ s₀
    (State.calPeriodic s) := by simp +contextual (maxDischargeDepth := 30) [State.calPeriodic, *]
@[simp] theorem State.shiftKept_keeps {w₀ : Bool} {s₀ s : State} (d : Int) (hk : Keeps w₀ s₀ s) : Keeps w₀ s₀
    (State.shiftKept s d) := by
  exact hk.congr rfl rfl rfl rfl rfl rfl
@[simp] theorem State.moveClock_keeps {w₀ : Bool} {s₀ : State} {s : State} (d : Int) (hk : Keeps w₀ s₀ s) : Keeps w₀
    s₀ (State.moveClock s d) := by simp +contextual (maxDischargeDepth := 30) [State.moveClock, *]
@[simp] theorem State.softStep_keeps {w₀ : Bool} {s₀ : State} {s : State} (hk : Keeps w₀ s₀ s) : Keeps w₀ s₀
    (State.softStep s) := by simp +contextual (maxDischargeDepth := 30) [State.softStep, *]
@[simp] theorem State.adjustLock_keeps {w₀ : Bool} {s₀ : State} {s : State} (d : Int) (hk : Keeps w₀ s₀ s) : Keeps w₀
    s₀ (State.adjustLock s d) := by simp +contextual (maxDischargeDepth := 30) [State.adjustLock, *]
@[simp] theorem State.applyMoves_keeps {w₀ : Bool} {s₀ : State} {s : State} (hk : Keeps w₀ s₀ s) : Keeps w₀ s₀
    (State.applyMoves s) := by
  unfold State.applyMoves
  dsimp only
  repeat' split
  all_goals simp +contextual (maxDischargeDepth := 30) [*]
@[simp] theorem State.calTimeRead_keeps {w₀ : Bool} {s₀ : State} {s : State} (p : Party) (hk : Keeps w₀ s₀ s) : Keeps
    w₀ s₀ (State.calTimeRead s p).2 := by simp +contextual (maxDischargeDepth := 30) [State.calTimeRead, *]
@[simp] theorem State.calDate_keeps {w₀ : Bool} {s₀ : State} {s : State} (p : Party) (v : Word) (hk : Keeps w₀ s₀ s) :
    Keeps w₀ s₀ (State.calDate s p v) := by simp +contextual (maxDischargeDepth := 30) [State.calDate, *]
@[simp] theorem State.calFlag_keeps {w₀ : Bool} {s₀ : State} {s : State} (via : Via) (deny : Bool) (hk : Keeps w₀ s₀
    s) : Keeps w₀ s₀ (State.calFlag s via deny) := by
  simp only [State.calFlag]
  repeat' split
  all_goals simp +contextual (maxDischargeDepth := 30) [*]
@[simp] theorem State.calTime_keeps {w₀ : Bool} {s₀ : State} {s : State} (p : Party) (n : Fin 4) (via : Via) (v :
    Word) (hk : Keeps w₀ s₀ s) : Keeps w₀ s₀ (State.calTime s p n via v) := by simp +contextual (maxDischargeDepth := 30) [State.calTime, *]
@[simp] theorem State.setTideLock_keeps {w₀ : Bool} {s₀ : State} {s : State} (k : Lock) (hk : Keeps w₀ s₀ s) : Keeps
    w₀ s₀ (State.setTideLock s k) := by simp +contextual (maxDischargeDepth := 30) [State.setTideLock, *]
@[simp] theorem State.toFree_keeps {w₀ : Bool} {s₀ : State} {s : State} (hk : Keeps w₀ s₀ s) : Keeps w₀ s₀
    (State.toFree s) := by simp +contextual (maxDischargeDepth := 30) [State.toFree, *]
@[simp] theorem State.startSending_keeps {w₀ : Bool} {s₀ : State} {s : State} (hk : Keeps w₀ s₀ s) : Keeps w₀ s₀
    (State.startSending s) := by simp +contextual (maxDischargeDepth := 30) [State.startSending, *]
@[simp] theorem State.stopSending_keeps {w₀ : Bool} {s₀ : State} {s : State} (hk : Keeps w₀ s₀ s) : Keeps w₀ s₀
    (State.stopSending s) := by simp +contextual (maxDischargeDepth := 30) [State.stopSending, *]
@[simp] theorem State.tideLaunched_keeps {w₀ : Bool} {s₀ : State} {s : State} (hk : Keeps w₀ s₀ s) : Keeps w₀ s₀
    (State.tideLaunched s) := by simp +contextual (maxDischargeDepth := 30) [State.tideLaunched, *]
@[simp] theorem State.tideEvent_keeps {w₀ : Bool} {s₀ : State} {s : State} (hk : Keeps w₀ s₀ s) : Keeps w₀ s₀
    (State.tideEvent s) := by simp +contextual (maxDischargeDepth := 30) [State.tideEvent, *]
@[simp] theorem State.stepFor_keeps {w₀ : Bool} {s₀ : State} {s : State} (e : Int) (stamp : Nat) (hk : Keeps w₀ s₀ s)
    : Keeps w₀ s₀ (State.stepFor s e stamp) := by simp +contextual (maxDischargeDepth := 30) [State.stepFor, *]
@[simp] theorem State.putOffs_keeps {w₀ : Bool} {s₀ : State} {s : State} (e : Int) (hk : Keeps w₀ s₀ s) : Keeps w₀ s₀
    (State.putOffs s e) := by simp +contextual (maxDischargeDepth := 30) [State.putOffs, *]
@[simp] theorem State.train_keeps {w₀ : Bool} {s₀ : State} {s : State} (e : Int) (stamp : Nat) (code : Nat) (hk :
    Keeps w₀ s₀ s) : Keeps w₀ s₀ (State.train s e stamp code) := by
  unfold State.train
  dsimp only
  repeat' split
  all_goals simp +contextual (maxDischargeDepth := 30) [*]
@[simp] theorem State.discipline_keeps {w₀ : Bool} {s₀ : State} {s : State} (f : Frame) (arrival : Nat) (hk : Keeps w₀
    s₀ s) : Keeps w₀ s₀ (State.discipline s f arrival) := by simp +contextual (maxDischargeDepth := 30) [State.discipline, *]
@[simp] theorem State.track_keeps {w₀ : Bool} {s₀ : State} {s : State} (f : Frame) (arrival : Nat) (hk : Keeps w₀ s₀
    s) : Keeps w₀ s₀ (State.track s f arrival) := by simp +contextual (maxDischargeDepth := 30) [State.track, *]
@[simp] theorem State.withdrawTide_keeps {w₀ : Bool} {s₀ : State} {s : State} (hk : Keeps w₀ s₀ s) : Keeps w₀ s₀
    (State.withdrawTide s) := by
  simp only [State.withdrawTide]
  repeat' split
  all_goals simp +contextual (maxDischargeDepth := 30) [*]
@[simp] theorem State.stepDown_keeps {w₀ : Bool} {s₀ : State} {s : State} (f : Frame) (hk : Keeps w₀ s₀ s) : Keeps w₀
    s₀ (State.stepDown s f) := by simp +contextual (maxDischargeDepth := 30) [State.stepDown, *]
@[simp] theorem State.endSearch_keeps {w₀ : Bool} {s₀ : State} {s : State} (hk : Keeps w₀ s₀ s) : Keeps w₀ s₀
    (State.endSearch s) := by simp +contextual (maxDischargeDepth := 30) [State.endSearch, *]
@[simp] theorem State.useTide_keeps {w₀ : Bool} {s₀ : State} {s : State} (f : Frame) (arrival : Nat) (hk : Keeps w₀ s₀
    s) : Keeps w₀ s₀ (State.useTide s f arrival) := by simp +contextual (maxDischargeDepth := 30) [State.useTide, *]
@[simp] theorem State.noteEpoch_keeps {w₀ : Bool} {s₀ : State} {s : State} (f : Frame) (hk : Keeps w₀ s₀ s) :
    Keeps w₀ s₀ (State.noteEpoch s f) := by simp +contextual (maxDischargeDepth := 30) [State.noteEpoch, *]
@[simp] theorem State.hearTide_keeps {w₀ : Bool} {s₀ : State} {s : State} (f : Frame) (arrival : Nat) (hk : Keeps w₀
    s₀ s) : Keeps w₀ s₀ (State.hearTide s f arrival) := by
  unfold State.hearTide
  dsimp only
  generalize hm : (if s.tide.sending && s.tide.takeover then _ else _ : State) = m
  have h2 : Keeps w₀ s₀ m := by 
    rw [← hm]
    simp (maxDischargeDepth := 30) [hk]
  clear hm
  repeat' split
  all_goals simp (maxDischargeDepth := 30) [h2]
@[simp] theorem State.putDelay_keeps {w₀ : Bool} {s₀ : State} {s : State} (kmark : Bool) (v : BitVec 16) (hk : Keeps
    w₀ s₀ s) : Keeps w₀ s₀ (State.putDelay s kmark v) := by simp +contextual (maxDischargeDepth := 30) [State.putDelay, *]
@[simp] theorem State.soundResult_keeps {w₀ : Bool} {s₀ : State} {s : State} (f : Frame) (hk : Keeps w₀ s₀ s) : Keeps
    w₀ s₀ (State.soundResult s f) := by simp +contextual (maxDischargeDepth := 30) [State.soundResult, *]
@[simp] theorem State.newSecond_keeps {w₀ : Bool} {s₀ : State} {s : State} (old : Word) (hk : Keeps w₀ s₀ s) : Keeps
    w₀ s₀ (State.newSecond s old) := by simp +contextual (maxDischargeDepth := 30) [State.newSecond, *]
@[simp] theorem State.secondWrap_keeps {w₀ : Bool} {s₀ : State} {s : State} (hk : Keeps w₀ s₀ s) : Keeps w₀ s₀
    (State.secondWrap s) := by simp +contextual (maxDischargeDepth := 30) [State.secondWrap, *]
@[simp] theorem State.boundary_keeps {w₀ : Bool} {s₀ : State} {s : State} (hk : Keeps w₀ s₀ s) : Keeps w₀ s₀
    (State.boundary s) := by simp +contextual (maxDischargeDepth := 30) [State.boundary, *]
@[simp] theorem State.missedPeriod_keeps {w₀ : Bool} {s₀ : State} {s : State} (hk : Keeps w₀ s₀ s) : Keeps w₀ s₀
    (State.missedPeriod s) := by simp +contextual (maxDischargeDepth := 30) [State.missedPeriod, *]
@[simp] theorem State.listenEnd_keeps {w₀ : Bool} {s₀ : State} {s : State} (hk : Keeps w₀ s₀ s) : Keeps w₀ s₀
    (State.listenEnd s) := by
  unfold State.listenEnd
  dsimp only
  repeat' split
  all_goals simp +contextual (maxDischargeDepth := 30) [*]
@[simp] theorem State.slewSecond_keeps {w₀ : Bool} {s₀ : State} {s : State} (hk : Keeps w₀ s₀ s) : Keeps w₀ s₀
    (State.slewSecond s) := by
  simp [State.slewSecond, hk]
@[simp] theorem State.startListen_keeps {w₀ : Bool} {s₀ : State} {s : State} (hk : Keeps w₀ s₀ s) : Keeps w₀ s₀
    (State.startListen s) := by simp +contextual (maxDischargeDepth := 30) [State.startListen, *]
@[simp] theorem State.keeperWrite_keeps {w₀ : Bool} {s₀ : State} {s : State} (v : Word) (hk : Keeps w₀ s₀ s) : Keeps
    w₀ s₀ (State.keeperWrite s v) := by
  have h1 : Keeps w₀ s₀ (s.updTide fun t => { t with keeperReg := merge (0x00FF0FF3 : Word) t.keeperReg v }) :=
    State.updTide_keeps _ hk
  unfold State.keeperWrite
  dsimp only
  refine State.settle_keeps (State.keeperStep_keeps ?_)
  repeat' split
  · exact State.updTide_keeps _ (State.stopSending_keeps h1)
  · exact State.updTide_keeps _ h1
  · exact State.startListen_keeps h1
  · exact State.updTide_keeps _ h1
  · exact h1
@[simp] theorem State.noteHolds_keeps {w₀ : Bool} {s₀ : State} {s : State} (port : LinePort) (hk : Keeps w₀ s₀ s) :
    Keeps w₀ s₀ (State.noteHolds s port) := by simp +contextual (maxDischargeDepth := 30) [State.noteHolds, *]
@[simp] theorem State.prepare_keeps {w₀ : Bool} {s₀ : State} {s : State} (g : Nat) (hk : Keeps w₀ s₀ s) : Keeps w₀ s₀
    (State.prepare s g).2 := by simp +contextual (maxDischargeDepth := 30) [State.prepare, *]
@[simp] theorem State.putOnWire_keeps {w₀ : Bool} {s₀ : State} {s : State} (port : LinePort) (src : TxSource) (f :
    Frame) (gen : BitVec 16) (hk : Keeps w₀ s₀ s) : Keeps w₀ s₀ (State.putOnWire s port src f gen) := by simp +contextual (maxDischargeDepth := 30) [State.putOnWire, *]
@[simp] theorem State.wireItem_keeps {w₀ : Bool} {s₀ : State} {s : State} (n : Fin 4) (q : Fin 4) (g : Nat) (hk :
    Keeps w₀ s₀ s) : Keeps w₀ s₀ (State.wireItem s n q g) := by simp +contextual (maxDischargeDepth := 30) [State.wireItem, *]
@[simp] theorem State.pay_keeps {w₀ : Bool} {s₀ : State} {s : State} (n : Fin 4) (f : Frame) (hk : Keeps w₀ s₀ s) :
    Keeps w₀ s₀ (State.pay s n f) := by simp +contextual (maxDischargeDepth := 30) [State.pay, *]
@[simp] theorem State.countXpan_keeps {w₀ : Bool} {s₀ : State} {s : State} (n : Fin 4) (able : List (Fin 4 ×
    Candidate)) (hk : Keeps w₀ s₀ s) : Keeps w₀ s₀ (State.countXpan s n able) := by simp +contextual (maxDischargeDepth := 30) [State.countXpan, *]
@[simp] theorem State.launchCand_keeps {w₀ : Bool} {s₀ : State} {s : State} (port : LinePort) (n : Fin 4) (c :
    Candidate) (hk : Keeps w₀ s₀ s) : Keeps w₀ s₀ (State.launchCand s port n c) := by
  unfold State.launchCand
  dsimp only
  repeat' split
  all_goals simp +contextual (maxDischargeDepth := 30) [*]
@[simp] theorem State.launchTide_keeps {w₀ : Bool} {s₀ : State} {s : State} (port : LinePort) (hk : Keeps w₀ s₀ s) :
    Keeps w₀ s₀ (State.launchTide s port) := by simp +contextual (maxDischargeDepth := 30) [State.launchTide, *]
@[simp] theorem State.passFirst_keeps {w₀ : Bool} {s₀ : State} {s : State} (port : LinePort) (hk : Keeps w₀ s₀ s) :
    Keeps w₀ s₀ (State.passFirst s port) := by simp +contextual (maxDischargeDepth := 30) [State.passFirst, *]
@[simp] theorem State.launchGasp_keeps {w₀ : Bool} {s₀ : State} {s : State} (port : LinePort) (g : Nat) (hk : Keeps w₀
    s₀ s) : Keeps w₀ s₀ (State.launchGasp s port g) := by simp +contextual (maxDischargeDepth := 30) [State.launchGasp, *]
@[simp] theorem State.launchSound_keeps {w₀ : Bool} {s₀ s : State} (port : LinePort) (f : Frame) (hk : Keeps w₀ s₀ s)
    : Keeps w₀ s₀ (State.launchSound s port f) := by
  simp +contextual (maxDischargeDepth := 30) [State.launchSound, *]
@[simp] theorem State.launchOwn_keeps {w₀ : Bool} {s₀ s : State} (port : LinePort) (a1 : Own) (hk : Keeps w₀ s₀ s) :
    Keeps w₀ s₀ (State.launchOwn s port a1) := by
  unfold State.launchOwn
  repeat' split
  all_goals simp +contextual (maxDischargeDepth := 30) [*]
@[simp] theorem State.launchFirst_keeps {w₀ : Bool} {s₀ : State} {s : State} (port : LinePort) (hk : Keeps w₀ s₀ s) :
    Keeps w₀ s₀ (State.launchFirst s port) := by
  unfold State.launchFirst
  repeat' split
  all_goals simp +contextual (maxDischargeDepth := 30) [*]
@[simp] theorem State.opportunity_keeps {w₀ : Bool} {s₀ : State} {s : State} (port : LinePort) (hk : Keeps w₀ s₀ s) :
    Keeps w₀ s₀ (State.opportunity s port) := by
  unfold State.opportunity
  dsimp only
  repeat' split
  all_goals simp +contextual (maxDischargeDepth := 30) [*]
@[simp] theorem State.refund_keeps {w₀ : Bool} {s₀ : State} {s : State} (n : Fin 4) (f : Frame) (hk : Keeps w₀ s₀ s) :
    Keeps w₀ s₀ (State.refund s n f) := by simp +contextual (maxDischargeDepth := 30) [State.refund, *]
@[simp] theorem State.countUnack_keeps {w₀ : Bool} {s₀ : State} {s : State} (a : TxAttempt) (hk : Keeps w₀ s₀ s) :
    Keeps w₀ s₀ (State.countUnack s a) := by
  simp only [State.countUnack]
  repeat' split
  all_goals simp +contextual (maxDischargeDepth := 30) [*]
@[simp] theorem State.soundDone_keeps {w₀ : Bool} {s₀ s : State} (port : LinePort) (a : TxAttempt) (d : Option Nat)
    (hk : Keeps w₀ s₀ s) : Keeps w₀ s₀ (State.soundDone s port a d) := by
  unfold State.soundDone
  dsimp only
  repeat' split
  all_goals simp +contextual (maxDischargeDepth := 30) [*]
@[simp] theorem State.soundSent_keeps {w₀ : Bool} {s₀ s : State} (a : TxAttempt) (hk : Keeps w₀ s₀ s) : Keeps w₀ s₀
    (State.soundSent s a) := by
  unfold State.soundSent
  split
  · exact hk.put_mem _ (Memory.wf_memPutWord _ _ _)
  · exact hk
@[simp] theorem State.tideSent_keeps {w₀ : Bool} {s₀ : State} {s : State} (a : TxAttempt) (hk : Keeps w₀ s₀ s) : Keeps
    w₀ s₀ (State.tideSent s a) := by simp +contextual (maxDischargeDepth := 30) [State.tideSent, *]
@[simp] theorem State.putAnswer_keeps {w₀ : Bool} {s₀ : State} {s : State} (port : LinePort) (a : Answer) (hk : Keeps
    w₀ s₀ s) : Keeps w₀ s₀ (State.putAnswer s port a) := by simp +contextual (maxDischargeDepth := 30) [State.putAnswer, *]
@[simp] theorem State.errorCounts_keeps {w₀ : Bool} {s₀ s : State} (port : LinePort) (tx : Bool) (first : Nat) (delim
    : Nat) (sg : Signalling) (hk : Keeps w₀ s₀ s) : Keeps w₀ s₀ (State.errorCounts s port tx first delim sg) := by
  simp +contextual (maxDischargeDepth := 30) [State.errorCounts, *]
@[simp] theorem State.ifsError_keeps {w₀ : Bool} {s₀ s : State} (port : LinePort) (tx : Bool) (after : Option
    Signalling) (hk : Keeps w₀ s₀ s) : Keeps w₀ s₀ (State.ifsError s port tx after) := by
  unfold State.ifsError
  dsimp only
  repeat' split
  all_goals simp +contextual (maxDischargeDepth := 30) [*]
@[simp] theorem State.attemptEnd_keeps {w₀ : Bool} {s₀ : State} {s : State} (port : LinePort) (e : TxEnd) (hk : Keeps
    w₀ s₀ s) : Keeps w₀ s₀ (State.attemptEnd s port e) := by
  unfold State.attemptEnd
  dsimp only
  repeat' split
  all_goals simp +contextual (maxDischargeDepth := 30) [*]
@[simp] theorem State.forward_keeps {w₀ : Bool} {s₀ : State} {s : State} (port : LinePort) (f : Frame) (hk : Keeps w₀
    s₀ s) : Keeps w₀ s₀ (State.forward s port f).2 := by
  unfold State.forward
  dsimp only
  repeat' split
  all_goals simp +contextual (maxDischargeDepth := 30) [*]
@[simp] theorem State.deliver_keeps {w₀ : Bool} {s₀ : State} {s : State} (port : LinePort) (f : Frame) (sof : Instant)
    (brg : Bool) (n : Fin 4) (k : Fin 128) (hk : Keeps w₀ s₀ s) : Keeps w₀ s₀ (State.deliver s port f sof brg n k) := by
  unfold State.deliver
  dsimp only
  repeat' split
  all_goals simp +contextual (maxDischargeDepth := 30) [*]
@[simp] theorem State.deliverAll_keeps {w₀ : Bool} {s₀ : State} {s : State} (port : LinePort) (f : Frame) (sof :
    Instant) (hk : Keeps w₀ s₀ s) : Keeps w₀ s₀ (State.deliverAll s port f sof) := by
  unfold State.deliverAll
  dsimp only
  repeat' split
  all_goals simp +contextual (maxDischargeDepth := 30) [*]
@[simp] theorem State.putPred_keeps {w₀ : Bool} {s₀ : State} {s : State} (hk : Keeps w₀ s₀ s) : Keeps w₀ s₀
    (State.putPred s) := by simp +contextual (maxDischargeDepth := 30) [State.putPred, *]
@[simp] theorem State.putMargin_keeps {w₀ : Bool} {s₀ : State} {s : State} (rx : Byte) (hk : Keeps w₀ s₀ s) : Keeps w₀
    s₀ (State.putMargin s rx) := by simp +contextual (maxDischargeDepth := 30) [State.putMargin, *]
@[simp] theorem State.recValid_keeps {w₀ : Bool} {s₀ : State} {s : State} (port : LinePort) (hk : Keeps w₀ s₀ s) :
    Keeps w₀ s₀ (State.recValid s port) := by simp +contextual (maxDischargeDepth := 30) [State.recValid, *]
@[simp] theorem State.frameFlags_keeps {w₀ : Bool} {s₀ : State} {s : State} (f : Frame) (hk : Keeps w₀ s₀ s) : Keeps
    w₀ s₀ (State.frameFlags s f) := by simp +contextual (maxDischargeDepth := 30) [State.frameFlags, *]
@[simp] theorem State.receiveValid_keeps {w₀ : Bool} {s₀ s : State} (port : LinePort) (f : Frame) (sof : Instant)
    (margin : Byte) (after : Option Signalling) (hk : Keeps w₀ s₀ s) : Keeps w₀ s₀ (State.receiveValid s port f sof
    margin after) := by
  simp +contextual (maxDischargeDepth := 30) [State.receiveValid, *]
@[simp] theorem State.receiveError_keeps {w₀ : Bool} {s₀ s : State} (port : LinePort) (f : Frame) (sof : Instant) (e :
    RxErr) (sg : Signalling) (hk : Keeps w₀ s₀ s) : Keeps w₀ s₀ (State.receiveError s port f sof e sg) := by
  simp +contextual (maxDischargeDepth := 30) [State.receiveError, *]
@[simp] theorem State.receive_keeps {w₀ : Bool} {s₀ : State} {s : State} (port : LinePort) (f : Frame) (sof : Instant)
    (margin : Byte) (e : RxEnd) (hk : Keeps w₀ s₀ s) : Keeps w₀ s₀ (State.receive s port f sof margin e) := by
  simp only [State.receive]
  repeat' split
  all_goals simp +contextual (maxDischargeDepth := 30) [*]
@[simp] theorem State.soundRequest_keeps {w₀ : Bool} {s₀ : State} {s : State} (port : LinePort) (f : Frame) (sof :
    Instant) (hk : Keeps w₀ s₀ s) : Keeps w₀ s₀ (State.soundRequest s port f sof) := by simp +contextual (maxDischargeDepth := 30) [State.soundRequest, *]
@[simp] theorem State.hearResult_keeps {w₀ : Bool} {s₀ : State} {s : State} (port : LinePort) (f : Frame) (hk : Keeps
    w₀ s₀ s) : Keeps w₀ s₀ (State.hearResult s port f) := by simp +contextual (maxDischargeDepth := 30) [State.hearResult, *]
@[simp] theorem State.receiveTide_keeps {w₀ : Bool} {s₀ : State} {s : State} (port : LinePort) (f : Frame) (arrival :
    Instant) (hk : Keeps w₀ s₀ s) : Keeps w₀ s₀ (State.receiveTide s port f arrival) := by simp +contextual (maxDischargeDepth := 30) [State.receiveTide, *]
@[simp] theorem State.idleSync_keeps {w₀ : Bool} {s₀ : State} {s : State} (port : LinePort) (hk : Keeps w₀ s₀ s) :
    Keeps w₀ s₀ (State.idleSync s port) := by simp +contextual (maxDischargeDepth := 30) [State.idleSync, *]
@[simp] theorem State.suspensionEnd_keeps {w₀ : Bool} {s₀ : State} {s : State} (port : LinePort) (hk : Keeps w₀ s₀ s)
    : Keeps w₀ s₀ (State.suspensionEnd s port) := by simp +contextual (maxDischargeDepth := 30) [State.suspensionEnd, *]
@[simp] theorem State.applyDelay_keeps {w₀ : Bool} {s₀ : State} {s : State} (hk : Keeps w₀ s₀ s) : Keeps w₀ s₀
    (State.applyDelay s) := by
  simp only [State.applyDelay]
  repeat' split
  all_goals simp +contextual (maxDischargeDepth := 30) [*]
@[simp] theorem State.clockIdle_keeps {w₀ : Bool} {s₀ : State} {s : State} (hk : Keeps w₀ s₀ s) : Keeps w₀ s₀
    (State.clockIdle s) := by simp +contextual (maxDischargeDepth := 30) [State.clockIdle, *]
@[simp] theorem State.channelIdle_keeps {w₀ : Bool} {s₀ : State} {s : State} (hk : Keeps w₀ s₀ s) : Keeps w₀ s₀
    (State.channelIdle s) := by
  unfold State.channelIdle
  dsimp only
  repeat' split
  all_goals simp +contextual (maxDischargeDepth := 30) [*]
@[simp] theorem State.dwellEnd_keeps {w₀ : Bool} {s₀ : State} {s : State} (hk : Keeps w₀ s₀ s) : Keeps w₀ s₀
    (State.dwellEnd s) := by simp +contextual (maxDischargeDepth := 30) [State.dwellEnd, *]
@[simp] theorem State.noise_keeps {w₀ : Bool} {s₀ s : State} (noise : Tab Int 6) (hk : Keeps w₀ s₀ s) : Keeps w₀ s₀
    (State.noise s noise) := by
  simp +contextual (maxDischargeDepth := 30) [State.noise, *]
end Sys2Proof.Machine
end

