-- ==== Sys2Proof/Laws/KeepsAccess.lean ====
section
/-! SUPPORT. What each operation keeps (Pans, Power, Regs, Shadows, RegWrite, Cmac, Host, Thread). -/

namespace Sys2Proof.Machine

@[simp] theorem State.lockSlots_keeps {w₀ : Bool} {s₀ : State} {s : State} (hk : Keeps w₀ s₀ s) : Keeps w₀ s₀
    (State.lockSlots s) := by simp +contextual (maxDischargeDepth := 30) [State.lockSlots, *]
@[simp] theorem State.lockMailboxes_keeps {w₀ : Bool} {s₀ : State} {s : State} (hk : Keeps w₀ s₀ s) : Keeps w₀ s₀
    (State.lockMailboxes s) := by simp +contextual (maxDischargeDepth := 30) [State.lockMailboxes, *]
@[simp] theorem State.scrubPan_keeps {w₀ : Bool} {s₀ s : State} (n : Fin 4) (hk : Keeps w₀ s₀ s) :
    Keeps w₀ s₀ (s.scrubPan n) := by
  refine hk.put_mem _ fun h => Memory.wf_memZero _ _ _ ?_
  generalize (List.range 42).filter (fun u => s.unitOwner u == n) = l
  induction l generalizing s with
  | nil => exact h
  | cons u l ih => exact ih (hk.put_mem _ fun h => Memory.wf_memZero _ _ _ h) (Memory.wf_memZero _ _ _ h)
@[simp] theorem State.startCycle_keeps {w₀ : Bool} {s₀ : State} {s : State} (hk : Keeps w₀ s₀ s) : Keeps w₀ s₀
    (State.startCycle s) := by simp +contextual (maxDischargeDepth := 30) [State.startCycle, *]
@[simp] theorem State.lockRest_keeps {w₀ : Bool} {s₀ : State} (s : State) {s2 : State} (hk : Keeps w₀ s₀ s2) :
    Keeps w₀ s₀ (s.lockRest s2) := ⟨hk.mem, hk.pending, hk.otp, hk.locks, hk.sw⟩
/-- PANLOCK sets the lock it keeps. -/
@[simp] theorem State.lockNow_keeps {w₀ : Bool} {s₀ s : State} (hk : Keeps w₀ s₀ s) : Keeps w₀ s₀ s.lockNow := by
  have h1 : Keeps w₀ s₀ s.lockMailboxes.lockSlots := by simp [hk]
  have h2 : ∀ s1, Keeps w₀ s₀ s1 →
      Keeps w₀ s₀ (State.updSys s1 fun y => { y with panLock := true, scrub := true, allocErr := 0 }) :=
    fun s1 h => h.put_locks _ (.inl rfl) (.inr rfl) rfl
  exact State.lockRest_keeps s
    (keeps_foldl State.scrubPan ([1, 2, 3] : List (Fin 4)) (fun _ n h => State.scrubPan_keeps n h) (h2 _ h1))
@[simp] theorem State.panLockWrite_keeps {w₀ : Bool} {s₀ s : State} (hk : Keeps w₀ s₀ s) : Keeps w₀ s₀ s.panLockWrite := by
  have h1 : Keeps w₀ s₀ { s with sys := { s.sys with allocErr := BitVec.ofNat 3 s.allocCheck } } := hk.put_sys _ rfl rfl rfl
  unfold State.panLockWrite
  split
  · exact hk
  · split
    · exact State.startCycle_keeps (State.lockNow_keeps hk)
    · exact h1
@[simp] theorem State.resetThreads_keeps {w₀ : Bool} {s₀ : State} {s : State} (n : Fin 4) (hk : Keeps w₀ s₀ s) : Keeps
    w₀ s₀ (State.resetThreads s n) := by simp +contextual (maxDischargeDepth := 30) [State.resetThreads, *]
@[simp] theorem State.resetSources_keeps {w₀ : Bool} {s₀ : State} {s : State} (n : Fin 4) (hk : Keeps w₀ s₀ s) : Keeps
    w₀ s₀ (State.resetSources s n) := by simp +contextual (maxDischargeDepth := 30) [State.resetSources, *]
@[simp] theorem State.resetTimers_keeps {w₀ : Bool} {s₀ : State} {s : State} (n : Fin 4) (hk : Keeps w₀ s₀ s) : Keeps
    w₀ s₀ (State.resetTimers s n) := by simp +contextual (maxDischargeDepth := 30) [State.resetTimers, *]
@[simp] theorem State.resetEntries_keeps {w₀ : Bool} {s₀ : State} {s : State} (n : Fin 4) (hk : Keeps w₀ s₀ s) : Keeps
    w₀ s₀ (State.resetEntries s n) := by simp +contextual (maxDischargeDepth := 30) [State.resetEntries, *]
@[simp] theorem State.resetBridge_keeps {w₀ : Bool} {s₀ : State} {s : State} (n : Fin 4) (hk : Keeps w₀ s₀ s) : Keeps
    w₀ s₀ (State.resetBridge s n) := by simp +contextual (maxDischargeDepth := 30) [State.resetBridge, *]
@[simp] theorem State.resetPanRegs_keeps {w₀ : Bool} {s₀ : State} {s : State} (n : Fin 4) (tx : Nat) (rx : Nat) (hk :
    Keeps w₀ s₀ s) : Keeps w₀ s₀ (State.resetPanRegs s n tx rx) := by
  unfold State.resetPanRegs
  have h1 : ∀ f x, Keeps w₀ s₀ { s.updPan n f with flt := x } := fun f x => keeps_put_flt x (State.updPan_keeps n f hk)
  exact State.mapHosts_keeps _ (State.updSys_keeps _ rfl rfl rfl (h1 _ _))
@[simp] theorem State.panReset_keeps {w₀ : Bool} {s₀ : State} {s : State} (n : Fin 4) (hk : Keeps w₀ s₀ s) : Keeps w₀
    s₀ (State.panReset s n) := by simp +contextual (maxDischargeDepth := 30) [State.panReset, *]
@[simp] theorem State.panResetDone_keeps {w₀ : Bool} {s₀ : State} {s : State} (n : Fin 4) (hk : Keeps w₀ s₀ s) : Keeps
    w₀ s₀ (State.panResetDone s n) := by simp +contextual (maxDischargeDepth := 30) [State.panResetDone, *]
/-- A reset keeps memory's form, the queue and the OTP words. -/
@[simp] theorem State.resetWith_keeps {w₀ : Bool} {s₀ s : State} (cause : Nat) (hk : Keeps true s₀ s) :
    Keeps w₀ s₀ (s.resetWith cause) := ⟨fun _ => Memory.wf_nil, hk.pending, hk.otp, .inl rfl, .inr fun _ => rfl⟩
/-- The start-up sequence leaves the power state it starts from. -/
@[simp] theorem State.startUp_keeps {w₀ : Bool} {s : State} (bad : BitVec 16) : Keeps w₀ s (s.startUp bad) := by
  unfold State.startUp
  dsimp only
  split
  · exact .refl _ _
  · have h : Keeps w₀ s
      { s with otp := s.otp.read bad, mem := [], pow := { s.pow with state := .run, ready := true, pllLock := true }
               line := { s.line with addr := (s.otp.read bad).addr }, slu := { s.slu with waive := (s.otp.read bad).waive } } :=
      ⟨fun _ => Memory.wf_nil, rfl, rfl, .inr ⟨fun h => ⟨h, rfl⟩, id⟩, .inr id⟩
    repeat' split
    · exact State.settle_keeps (State.safeLatch_keeps _ (State.flushDeferred_keeps h))
    · exact State.settle_keeps (State.safeLatch_keeps _ (State.flushDeferred_keeps (State.setOtpErr_keeps h)))
    · exact State.settle_keeps (State.tryRelease_keeps (State.flushDeferred_keeps h))
    · exact State.settle_keeps (State.tryRelease_keeps (State.flushDeferred_keeps (State.setOtpErr_keeps h)))
@[simp] theorem State.releaseGasp_keeps {w₀ : Bool} {s₀ : State} {s : State} (hk : Keeps w₀ s₀ s) : Keeps w₀ s₀
    (State.releaseGasp s) := by
  simp only [State.releaseGasp]
  repeat' split
  all_goals simp +contextual (maxDischargeDepth := 30) [*]
@[simp] theorem State.warn_keeps {w₀ : Bool} {s₀ : State} {s : State} (hk : Keeps w₀ s₀ s) : Keeps w₀ s₀ (State.warn
    s) := by simp +contextual (maxDischargeDepth := 30) [State.warn, *]
@[simp] theorem State.supplyWarning_keeps {w₀ : Bool} {s₀ : State} {s : State} (hk : Keeps w₀ s₀ s) : Keeps w₀ s₀
    (State.supplyWarning s) := by
  unfold State.supplyWarning
  dsimp only
  repeat' split
  all_goals simp +contextual (maxDischargeDepth := 30) [*]
@[simp] theorem State.supplyGood_keeps {w₀ : Bool} {s₀ : State} {s : State} (hk : Keeps w₀ s₀ s) : Keeps w₀ s₀
    (State.supplyGood s) := by
  unfold State.supplyGood
  dsimp only
  repeat' split
  all_goals simp +contextual (maxDischargeDepth := 30) [*]
@[simp] theorem State.setNodrv_keeps {w₀ : Bool} {s₀ s : State} (b : Bool) (hk : Keeps w₀ s₀ s) : Keeps w₀ s₀
    (State.setNodrv s b) := by
  have h := State.updPow_keeps (fun p => { p with vdrvOk := !b }) rfl (State.updLine_keeps (fun l => { l with nodrv := b }) hk)
  unfold State.setNodrv
  dsimp only
  split
  · exact h
  · exact State.arrive_keeps _ h
@[simp] theorem State.loseVdrv_keeps {w₀ : Bool} {s₀ : State} {s : State} (hk : Keeps w₀ s₀ s) : Keeps w₀ s₀
    (State.loseVdrv s) := by
  unfold State.loseVdrv
  exact State.attemptEnd_keeps _ _ (State.updSlu_keeps _ (State.setNodrv_keeps _ hk))
@[simp] theorem State.gainVdrv_keeps {w₀ : Bool} {s₀ : State} {s : State} (hk : Keeps w₀ s₀ s) : Keeps w₀ s₀
    (State.gainVdrv s) := State.setNodrv_keeps _ hk
@[simp] theorem State.viaTap_keeps {w₀ : Bool} {s₀ s t : State} (hk : Keeps w₀ s₀ s) (ht : Keeps w₀ s₀ t) :
    Keeps w₀ s₀ (s.viaTap t) := by simp [State.viaTap, hk, ht]
@[simp] theorem State.catchEdge_keeps {w₀ : Bool} {s₀ : State} {s : State} (k : Nat) (hk : Keeps w₀ s₀ s) : Keeps w₀
    s₀ (State.catchEdge s k) := by simp +contextual (maxDischargeDepth := 30) [State.catchEdge, *]
@[simp] theorem State.safeInFalls_keeps {w₀ : Bool} {s₀ : State} {s : State} (hk : Keeps w₀ s₀ s) : Keeps w₀ s₀
    (State.safeInFalls s) := by simp +contextual (maxDischargeDepth := 30) [State.safeInFalls, *]
@[simp] theorem State.wakeEdge_keeps {w₀ : Bool} {s₀ : State} {s : State} (rising : Bool) (hk : Keeps w₀ s₀ s) : Keeps
    w₀ s₀ (State.wakeEdge s rising) := by simp +contextual (maxDischargeDepth := 30) [State.wakeEdge, *]
@[simp] theorem State.pinEdge_keeps {w₀ : Bool} {s₀ : State} {s : State} (n : Fin 8) (rising : Bool) (hk : Keeps w₀ s₀
    s) : Keeps w₀ s₀ (State.pinEdge s n rising) := by simp +contextual (maxDischargeDepth := 30) [State.pinEdge, *]
@[simp] theorem State.calPeriods_keeps {w₀ : Bool} {s₀ : State} {s : State} (old : Nat) (secs : Nat) (hk : Keeps w₀ s₀
    s) : Keeps w₀ s₀ (State.calPeriods s old secs) := by simp +contextual (maxDischargeDepth := 30) [State.calPeriods, *]
@[simp] theorem State.tideAdvance_keeps {w₀ : Bool} {s₀ : State} {s : State} (n : Nat) (hk : Keeps w₀ s₀ s) : Keeps w₀
    s₀ (State.tideAdvance s n).2 := by
  unfold State.tideAdvance
  dsimp only
  repeat' split
  all_goals simp +contextual (maxDischargeDepth := 30) [*]
@[simp] theorem State.requestRest_keeps {w₀ : Bool} {s₀ : State} {s : State} (req : Nat) (hk : Keeps w₀ s₀ s) : Keeps
    w₀ s₀ (State.requestRest s req) := by
  simp only [State.requestRest]
  repeat' split
  all_goals simp +contextual (maxDischargeDepth := 30) [*]
@[simp] theorem State.enterRest_keeps {w₀ : Bool} {s₀ s : State} (hk : Keeps w₀ s₀ s) : Keeps w₀ s₀ s.enterRest := by
  unfold State.enterRest
  split
  · exact hk
  · dsimp only
    split
    · exact hk
    · split
      · simp [hk]
      next hm _ =>
      have hr : s.fixGates.pow.state ≠ .reset := by
        intro h
        have h' : s.pow.state = .reset := h
        simp [State.mayRest, State.coreRuns, h'] at hm
      have h1 := (State.fixGates_keeps hk).put_state hr
      simp only [State.updPow]
      simp [h1]
@[simp] theorem State.flushLatches_keeps {w₀ : Bool} {s₀ : State} {s : State} (hk : Keeps w₀ s₀ s) : Keeps w₀ s₀
    (State.flushLatches s) := by simp +contextual (maxDischargeDepth := 30) [State.flushLatches, *]
@[simp] theorem State.flushWarning_keeps {w₀ : Bool} {s₀ : State} {s : State} (hk : Keeps w₀ s₀ s) : Keeps w₀ s₀
    (State.flushWarning s) := by
  unfold State.flushWarning
  dsimp only
  repeat' split
  all_goals simp +contextual (maxDischargeDepth := 30) [*]
@[simp] theorem State.flushWakes_keeps {w₀ : Bool} {s₀ : State} {s : State} (hk : Keeps w₀ s₀ s) : Keeps w₀ s₀
    (State.flushWakes s) := by simp +contextual (maxDischargeDepth := 30) [State.flushWakes, *]
@[simp] theorem State.fillBuckets_keeps {w₀ : Bool} {s₀ : State} {s : State} (hk : Keeps w₀ s₀ s) : Keeps w₀ s₀
    (State.fillBuckets s) := by simp +contextual (maxDischargeDepth := 30) [State.fillBuckets, *]
@[simp] theorem State.portsWait_keeps {w₀ : Bool} {s₀ : State} {s : State} (hk : Keeps w₀ s₀ s) : Keeps w₀ s₀
    (State.portsWait s) := by simp +contextual (maxDischargeDepth := 30) [State.portsWait, *]
@[simp] theorem State.makeUp_keeps {w₀ : Bool} {s₀ : State} {s : State} (iv : Interval) (wait : Bool) (hk : Keeps w₀
    s₀ s) : Keeps w₀ s₀ (State.makeUp s iv wait) := by
  unfold State.makeUp
  dsimp only
  have h := State.flushDeferred_keeps (State.updPow_keeps (fun p => { p with aon := p.aon + iv.cycles }) rfl
    (State.updEng_keeps (fun e => { e with tnow := e.tnow + BitVec.ofNat 64 iv.cycles }) hk))
  have h4 (k : Nat) := keeps_foldl (fun t n => t.timMakeup n iv k) (List.finRange 8)
    (fun _ n ht => State.timMakeup_keeps n iv k ht) (State.tideAdvance_keeps iv.cycles h)
  have h6 (k : Nat) := State.flushWarning_keeps (State.flushLatches_keeps (State.startCycle_keeps (State.fillBuckets_keeps (h4 k))))
  refine State.settle_keeps (State.flushWakes_keeps (State.schMoved_keeps ?_))
  split
  · exact State.portsWait_keeps (h6 _)
  · exact h6 _
@[simp] theorem State.flushBurst_keeps {w₀ : Bool} {s₀ s : State} (hk : Keeps w₀ s₀ s) : Keeps w₀ s₀ (State.flushBurst
    s) := by
  simp +contextual (maxDischargeDepth := 30) [State.flushBurst, *]
@[simp] theorem State.wake_keeps {w₀ : Bool} {s₀ s : State} (cause : BitVec 7) (iv : Interval) (hk : Keeps w₀ s₀ s) :
    Keeps w₀ s₀ (s.wake cause iv) := by
  unfold State.wake
  dsimp only
  split
  · next h =>
    have h1 := hk.put_state (by simp [h])
    simp only [State.updPow]
    simp [h1]
  · next h =>
    have h1 := hk.put_state (by simp [h])
    simp only [State.updPow]
    simp [h1]
  · exact hk
@[simp] theorem State.cutFrame_keeps {w₀ : Bool} {s₀ : State} {s : State} (port : LinePort) (hk : Keeps w₀ s₀ s) :
    Keeps w₀ s₀ (State.cutFrame s port) := by
  simp only [State.cutFrame]
  repeat' split
  all_goals simp +contextual (maxDischargeDepth := 30) [*]
@[simp] theorem State.losePll_keeps {w₀ : Bool} {s₀ : State} {s : State} (hk : Keeps w₀ s₀ s) : Keeps w₀ s₀
    (State.losePll s) := by simp +contextual (maxDischargeDepth := 30) [State.losePll, *]
@[simp] theorem State.relock_keeps {w₀ : Bool} {s₀ : State} {s : State} (iv : Interval) (hk : Keeps w₀ s₀ s) : Keeps
    w₀ s₀ (State.relock s iv) := by simp +contextual (maxDischargeDepth := 30) [State.relock, *]
@[simp] theorem State.crystal_keeps {w₀ : Bool} {s₀ : State} {s : State} (on : Bool) (hk : Keeps w₀ s₀ s) : Keeps w₀
    s₀ (State.crystal s on) := by simp +contextual (maxDischargeDepth := 30) [State.crystal, *]
@[simp] theorem State.clkCtlWrite_keeps {w₀ : Bool} {s₀ : State} {s : State} (v : Word) (hk : Keeps w₀ s₀ s) : Keeps
    w₀ s₀ (State.clkCtlWrite s v) := by simp +contextual (maxDischargeDepth := 30) [State.clkCtlWrite, *]
@[simp] theorem State.calibrate_keeps {w₀ : Bool} {s₀ : State} {s : State} (ppm : Int) (hk : Keeps w₀ s₀ s) : Keeps w₀
    s₀ (State.calibrate s ppm) := by simp +contextual (maxDischargeDepth := 30) [State.calibrate, *]
@[simp] theorem State.kick_keeps {w₀ : Bool} {s₀ : State} {s : State} (hk : Keeps w₀ s₀ s) : Keeps w₀ s₀ (State.kick
    s) := by simp +contextual (maxDischargeDepth := 30) [State.kick, *]
@[simp] theorem State.tapHold_keeps {w₀ : Bool} {s₀ s : State} (on : Bool) (hk : Keeps w₀ s₀ s) : Keeps w₀ s₀ (s.tapHold on) := by
  have h1 := State.resetWith_keeps (w₀ := w₀) rcPin hk.weaken
  unfold State.tapHold
  split
  · exact h1.put_pow _ rfl
  · exact hk.put_pow _ rfl
@[simp] theorem State.readEffect_keeps {w₀ : Bool} {s₀ : State} {s : State} (p : Party) (r : Rg) (hk : Keeps w₀ s₀ s)
    : Keeps w₀ s₀ (State.readEffect s p r) := by
  unfold State.readEffect
  dsimp only
  repeat' split
  all_goals simp +contextual (maxDischargeDepth := 30) [*]
@[simp] theorem State.claimRead_keeps {w₀ : Bool} {s₀ : State} {s : State} (p : Party) (via : Via) (h : HostPort) (hk
    : Keeps w₀ s₀ s) : Keeps w₀ s₀ (State.claimRead s p via h).2 := by
  simp only [State.claimRead]
  repeat' split
  all_goals simp +contextual (maxDischargeDepth := 30) [*]
@[simp] theorem State.streamRead_keeps {w₀ : Bool} {s₀ : State} {s : State} (p : Party) (r : Rg) (hk : Keeps w₀ s₀ s)
    : Keeps w₀ s₀ (State.streamRead s p r).2 := by
  unfold State.streamRead
  dsimp only
  repeat' split
  all_goals simp +contextual (maxDischargeDepth := 30) [*]
@[simp] theorem State.regRead_keeps {w₀ : Bool} {s₀ : State} {s : State} (p : Party) (via : Via) (r : Rg) (hk : Keeps
    w₀ s₀ s) : Keeps w₀ s₀ (State.regRead s p via r).2 := by
  simp only [State.regRead]
  repeat' split
  all_goals simp +contextual (maxDischargeDepth := 30) [*]
@[simp] theorem State.applyLine_keeps {w₀ : Bool} {s₀ s : State} (k : ShKey) (f : Line → Line) (hk : Keeps w₀ s₀ s) :
    Keeps w₀ s₀ (State.applyLine s k f) := by
  simp +contextual (maxDischargeDepth := 30) [State.applyLine, *]
@[simp] theorem State.setBtErr_keeps {w₀ : Bool} {s₀ s : State} (hk : Keeps w₀ s₀ s) : Keeps w₀ s₀ (State.setBtErr s)
    := by
  simp +contextual (maxDischargeDepth := 30) [State.setBtErr, *]
@[simp] theorem State.applyPairBt_keeps {w₀ : Bool} {s₀ : State} {s : State} (hk : Keeps w₀ s₀ s) : Keeps w₀ s₀
    (State.applyPairBt s) := by
  unfold State.applyPairBt
  dsimp only
  repeat' split
  all_goals simp +contextual (maxDischargeDepth := 30) [*]
@[simp] theorem State.applyPairDbt_keeps {w₀ : Bool} {s₀ : State} {s : State} (hk : Keeps w₀ s₀ s) : Keeps w₀ s₀
    (State.applyPairDbt s) := by
  unfold State.applyPairDbt
  dsimp only
  repeat' split
  all_goals simp +contextual (maxDischargeDepth := 30) [*]
@[simp] theorem State.applyBudget_keeps {w₀ : Bool} {s₀ : State} {s : State} (n : Fin 4) (hk : Keeps w₀ s₀ s) : Keeps
    w₀ s₀ (State.applyBudget s n) := by
  unfold State.applyBudget
  dsimp only
  repeat' split
  all_goals simp +contextual (maxDischargeDepth := 30) [*]
@[simp] theorem State.millisecond_keeps {w₀ : Bool} {s₀ : State} {s : State} (hk : Keeps w₀ s₀ s) : Keeps w₀ s₀
    (State.millisecond s) := by simp +contextual (maxDischargeDepth := 30) [State.millisecond, *]
@[simp] theorem State.applyShadow_keeps {w₀ : Bool} {s₀ : State} {s : State} (x : Shadow) (hk : Keeps w₀ s₀ s) : Keeps
    w₀ s₀ (State.applyShadow s x) := by
  simp only [State.applyShadow]
  repeat' split
  all_goals simp +contextual (maxDischargeDepth := 30) [*]
@[simp] theorem State.portUp_keeps {w₀ : Bool} {s₀ : State} {s : State} (port : LinePort) (hk : Keeps w₀ s₀ s) : Keeps
    w₀ s₀ (State.portUp s port) := by simp +contextual (maxDischargeDepth := 30) [State.portUp, *]
@[simp] theorem State.enablePlc_keeps {w₀ : Bool} {s₀ : State} {s : State} (hk : Keeps w₀ s₀ s) : Keeps w₀ s₀
    (State.enablePlc s) := by simp +contextual (maxDischargeDepth := 30) [State.enablePlc, *]
@[simp] theorem State.enablePair_keeps {w₀ : Bool} {s₀ : State} {s : State} (hk : Keeps w₀ s₀ s) : Keeps w₀ s₀
    (State.enablePair s) := by simp +contextual (maxDischargeDepth := 30) [State.enablePair, *]
@[simp] theorem State.disablePort_keeps {w₀ : Bool} {s₀ : State} {s : State} (port : LinePort) (hk : Keeps w₀ s₀ s) :
    Keeps w₀ s₀ (State.disablePort s port) := by
  unfold State.disablePort
  dsimp only
  repeat' split
  all_goals simp +contextual (maxDischargeDepth := 30) [*]
@[simp] theorem State.setPlcEn_keeps {w₀ : Bool} {s₀ : State} {s : State} (on : Bool) (hk : Keeps w₀ s₀ s) : Keeps w₀
    s₀ (State.setPlcEn s on) := by simp +contextual (maxDischargeDepth := 30) [State.setPlcEn, *]
@[simp] theorem State.setPairEn_keeps {w₀ : Bool} {s₀ : State} {s : State} (on : Bool) (hk : Keeps w₀ s₀ s) : Keeps w₀
    s₀ (State.setPairEn s on) := by simp +contextual (maxDischargeDepth := 30) [State.setPairEn, *]
@[simp] theorem State.setSearch_keeps {w₀ : Bool} {s₀ : State} {s : State} (on : Bool) (hk : Keeps w₀ s₀ s) : Keeps w₀
    s₀ (State.setSearch s on) := by simp +contextual (maxDischargeDepth := 30) [State.setSearch, *]
@[simp] theorem State.setPlcRates_keeps {w₀ : Bool} {s₀ : State} {s : State} (v : Nat) (hk : Keeps w₀ s₀ s) : Keeps w₀
    s₀ (State.setPlcRates s v) := by simp +contextual (maxDischargeDepth := 30) [State.setPlcRates, *]
@[simp] theorem State.keyFailAt_keeps {w₀ : Bool} {s₀ : State} {s : State} (sc : Fin 5) (hk : Keeps w₀ s₀ s) : Keeps
    w₀ s₀ (State.keyFailAt s sc) := by simp +contextual (maxDischargeDepth := 30) [State.keyFailAt, *]
@[simp] theorem State.setKey_keeps {w₀ : Bool} {s₀ : State} {s : State} (sc : Fin 5) (p : Party) (on : Bool) (hk :
    Keeps w₀ s₀ s) : Keeps w₀ s₀ (State.setKey s sc p on) := by simp +contextual (maxDischargeDepth := 30) [State.setKey, *]
@[simp] theorem State.writeKey_keeps {w₀ : Bool} {s₀ : State} {s : State} (p : Party) (sc : Fin 5) (v : Word) (hk :
    Keeps w₀ s₀ s) : Keeps w₀ s₀ (State.writeKey s p sc v) := by simp +contextual (maxDischargeDepth := 30) [State.writeKey, *]
@[simp] theorem State.writeLock_keeps {w₀ : Bool} {s₀ s : State} (v : Word) (hk : Keeps w₀ s₀ s) :
    Keeps w₀ s₀ (s.writeLock v) := by
  have h1 : Keeps w₀ s₀ (s.updSys fun y => { y with dbgLock := true }) := hk.put_locks _ (.inr rfl) (.inl rfl) rfl
  unfold State.writeLock
  dsimp only
  repeat' split
  all_goals simp [hk, h1]
@[simp] theorem State.clearFaults_keeps {w₀ : Bool} {s₀ : State} {s : State} (v : Word) (hk : Keeps w₀ s₀ s) : Keeps
    w₀ s₀ (State.clearFaults s v) := by simp +contextual (maxDischargeDepth := 30) [State.clearFaults, *]
@[simp] theorem State.panResets_keeps {w₀ : Bool} {s₀ : State} {s : State} (v : Word) (hk : Keeps w₀ s₀ s) : Keeps w₀
    s₀ (State.panResets s v) := by simp +contextual (maxDischargeDepth := 30) [State.panResets, *]
@[simp] theorem State.writeThld_keeps {w₀ : Bool} {s₀ : State} {s : State} (v : Word) (hk : Keeps w₀ s₀ s) : Keeps w₀
    s₀ (State.writeThld s v) := by
  simp only [State.writeThld]
  repeat' split
  all_goals simp +contextual (maxDischargeDepth := 30) [*]
@[simp] theorem State.writeSluCtl_keeps {w₀ : Bool} {s₀ : State} {s : State} (v : Word) (hk : Keeps w₀ s₀ s) : Keeps
    w₀ s₀ (State.writeSluCtl s v) := by simp +contextual (maxDischargeDepth := 30) [State.writeSluCtl, *]
@[simp] theorem State.writePanSlu_keeps {w₀ : Bool} {s₀ : State} {s : State} (v : Word) (hk : Keeps w₀ s₀ s) : Keeps
    w₀ s₀ (State.writePanSlu s v) := by simp +contextual (maxDischargeDepth := 30) [State.writePanSlu, *]
@[simp] theorem State.writeLineCtl_keeps {w₀ : Bool} {s₀ : State} {s : State} (v : Word) (hk : Keeps w₀ s₀ s) : Keeps
    w₀ s₀ (State.writeLineCtl s v) := by simp +contextual (maxDischargeDepth := 30) [State.writeLineCtl, *]
@[simp] theorem State.writeAddr_keeps {w₀ : Bool} {s₀ : State} {s : State} (v : Word) (hk : Keeps w₀ s₀ s) : Keeps w₀
    s₀ (State.writeAddr s v) := by simp +contextual (maxDischargeDepth := 30) [State.writeAddr, *]
@[simp] theorem State.writeRollslot_keeps {w₀ : Bool} {s₀ : State} {s : State} (v : Word) (hk : Keeps w₀ s₀ s) : Keeps
    w₀ s₀ (State.writeRollslot s v) := by simp +contextual (maxDischargeDepth := 30) [State.writeRollslot, *]
@[simp] theorem State.writePlcCtl_keeps {w₀ : Bool} {s₀ : State} {s : State} (v : Word) (hk : Keeps w₀ s₀ s) : Keeps
    w₀ s₀ (State.writePlcCtl s v) := by simp +contextual (maxDischargeDepth := 30) [State.writePlcCtl, *]
@[simp] theorem State.writePairCtl_keeps {w₀ : Bool} {s₀ : State} {s : State} (v : Word) (hk : Keeps w₀ s₀ s) : Keeps
    w₀ s₀ (State.writePairCtl s v) := by simp +contextual (maxDischargeDepth := 30) [State.writePairCtl, *]
@[simp] theorem State.writePairBt_keeps {w₀ : Bool} {s₀ : State} {s : State} (v : Word) (hk : Keeps w₀ s₀ s) : Keeps
    w₀ s₀ (State.writePairBt s v) := by simp +contextual (maxDischargeDepth := 30) [State.writePairBt, *]
@[simp] theorem State.writePairDbt_keeps {w₀ : Bool} {s₀ : State} {s : State} (v : Word) (hk : Keeps w₀ s₀ s) : Keeps
    w₀ s₀ (State.writePairDbt s v) := by simp +contextual (maxDischargeDepth := 30) [State.writePairDbt, *]
@[simp] theorem State.writeTideCtl_keeps {w₀ : Bool} {s₀ : State} {s : State} (v : Word) (hk : Keeps w₀ s₀ s) : Keeps
    w₀ s₀ (State.writeTideCtl s v) := by simp +contextual (maxDischargeDepth := 30) [State.writeTideCtl, *]
@[simp] theorem State.clearTideErr_keeps {w₀ : Bool} {s₀ : State} {s : State} (via : Via) (v : Word) (hk : Keeps w₀ s₀
    s) : Keeps w₀ s₀ (State.clearTideErr s via v) := by
  simp only [State.clearTideErr]
  repeat' split
  all_goals simp +contextual (maxDischargeDepth := 30) [*]
@[simp] theorem State.writeOffs_keeps {w₀ : Bool} {s₀ : State} {s : State} (via : Via) (v : Word) (hk : Keeps w₀ s₀ s)
    : Keeps w₀ s₀ (State.writeOffs s via v) := by simp +contextual (maxDischargeDepth := 30) [State.writeOffs, *]
@[simp] theorem State.writeRate_keeps {w₀ : Bool} {s₀ : State} {s : State} (via : Via) (v : Word) (hk : Keeps w₀ s₀ s)
    : Keeps w₀ s₀ (State.writeRate s via v) := by simp +contextual (maxDischargeDepth := 30) [State.writeRate, *]
@[simp] theorem State.writePeriod_keeps {w₀ : Bool} {s₀ : State} {s : State} (via : Via) (v : Word) (hk : Keeps w₀ s₀
    s) : Keeps w₀ s₀ (State.writePeriod s via v) := by simp +contextual (maxDischargeDepth := 30) [State.writePeriod, *]
@[simp] theorem State.writeKeeper_keeps {w₀ : Bool} {s₀ : State} {s : State} (via : Via) (v : Word) (hk : Keeps w₀ s₀
    s) : Keeps w₀ s₀ (State.writeKeeper s via v) := by simp +contextual (maxDischargeDepth := 30) [State.writeKeeper, *]
@[simp] theorem State.writeAdoptlim_keeps {w₀ : Bool} {s₀ : State} {s : State} (v : Word) (hk : Keeps w₀ s₀ s) : Keeps
    w₀ s₀ (State.writeAdoptlim s v) := by simp +contextual (maxDischargeDepth := 30) [State.writeAdoptlim, *]
@[simp] theorem State.clearCal_keeps {w₀ : Bool} {s₀ : State} {s : State} (via : Via) (v : Word) (hk : Keeps w₀ s₀ s)
    : Keeps w₀ s₀ (State.clearCal s via v) := by
  simp only [State.clearCal]
  repeat' split
  all_goals simp +contextual (maxDischargeDepth := 30) [*]
@[simp] theorem State.writeAlloc_keeps {w₀ : Bool} {s₀ s : State} (k : Fin 48) (v : Word) (hk : Keeps w₀ s₀ s) :
    Keeps w₀ s₀ (s.writeAlloc k v) := by
  unfold State.writeAlloc
  split
  · simp [hk]
  · next h =>
    have h1 := hk.put_alloc (by simpa using h)
    dsimp only
    split <;> simp [h1]
@[simp] theorem State.writeTim_keeps {w₀ : Bool} {s₀ : State} {s : State} (p : Party) (via : Via) (n : Fin 8) (w : Fin
    8) (v : Word) (hk : Keeps w₀ s₀ s) : Keeps w₀ s₀ (State.writeTim s p via n w v) := by
  simp only [State.writeTim]
  repeat' split
  all_goals simp +contextual (maxDischargeDepth := 30) [*]
@[simp] theorem State.writeGo_keeps {w₀ : Bool} {s₀ : State} {s : State} (hk : Keeps w₀ s₀ s) : Keeps w₀ s₀
    (State.writeGo s) := by simp +contextual (maxDischargeDepth := 30) [State.writeGo, *]
@[simp] theorem State.writeEngCtl_keeps {w₀ : Bool} {s₀ : State} {s : State} (v : Word) (hk : Keeps w₀ s₀ s) : Keeps
    w₀ s₀ (State.writeEngCtl s v) := by simp +contextual (maxDischargeDepth := 30) [State.writeEngCtl, *]
@[simp] theorem State.haltWrite_keeps {w₀ : Bool} {s₀ : State} {s : State} (t : Fin 8) (hk : Keeps w₀ s₀ s) : Keeps w₀
    s₀ (State.haltWrite s t) := by simp +contextual (maxDischargeDepth := 30) [State.haltWrite, *]
@[simp] theorem State.writeTctl_keeps {w₀ : Bool} {s₀ : State} {s : State} (t : Fin 8) (v : Word) (hk : Keeps w₀ s₀ s)
    : Keeps w₀ s₀ (State.writeTctl s t v) := by
  unfold State.writeTctl
  dsimp only
  repeat' split
  all_goals simp +contextual (maxDischargeDepth := 30) [*]
@[simp] theorem State.writeTpc_keeps {w₀ : Bool} {s₀ : State} {s : State} (t : Fin 8) (v : Word) (hk : Keeps w₀ s₀ s)
    : Keeps w₀ s₀ (State.writeTpc s t v) := by simp +contextual (maxDischargeDepth := 30) [State.writeTpc, *]
@[simp] theorem State.unwindBy_keeps {w₀ : Bool} {s₀ : State} {s : State} (p : Party) (h : HostPort) (hk : Keeps w₀ s₀
    s) : Keeps w₀ s₀ (State.unwindBy s p h) := by simp +contextual (maxDischargeDepth := 30) [State.unwindBy, *]
@[simp] theorem State.writeIcCtl_keeps {w₀ : Bool} {s₀ : State} {s : State} (p : Party) (v : Word) (hk : Keeps w₀ s₀
    s) : Keeps w₀ s₀ (State.writeIcCtl s p v) := by simp +contextual (maxDischargeDepth := 30) [State.writeIcCtl, *]
@[simp] theorem State.clearOrd_keeps {w₀ : Bool} {s₀ : State} {s : State} (h : HostPort) (on : Bool) (hk : Keeps w₀ s₀
    s) : Keeps w₀ s₀ (State.clearOrd s h on) := by simp +contextual (maxDischargeDepth := 30) [State.clearOrd, *]
@[simp] theorem State.writeIcThld_keeps {w₀ : Bool} {s₀ : State} {s : State} (via : Via) (h : HostPort) (v : Word) (hk
    : Keeps w₀ s₀ s) : Keeps w₀ s₀ (State.writeIcThld s via h v) := by simp +contextual (maxDischargeDepth := 30) [State.writeIcThld, *]
@[simp] theorem State.writeIcDone_keeps {w₀ : Bool} {s₀ : State} {s : State} (p : Party) (via : Via) (h : HostPort) (v
    : Word) (hk : Keeps w₀ s₀ s) : Keeps w₀ s₀ (State.writeIcDone s p via h v) := by simp +contextual (maxDischargeDepth := 30) [State.writeIcDone, *]
@[simp] theorem State.writeHold_keeps {w₀ : Bool} {s₀ : State} {s : State} (g : Fin 8) (v : Word) (hk : Keeps w₀ s₀ s)
    : Keeps w₀ s₀ (State.writeHold s g v) := by simp +contextual (maxDischargeDepth := 30) [State.writeHold, *]
@[simp] theorem State.writePrio_keeps {w₀ : Bool} {s₀ : State} {s : State} (w : Fin 16) (v : Word) (hk : Keeps w₀ s₀
    s) : Keeps w₀ s₀ (State.writePrio s w v) := by simp +contextual (maxDischargeDepth := 30) [State.writePrio, *]
@[simp] theorem State.writeMask_keeps {w₀ : Bool} {s₀ : State} {s : State} (k : Fin 128) (new : BitVec 10) (hk : Keeps
    w₀ s₀ s) : Keeps w₀ s₀ (State.writeMask s k new).2 := by simp +contextual (maxDischargeDepth := 30) [State.writeMask, *]
@[simp] theorem State.writeGroup_keeps {w₀ : Bool} {s₀ : State} {s : State} (k : Fin 128) (hg : Option (BitVec 3)) (on
    : Bool) (hk : Keeps w₀ s₀ s) : Keeps w₀ s₀ (State.writeGroup s k hg on).2 := by
  simp only [State.writeGroup]
  repeat' split
  all_goals simp +contextual (maxDischargeDepth := 30) [*]
@[simp] theorem State.writeTgtHalf_keeps {w₀ : Bool} {s₀ : State} {s : State} (k : Nat) (v : Nat) (hk : Keeps w₀ s₀ s)
    : Keeps w₀ s₀ (State.writeTgtHalf s k v) := by simp +contextual (maxDischargeDepth := 30) [State.writeTgtHalf, *]
@[simp] theorem State.writeTgt_keeps {w₀ : Bool} {s₀ : State} {s : State} (w : Fin 64) (v : Word) (hk : Keeps w₀ s₀ s)
    : Keeps w₀ s₀ (State.writeTgt s w v) := by simp +contextual (maxDischargeDepth := 30) [State.writeTgt, *]
@[simp] theorem State.writeIcSrc_keeps {w₀ : Bool} {s₀ : State} {s : State} (p : Party) (n : Fin 4) (v : Word) (hk :
    Keeps w₀ s₀ s) : Keeps w₀ s₀ (State.writeIcSrc s p n v) := by
  unfold State.writeIcSrc
  dsimp only
  repeat' split
  all_goals simp +contextual (maxDischargeDepth := 30) [*]
@[simp] theorem State.writeSel_keeps {w₀ : Bool} {s₀ : State} {s : State} (p : Party) (n : Fin 4) (v : Word) (hk :
    Keeps w₀ s₀ s) : Keeps w₀ s₀ (State.writeSel s p n v) := by
  unfold State.writeSel
  dsimp only
  repeat' split
  all_goals simp +contextual (maxDischargeDepth := 30) [*]
@[simp] theorem State.writePanCtl_keeps {w₀ : Bool} {s₀ : State} {s : State} (p : Party) (n : Fin 4) (v : Word) (hk :
    Keeps w₀ s₀ s) : Keeps w₀ s₀ (State.writePanCtl s p n v) := by simp +contextual (maxDischargeDepth := 30) [State.writePanCtl, *]
@[simp] theorem State.writeBudget_keeps {w₀ : Bool} {s₀ : State} {s : State} (n : Fin 4) (v : Word) (hk : Keeps w₀ s₀
    s) : Keeps w₀ s₀ (State.writeBudget s n v) := by simp +contextual (maxDischargeDepth := 30) [State.writeBudget, *]
@[simp] theorem State.writeFilter_keeps {w₀ : Bool} {s₀ : State} {s : State} (p : Party) (k : Fin 128) (w : Fin 4) (v
    : Word) (hk : Keeps w₀ s₀ s) : Keeps w₀ s₀ (State.writeFilter s p k w v) := by simp +contextual (maxDischargeDepth := 30) [State.writeFilter, *]
/-- A register write may ask for a software reset. -/
@[simp] theorem State.putSys_keeps {s₀ s : State} (p : Party) (via : Via) (r : Rg) (v : Word) (hk : Keeps true s₀ s) :
    Keeps true s₀ (State.putSys s p via r v) := by
  have h1 : Keeps true s₀ (s.updSys fun y => { y with swPend := true }) := ⟨hk.mem, hk.pending, hk.otp, hk.locks, .inl rfl⟩
  unfold State.putSys
  split
  all_goals simp +contextual (maxDischargeDepth := 30) [hk, h1]
@[simp] theorem State.putEng_keeps {w₀ : Bool} {s₀ : State} {s : State} (p : Party) (via : Via) (r : Rg) (v : Word)
    (hk : Keeps w₀ s₀ s) : Keeps w₀ s₀ (State.putEng s p via r v) := by
  simp only [State.putEng]
  repeat' split
  all_goals simp +contextual (maxDischargeDepth := 30) [*]
@[simp] theorem State.putWin_keeps {w₀ : Bool} {s₀ s : State} (p : Party) (r : Rg) (v : Word) (hk : Keeps w₀ s₀ s) :
    Keeps w₀ s₀ (s.putWin p r v) := by
  unfold State.putWin
  split
  all_goals simp +contextual (maxDischargeDepth := 30) [hk]
@[simp] theorem State.putReg1_keeps {s₀ : State} {s : State} (p : Party) (via : Via) (r : Rg) (v : Word) (hk : Keeps
    true s₀ s) : Keeps true s₀ (State.putReg1 s p via r v) := by simp +contextual (maxDischargeDepth := 30) [State.putReg1, *]
@[simp] theorem State.mendParity_keeps {w₀ : Bool} {s₀ : State} {s : State} (r : Rg) (hk : Keeps w₀ s₀ s) : Keeps w₀
    s₀ (State.mendParity s r) := by simp +contextual (maxDischargeDepth := 30) [State.mendParity, *]
@[simp] theorem State.putChecked_keeps {s₀ : State} {s : State} (p : Party) (via : Via) (r : Rg) (v : Word) (hk :
    Keeps true s₀ s) : Keeps true s₀ (State.putChecked s p via r v) := by simp +contextual (maxDischargeDepth := 30) [State.putChecked, *]
@[simp] theorem State.writeKeyed_keeps {s₀ : State} {s : State} (p : Party) (via : Via) (r : Rg) (v : Word) (hk :
    Keeps true s₀ s) : Keeps true s₀ (State.writeKeyed s p via r v).2 := by
  unfold State.writeKeyed
  dsimp only
  repeat' split
  all_goals simp +contextual (maxDischargeDepth := 30) [*]
@[simp] theorem State.regWrite_keeps {s₀ : State} {s : State} (p : Party) (via : Via) (r : Rg) (v : Word) (hk : Keeps
    true s₀ s) : Keeps true s₀ (State.regWrite s p via r v).2 := by
  simp only [State.regWrite]
  repeat' split
  all_goals simp +contextual (maxDischargeDepth := 30) [*]
@[simp] theorem State.aliasPlcCtl_keeps {w₀ : Bool} {s₀ : State} {s : State} (b : Nat) (v : Bool) (hk : Keeps w₀ s₀ s)
    : Keeps w₀ s₀ (State.aliasPlcCtl s b v) := by
  unfold State.aliasPlcCtl
  dsimp only
  repeat' split
  all_goals simp +contextual (maxDischargeDepth := 30) [*]
@[simp] theorem State.aliasTimCtl_keeps {w₀ : Bool} {s₀ : State} {s : State} (n : Fin 8) (via : Via) (b : Nat) (v :
    Bool) (hk : Keeps w₀ s₀ s) : Keeps w₀ s₀ (State.aliasTimCtl s n via b v) := by simp +contextual (maxDischargeDepth := 30) [State.aliasTimCtl, *]
@[simp] theorem State.aliasPut_keeps {s₀ : State} {s : State} (p : Party) (via : Via) (r : Rg) (b : Nat) (v : Bool)
    (hk : Keeps true s₀ s) : Keeps true s₀ (State.aliasPut s p via r b v) := by
  unfold State.aliasPut
  dsimp only
  repeat' split
  all_goals simp +contextual (maxDischargeDepth := 30) [*]
@[simp] theorem State.aliasWrite_keeps {s₀ : State} {s : State} (p : Party) (via : Via) (r : Rg) (b : Nat) (v : Bool)
    (hk : Keeps true s₀ s) : Keeps true s₀ (State.aliasWrite s p via r b v).2 := by
  unfold State.aliasWrite
  dsimp only
  repeat' split
  all_goals simp +contextual (maxDischargeDepth := 30) [*]
@[simp] theorem State.authEnd_keeps {w₀ : Bool} {s₀ : State} {s : State} (hk : Keeps w₀ s₀ s) : Keeps w₀ s₀
    (State.authEnd s) := by simp +contextual (maxDischargeDepth := 30) [State.authEnd, *]
@[simp] theorem State.hostDenied_keeps {w₀ : Bool} {s₀ : State} {s : State} (s0 : State) (h : HostPort) (hk : Keeps w₀
    s₀ s) : Keeps w₀ s₀ (State.hostDenied s s0 h) := by simp +contextual (maxDischargeDepth := 30) [State.hostDenied, *]
@[simp] theorem State.fetchOpen_keeps {w₀ : Bool} {s₀ s : State} (p : Party) (via : Via) (r : Rg) (hk : Keeps w₀ s₀ s)
    : Keeps w₀ s₀ (State.fetchOpen s p via r).2 := by
  unfold State.fetchOpen
  repeat' split
  all_goals simp +contextual (maxDischargeDepth := 30) [*]
@[simp] theorem State.fetchAt_keeps {w₀ : Bool} {s₀ : State} {s : State} (p : Party) (via : Via) (r : Rg) (k : Nat)
    (take : Bool) (hk : Keeps w₀ s₀ s) : Keeps w₀ s₀ (State.fetchAt s p via r k take).2.2 := by
  simp (maxDischargeDepth := 30) [State.fetchAt, hk]
@[simp] theorem State.hostRegRead_keeps {w₀ : Bool} {s₀ : State} {s : State} (h : HostPort) (burst : Bool) (via : Via)
    (r : Rg) (hk : Keeps w₀ s₀ s) : Keeps w₀ s₀ (State.hostRegRead s h burst via r).2.2 := by
  unfold State.hostRegRead
  dsimp only
  repeat' split
  all_goals simp +contextual (maxDischargeDepth := 30) [*]
@[simp] theorem State.readAs_keeps {w₀ : Bool} {s₀ s : State} (r : Right) (pans : List (Fin 4)) (h : HostPort) (burst
    : Bool) (a : Nat) (hk : Keeps w₀ s₀ s) : Keeps w₀ s₀ (State.readAs s r pans h burst a).2.2 := by
  unfold State.readAs
  repeat' split
  all_goals simp +contextual (maxDischargeDepth := 30) [*]
@[simp] theorem State.hostReadWord_keeps {w₀ : Bool} {s₀ : State} (s0 : State) (h : HostPort) {s : State} (a : Nat) (hk :
    Keeps w₀ s₀ s) : Keeps w₀ s₀ (State.hostReadWord s0 h s a).2.2 := State.readAs_keeps _ _ h false a hk
@[simp] theorem State.burstPart_keeps {w₀ : Bool} {s₀ s : State} (h : HostPort) (b : OpenBurst) (n : Nat) (hk : Keeps w₀ s₀
    s) : Keeps w₀ s₀ (State.burstPart s h b n).2.2 := by
  induction n generalizing b s with
  | zero => exact hk
  | succ n ih =>
    unfold State.burstPart
    split
    · exact hk
    · exact ih _ (State.readAs_keeps _ _ h true _ hk)
@[simp] theorem State.hostRegWrite_keeps {s₀ : State} {s : State} (h : HostPort) (burst : Bool) (via : Via) (r : Rg)
    (v : Word) (hk : Keeps true s₀ s) : Keeps true s₀ (State.hostRegWrite s h burst via r v).2 := by
  simp only [State.hostRegWrite]
  repeat' split
  all_goals simp +contextual (maxDischargeDepth := 30) [*]
@[simp] theorem State.hostWriteWord_keeps {s₀ : State} (s0 : State) (h : HostPort) (burst : Bool) {s : State} (a : Nat)
    (v : Word) (hk : Keeps true s₀ s) : Keeps true s₀ (State.hostWriteWord s0 h burst s a v).2 := by
  unfold State.hostWriteWord
  split
  · simp [hk]
  · exact hk
  · split
    any_goals dsimp only
    any_goals split
    all_goals first
      | exact hk
      | exact hk.put_mem _ (Memory.wf_memPutWord _ _ _)
      | simp [hk]
@[simp] theorem State.hostWrites_keeps {s₀ : State} (s0 : State) (h : HostPort) (a : Nat) (vs : List Word) {s : State}
    (hk : Keeps true s₀ s) : Keeps true s₀ (State.hostWrites s0 h a vs s).2.2 := by
  induction vs generalizing a s with
  | nil => exact hk
  | cons v vs ih => exact ih _ (by simp [hk])
@[simp] theorem State.hostFills_keeps {s₀ : State} (s0 : State) (h : HostPort) (a : Nat) (vs : List Word) {s : State}
    (hk : Keeps true s₀ s) : Keeps true s₀ (State.hostFills s0 h a vs s).2.2 := by
  induction vs generalizing s with
  | nil => exact hk
  | cons v vs ih => exact ih (by simp [hk])
@[simp] theorem State.updHost_keeps {w₀ : Bool} {s₀ : State} {s : State} (h : HostPort) (f : HostState → HostState)
    (hk : Keeps w₀ s₀ s) : Keeps w₀ s₀ (State.updHost s h f) := by simp +contextual (maxDischargeDepth := 30) [State.updHost, *]
/-- After an access no software reset is pending. -/
@[simp] theorem State.swReset_keeps {w₀ : Bool} {s₀ s : State} (hk : Keeps true s₀ s) : Keeps w₀ s₀ s.swReset := by
  unfold State.swReset
  split
  · simp [hk]
  · next h => exact hk.no_reset (by simpa using h)
@[simp] theorem State.endTx_keeps {w₀ : Bool} {s₀ s : State} (h : HostPort) (status : Byte) (x : Nat × List Word)
    (hk : Keeps true s₀ s) : Keeps w₀ s₀ (s.endTx h status x) := by simp [State.endTx, hk]
@[simp] theorem State.openPart_keeps {w₀ : Bool} {s₀ s : State} (h : HostPort) (o : OpenTx) (k : Nat) (take : Bool)
    (hk : Keeps w₀ s₀ s) : Keeps w₀ s₀ (State.openPart s h o k take).2.2 := by
  unfold State.openPart
  repeat' split
  all_goals simp +contextual (maxDischargeDepth := 30) [*]
@[simp] theorem State.openEnd_keeps {w₀ : Bool} {s₀ s : State} (h : HostPort) (o : OpenTx) (hk : Keeps w₀ s₀ s) :
    Keeps w₀ s₀ (State.openEnd s h o).2 := by
  unfold State.openEnd
  dsimp only
  split
  all_goals simp [hk]
@[simp] theorem State.closeTx_keeps {w₀ : Bool} {s₀ s : State} (h : HostPort) (o : OpenTx) (ws : List Word) (code :
    Nat) (hk : Keeps true s₀ s) : Keeps w₀ s₀ (State.closeTx s h o ws code) := State.endTx_keeps _ _ _ (State.openEnd_keeps h o hk)
@[simp] theorem State.closePort_keeps {w₀ : Bool} {s₀ s : State} (h : HostPort) (hk : Keeps w₀ s₀ s) : Keeps w₀ s₀
    (State.closePort s h) := by
  unfold State.closePort
  split
  · exact State.closeTx_keeps h _ _ _ hk.weaken
  · exact hk
/-- A transaction keeps what its effect keeps. -/
@[simp] theorem State.transact_keeps {w₀ : Bool} {s₀ s : State} (x : Xfer) (isWrite : Bool) (form : Nat) (k : State → Served)
    (hf : ∀ s, Keeps true s₀ s → Keeps true s₀ (k s).2.2) (hk : Keeps w₀ s₀ s) :
    Keeps w₀ s₀ (s.transact x isWrite form k) := by
  have h1 := (State.closePort_keeps x.port hk).weaken
  unfold State.transact
  dsimp only
  split
  · exact hk
  · split
    · exact State.endTx_keeps _ _ _ (State.endRequest_keeps _ h1)
    · exact State.endTx_keeps _ _ _ (hf _ (State.endRequest_keeps _ h1))
@[simp] theorem State.moreWords_keeps {w₀ : Bool} {s₀ s : State} (x : Xfer) (o : OpenTx) (ws : List Word) (k : Nat)
    (take : Bool) (more : Bool) (hk : Keeps w₀ s₀ s) : Keeps w₀ s₀ (State.moreWords s x o ws k take more) := by
  have h1 := State.openPart_keeps x.port o k take hk
  unfold State.moreWords
  dsimp only
  split
  · exact State.updHost_keeps _ _ h1
  · exact State.closeTx_keeps _ _ _ _ h1.weaken
@[simp] theorem State.readTx_keeps {w₀ : Bool} {s₀ s : State} (x : Xfer) (form k : Nat) (take more : Bool)
    (start : State → OpenTx × State) (hstart : ∀ s, Keeps w₀ s₀ s → Keeps w₀ s₀ (start s).2) (hk : Keeps w₀ s₀ s) :
    Keeps w₀ s₀ (State.readTx s x form k take more start) := by
  have h1 := State.endRequest_keeps false (State.closePort_keeps x.port hk)
  have h2 := hstart _ h1
  unfold State.readTx
  dsimp only
  repeat' split
  · exact hk
  · exact State.updHost_keeps _ _ h1
  · exact State.endTx_keeps _ _ _ h1.weaken
  · exact State.closeTx_keeps _ _ _ _ (State.openPart_keeps _ _ _ _ (State.updHost_keeps _ _ h2)).weaken
  · exact State.moreWords_keeps _ _ _ _ _ _ (State.updHost_keeps _ _ h2)
@[simp] theorem State.hostFetchOpen_keeps {w₀ : Bool} {s₀ s : State} (h : HostPort) (a : BitVec 24) (hk : Keeps w₀ s₀
    s) : Keeps w₀ s₀ (State.hostFetchOpen s h a).2 := by
  unfold State.hostFetchOpen
  repeat' split
  all_goals simp +contextual (maxDischargeDepth := 30) [*]
@[simp] theorem State.hostDoorbell_keeps {w₀ : Bool} {s₀ : State} {s : State} (h : HostPort) (k : Nat) (hk : Keeps w₀
    s₀ s) : Keeps w₀ s₀ (State.hostDoorbell s h k).2.2 := by
  unfold State.hostDoorbell
  dsimp only
  repeat' split
  all_goals simp +contextual (maxDischargeDepth := 30) [*]
@[simp] theorem State.thrRead_keeps {w₀ : Bool} {s₀ : State} {s : State} (t : Fin 8) (x : Place × Nat) (hk : Keeps w₀
    s₀ s) : Keeps w₀ s₀ (State.thrRead s t x).2 := by
  simp only [State.thrRead]
  repeat' split
  all_goals simp +contextual (maxDischargeDepth := 30) [*]
@[simp] theorem State.thrWrite_keeps {s₀ s : State} (t : Fin 8) (x : Place × Nat) (v : Word) (hk : Keeps true s₀ s) :
    Keeps true s₀ (s.thrWrite t x v) := by
  unfold State.thrWrite
  split
  all_goals first
    | exact hk.put_mem _ (Memory.wf_memPutWord _ _ _)
    | simp [hk]
@[simp] theorem State.load_keeps {w₀ : Bool} {s₀ s : State} (t : Fin 8) (rt base : Fin 16) (off : BitVec 16) (size : Nat)
    (signed : Bool) (hk : Keeps w₀ s₀ s) : Keeps w₀ s₀ (s.load t rt base off size signed) := by
  refine State.issue_keeps t _ (fun s hs => ?_) hk
  dsimp only
  repeat' split
  all_goals simp (maxDischargeDepth := 30) [hs]
@[simp] theorem State.store_keeps {w₀ : Bool} {s₀ s : State} (t : Fin 8) (rt base : Fin 16) (off : BitVec 16) (size : Nat)
    (hk : Keeps w₀ s₀ s) : Keeps w₀ s₀ (s.store t rt base off size) := by
  refine State.issue_keeps t _ (fun s hs => ?_) hk
  have h1 := hs.weaken
  dsimp only
  repeat' split
  all_goals simp (maxDischargeDepth := 30) [hs, h1]
theorem State.csrRead_keeps {w₀ : Bool} {s₀ s : State} (t : Fin 8) (n : Nat) (x : Word × State) (hx : s.csrRead t n = some x)
    (hk : Keeps w₀ s₀ s) : Keeps w₀ s₀ x.2 := by
  unfold State.csrRead at hx
  dsimp only at hx
  split at hx
  all_goals first | (cases hx; simp [hk]) | cases hx
theorem State.csrWrite_keeps {w₀ : Bool} {s₀ s t' : State} (t : Fin 8) (n : Nat) (v : Word) (hx : s.csrWrite t n v = some t')
    (hk : Keeps w₀ s₀ s) : Keeps w₀ s₀ t' := by
  unfold State.csrWrite at hx
  split at hx
  all_goals first | (cases hx; simp [hk]) | cases hx
@[simp] theorem State.csrr_keeps {w₀ : Bool} {s₀ s : State} (t : Fin 8) (rd : Fin 16) (n : Nat) (hk : Keeps w₀ s₀ s) :
    Keeps w₀ s₀ (s.csrr t rd n) := by
  refine State.issue_keeps t _ (fun s hs => ?_) hk
  split
  · next x hx => exact State.advance_keeps t (State.putG_keeps _ _ _ (State.csrRead_keeps t n x hx hs))
  · simp [hs]
@[simp] theorem State.csrw_keeps {w₀ : Bool} {s₀ s : State} (t : Fin 8) (n : Nat) (ra : Fin 16) (hk : Keeps w₀ s₀ s) :
    Keeps w₀ s₀ (s.csrw t n ra) := by
  refine State.issue_keeps t _ (fun s hs => ?_) hk
  split
  · next x hx => exact State.advance_keeps t (State.csrWrite_keeps t n _ hx hs)
  · simp [hs]
@[simp] theorem State.asThread_keeps {w₀ : Bool} {s₀ s : State} (t : Fin 8) (k : State → State)
    (hf : ∀ s, Keeps true s₀ s → Keeps true s₀ (k s)) (hk : Keeps w₀ s₀ s) : Keeps w₀ s₀ (s.asThread t k) := by
  have h1 := hk.weaken
  unfold State.asThread
  split
  · simp [hf, h1]
  · exact hk
@[simp] theorem State.partyWrite_keeps {w₀ : Bool} {s₀ s : State} (p : Party) (via : Via) (o : Nat) (v : Word)
    (hk : Keeps w₀ s₀ s) : Keeps w₀ s₀ (s.partyWrite p via o v) := by
  unfold State.partyWrite
  split
  · refine State.transact_keeps _ _ _ _ (fun s hs => ?_) hk
    split <;> simp [hs]
  · refine State.asThread_keeps _ _ (fun s hs => ?_) hk
    repeat' split
    all_goals simp [hs]
@[simp] theorem State.partyRead_keeps {w₀ : Bool} {s₀ s : State} (p : Party) (via : Via) (o : Nat)
    (hk : Keeps w₀ s₀ s) : Keeps w₀ s₀ (s.partyRead p via o) := by
  unfold State.partyRead
  split
  · refine State.transact_keeps _ _ _ _ (fun s hs => ?_) hk
    split <;> simp [hs]
  · refine State.asThread_keeps _ _ (fun s hs => ?_) hk
    repeat' split
    all_goals simp [hs]
@[simp] theorem State.partyBit_keeps {w₀ : Bool} {s₀ s : State} (p : Party) (via : Via) (o b : Nat) (v : Bool)
    (hk : Keeps w₀ s₀ s) : Keeps w₀ s₀ (s.partyBit p via o b v) := by
  unfold State.partyBit
  split
  · refine State.transact_keeps _ _ _ _ (fun s hs => ?_) hk
    split <;> simp [hs]
  · refine State.asThread_keeps _ _ (fun s hs => ?_) hk
    repeat' split
    all_goals simp [hs]
@[simp] theorem State.partyFetch_keeps {w₀ : Bool} {s₀ s : State} (p : Party) (n : Fin 4) (o k : Nat)
    (hk : Keeps w₀ s₀ s) : Keeps w₀ s₀ (s.partyFetch p n o k) := by
  unfold State.partyFetch
  split
  · exact State.readTx_keeps _ _ _ _ _ _ (fun s hs => State.hostFetchOpen_keeps _ _ hs) hk
  · refine State.asThread_keeps _ _ (fun s hs => ?_) hk
    repeat' split
    all_goals simp [hs]
@[simp] theorem State.thrStoreAt_keeps {s₀ : State} {s : State} (t : Fin 8) (a : Nat) (v : Word) (hk : Keeps true s₀
    s) : Keeps true s₀ (State.thrStoreAt s t a v) := by
  simp only [State.thrStoreAt]
  repeat' split
  all_goals simp +contextual (maxDischargeDepth := 30) [*]
@[simp] theorem State.partyWriteAt_keeps {w₀ : Bool} {s₀ : State} {s : State} (p : Party) (a : BitVec 24) (v : Word)
    (hk : Keeps w₀ s₀ s) : Keeps w₀ s₀ (State.partyWriteAt s p a v) := by
  unfold State.partyWriteAt
  dsimp only
  repeat' split
  all_goals simp +contextual (maxDischargeDepth := 30) [*]
@[simp] theorem State.partySlotWrite_keeps {w₀ : Bool} {s₀ : State} {s : State} (p : Party) (g : Nat) (w : Nat) (v :
    Word) (hk : Keeps w₀ s₀ s) : Keeps w₀ s₀ (State.partySlotWrite s p g w v) := by
  unfold State.partySlotWrite
  dsimp only
  repeat' split
  all_goals simp +contextual (maxDischargeDepth := 30) [*]

end Sys2Proof.Machine
end

