-- ==== Sys2Proof/Laws/KeepsCommands.lean ====
section
/-! SUPPORT. What each operation keeps (ExecEngine, Debug, ExecHost, ExecIrq, ExecLine, LineOps, Clock, ExecSched, ExecTimer). -/

namespace Sys2Proof.Machine

@[simp] theorem State.comeToWake_keeps {w₀ : Bool} {s₀ : State} {s : State} (t : Fin 8) (hk : Keeps w₀ s₀ s) : Keeps
    w₀ s₀ (State.comeToWake s t) := by simp +contextual (maxDischargeDepth := 30) [State.comeToWake, *]
@[simp] theorem State.dbg_keeps {w₀ : Bool} {s₀ : State} {s : State} (h : HostPort) (target : Byte) (k : Fin 8 →
    DbgOut) (hk : ∀ t, Keeps w₀ s₀ (k t).2.2) (hk : Keeps w₀ s₀ s) : Keeps w₀ s₀ (State.dbg s h target k).2.2 := by
  unfold State.dbg
  dsimp only
  repeat' split
  all_goals simp +contextual (maxDischargeDepth := 30) [*]
@[simp] theorem State.dbgHalt_keeps {w₀ : Bool} {s₀ : State} {s : State} (t : Fin 8) (hk : Keeps w₀ s₀ s) : Keeps w₀
    s₀ (State.dbgHalt s t).2.2 := by
  unfold State.dbgHalt
  repeat' split
  all_goals simp [hk]
@[simp] theorem State.rewait_keeps {w₀ : Bool} {s₀ : State} {s : State} (t : Fin 8) (w : WaitOn) (hk : Keeps w₀ s₀ s)
    : Keeps w₀ s₀ (State.rewait s t w) := by
  unfold State.rewait
  dsimp only
  repeat' split
  all_goals simp +contextual (maxDischargeDepth := 30) [*]
@[simp] theorem State.dbgResume_keeps {w₀ : Bool} {s₀ : State} {s : State} (t : Fin 8) (hk : Keeps w₀ s₀ s) : Keeps w₀
    s₀ (State.dbgResume s t).2.2 := by
  unfold State.dbgResume
  dsimp only
  repeat' split
  all_goals simp +contextual (maxDischargeDepth := 30) [*]
@[simp] theorem State.dbgStep_keeps {w₀ : Bool} {s₀ : State} {s : State} (t : Fin 8) (hk : Keeps w₀ s₀ s) : Keeps w₀
    s₀ (State.dbgStep s t).2.2 := by
  unfold State.dbgStep
  dsimp only
  repeat' split
  all_goals simp +contextual (maxDischargeDepth := 30) [*]
@[simp] theorem State.dbgRead_keeps {w₀ : Bool} {s₀ : State} {s : State} (t : Fin 8) (i : Byte) (hk : Keeps w₀ s₀ s) :
    Keeps w₀ s₀ (State.dbgRead s t i).2.2 := by
  simp only [State.dbgRead]
  repeat' split
  all_goals simp +contextual (maxDischargeDepth := 30) [*]
@[simp] theorem State.dbgPut_keeps {w₀ : Bool} {s₀ : State} {s : State} (t : Fin 8) (i : Byte) (v : Word) (hk : Keeps
    w₀ s₀ s) : Keeps w₀ s₀ (State.dbgPut s t i v) := by
  simp only [State.dbgPut]
  repeat' split
  all_goals simp +contextual (maxDischargeDepth := 30) [*]
@[simp] theorem State.dbgWrite_keeps {w₀ : Bool} {s₀ : State} {s : State} (t : Fin 8) (i : Byte) (v : Word) (hk :
    Keeps w₀ s₀ s) : Keeps w₀ s₀ (State.dbgWrite s t i v).2.2 := by
  simp only [State.dbgWrite]
  repeat' split
  all_goals simp +contextual (maxDischargeDepth := 30) [*]
@[simp] theorem State.setBp_keeps {w₀ : Bool} {s₀ : State} {s : State} (k : Fin 4) (b : Option Breakpoint) (hk : Keeps
    w₀ s₀ s) : Keeps w₀ s₀ (State.setBp s k b) := by simp +contextual (maxDischargeDepth := 30) [State.setBp, *]
@[simp] theorem State.dbgSet_keeps {w₀ : Bool} {s₀ : State} {s : State} (n : Fin 4) (i : Byte) (v : Word) (hk : Keeps
    w₀ s₀ s) : Keeps w₀ s₀ (State.dbgSet s n i v).2.2 := by
  simp only [State.dbgSet]
  repeat' split
  all_goals simp +contextual (maxDischargeDepth := 30) [*]
@[simp] theorem State.dbgClear_keeps {w₀ : Bool} {s₀ : State} {s : State} (h : HostPort) (n : Fin 4) (i : Byte) (hk :
    Keeps w₀ s₀ s) : Keeps w₀ s₀ (State.dbgClear s h n i).2.2 := by
  simp only [State.dbgClear]
  repeat' split
  all_goals simp +contextual (maxDischargeDepth := 30) [*]
@[simp] theorem State.hostStatus_keeps {w₀ : Bool} {s₀ s : State} (x : Xfer) (hk : Keeps w₀ s₀ s) : Keeps w₀ s₀ (s.hostStatus x) := by
  have h1 := State.endRequest_keeps false (State.closePort_keeps x.port hk).weaken
  unfold State.hostStatus
  dsimp only
  split
  · exact hk
  · exact keeps_ite.2 ⟨fun _ => State.endTx_keeps _ _ _ h1, fun _ => State.endTx_keeps _ _ _ (State.updHost_keeps _ _ h1)⟩
@[simp] theorem State.ringBy_keeps {w₀ : Bool} {s₀ : State} {s : State} (p : Party) (n : Fin 4) (v : Word) (hk : Keeps
    w₀ s₀ s) : Keeps w₀ s₀ (State.ringBy s p n v) := by
  simp only [State.ringBy]
  repeat' split
  all_goals simp +contextual (maxDischargeDepth := 30) [*]
@[simp] theorem State.whileRunning_keeps {w₀ : Bool} {s₀ : State} {s : State} (k : State → State) (hk : ∀ s, Keeps w₀
    s₀ s → Keeps w₀ s₀ (k s)) (hk : Keeps w₀ s₀ s) : Keeps w₀ s₀ (State.whileRunning s k) := by simp +contextual (maxDischargeDepth := 30) [State.whileRunning, *]
@[simp] theorem State.hearsTraffic_keeps {w₀ : Bool} {s₀ : State} {s : State} (port : LinePort) (hk : Keeps w₀ s₀ s) :
    Keeps w₀ s₀ (State.hearsTraffic s port) := by simp +contextual (maxDischargeDepth := 30) [State.hearsTraffic, *]
@[simp] theorem State.toHoldover_keeps {w₀ : Bool} {s₀ : State} {s : State} (hk : Keeps w₀ s₀ s) : Keeps w₀ s₀
    (State.toHoldover s) := by simp +contextual (maxDischargeDepth := 30) [State.toHoldover, *]
@[simp] theorem State.lockLost_keeps {w₀ : Bool} {s₀ : State} {s : State} (k : Lock) (hk : Keeps w₀ s₀ s) : Keeps w₀
    s₀ (State.lockLost s k) := by simp +contextual (maxDischargeDepth := 30) [State.lockLost, *]
@[simp] theorem State.expire_keeps {w₀ : Bool} {s₀ : State} {s : State} (i : ItemRef) (hk : Keeps w₀ s₀ s) : Keeps w₀
    s₀ (State.expire s i) := by
  simp only [State.expire]
  repeat' split
  all_goals simp +contextual (maxDischargeDepth := 30) [*]
@[simp] theorem State.burstHeard_keeps {w₀ : Bool} {s₀ : State} {s : State} (port : LinePort) (hk : Keeps w₀ s₀ s) :
    Keeps w₀ s₀ (State.burstHeard s port) := by simp +contextual (maxDischargeDepth := 30) [State.burstHeard, *]
@[simp] theorem State.unblock_keeps {w₀ : Bool} {s₀ : State} {s : State} (safeIn : Bool) (plc : Bool) (pair : Bool)
    (hk : Keeps w₀ s₀ s) : Keeps w₀ s₀ (State.unblock s safeIn plc pair) := by simp +contextual (maxDischargeDepth := 30) [State.unblock, *]
@[simp] theorem State.result_keeps {w₀ : Bool} {s₀ : State} {s : State} (t : Fin 8) (rd : Fin 16) (v : Word) (hk :
    Keeps w₀ s₀ s) : Keeps w₀ s₀ (State.result s t rd v) := by simp +contextual (maxDischargeDepth := 30) [State.result, *]
@[simp] theorem State.fork_keeps {w₀ : Bool} {s₀ : State} {s : State} (t : Fin 8) (rd : Fin 16) (ra : Fin 16) (rc :
    Fin 16) (hk : Keeps w₀ s₀ s) : Keeps w₀ s₀ (State.fork s t rd ra rc) := by
  unfold State.fork
  dsimp only
  repeat' split
  all_goals simp +contextual (maxDischargeDepth := 30) [*]
@[simp] theorem State.join_keeps {w₀ : Bool} {s₀ : State} {s : State} (t : Fin 8) (rd : Fin 16) (ra : Fin 16) (hk :
    Keeps w₀ s₀ s) : Keeps w₀ s₀ (State.join s t rd ra) := by
  simp only [State.join]
  repeat' split
  all_goals simp +contextual (maxDischargeDepth := 30) [*]
@[simp] theorem State.waitEvents_keeps {w₀ : Bool} {s₀ : State} {s : State} (t : Fin 8) (rd : Fin 16) (hk : Keeps w₀
    s₀ s) : Keeps w₀ s₀ (State.waitEvents s t rd) := by simp +contextual (maxDischargeDepth := 30) [State.waitEvents, *]
@[simp] theorem State.takeLock_keeps {w₀ : Bool} {s₀ : State} {s : State} (t : Fin 8) (rd : Fin 16) (n : Nat) (busy :
    Fin 32 → State → State) (hbusy : ∀ l s, Keeps w₀ s₀ s → Keeps w₀ s₀ (busy l s)) (hk : Keeps w₀ s₀ s) : Keeps w₀ s₀
    (State.takeLock s t rd n busy) := by
  simp only [State.takeLock]
  repeat' split
  all_goals simp +contextual (maxDischargeDepth := 30) [*]
@[simp] theorem State.relLock_keeps {w₀ : Bool} {s₀ : State} {s : State} (t : Fin 8) (rd : Fin 16) (n : Nat) (hk :
    Keeps w₀ s₀ s) : Keeps w₀ s₀ (State.relLock s t rd n) := by
  simp only [State.relLock]
  repeat' split
  all_goals simp +contextual (maxDischargeDepth := 30) [*]
@[simp] theorem State.copyItem_keeps {w₀ : Bool} {s₀ : State} {s : State} (n : Fin 4) (q : Fin 4) (src : Nat) (dst :
    Nat) (hk : Keeps w₀ s₀ s) : Keeps w₀ s₀ (State.copyItem s n q src dst) := by simp +contextual (maxDischargeDepth := 30) [State.copyItem, *]
@[simp] theorem State.fputEnd_keeps {w₀ : Bool} {s₀ : State} {s : State} (t : Fin 8) (n : Fin 4) (q : Fin 4) (rd : Fin
    16) (code : Nat) (hk : Keeps w₀ s₀ s) : Keeps w₀ s₀ (State.fputEnd s t n q rd code) := by simp +contextual (maxDischargeDepth := 30) [State.fputEnd, *]
@[simp] theorem State.fput_keeps {w₀ : Bool} {s₀ : State} {s : State} (t : Fin 8) (rd : Fin 16) (ra : Fin 16) (q : Fin
    4) (hk : Keeps w₀ s₀ s) : Keeps w₀ s₀ (State.fput s t rd ra q) := by
  unfold State.fput
  dsimp only
  repeat' split
  all_goals simp +contextual (maxDischargeDepth := 30) [*]
@[simp] theorem State.copyFrame_keeps {w₀ : Bool} {s₀ : State} {s : State} (src : Nat) (dst : Nat) (hk : Keeps w₀ s₀
    s) : Keeps w₀ s₀ (State.copyFrame s src dst) := by simp +contextual (maxDischargeDepth := 30) [State.copyFrame, *]
@[simp] theorem State.fgetFrom_keeps {w₀ : Bool} {s₀ : State} {s : State} (t : Fin 8) (rd : Fin 16) (ra : Fin 16) (src
    : Option Nat) (entitled : Bool) (remove : State → State) (hremove : ∀ s, Keeps w₀ s₀ s → Keeps w₀ s₀ (remove s))
    (hk : Keeps w₀ s₀ s) : Keeps w₀ s₀ (State.fgetFrom s t rd ra src entitled remove) := by
  unfold State.fgetFrom
  dsimp only
  repeat' split
  all_goals simp +contextual (maxDischargeDepth := 30) [*]
@[simp] theorem State.fgetTq_keeps {w₀ : Bool} {s₀ : State} {s : State} (t : Fin 8) (rd : Fin 16) (ra : Fin 16) (q :
    Fin 4) (remove : Bool) (hk : Keeps w₀ s₀ s) : Keeps w₀ s₀ (State.fgetTq s t rd ra q remove) := by simp +contextual (maxDischargeDepth := 30) [State.fgetTq, *]
@[simp] theorem State.fgetRxf_keeps {w₀ : Bool} {s₀ : State} {s : State} (t : Fin 8) (rd : Fin 16) (ra : Fin 16) (q :
    Fin 4) (remove : Bool) (hk : Keeps w₀ s₀ s) : Keeps w₀ s₀ (State.fgetRxf s t rd ra q remove) := by simp +contextual (maxDischargeDepth := 30) [State.fgetRxf, *]
@[simp] theorem State.fgetMbx_keeps {w₀ : Bool} {s₀ : State} {s : State} (t : Fin 8) (rd : Fin 16) (ra : Fin 16) (k :
    Nat) (remove : Bool) (hk : Keeps w₀ s₀ s) : Keeps w₀ s₀ (State.fgetMbx s t rd ra k remove) := by
  unfold State.fgetMbx
  dsimp only
  repeat' split
  all_goals simp +contextual (maxDischargeDepth := 30) [*]
@[simp] theorem State.sset_keeps {w₀ : Bool} {s₀ : State} {s : State} (t : Fin 8) (rd : Fin 16) (ra : Fin 16) (n :
    Nat) (hk : Keeps w₀ s₀ s) : Keeps w₀ s₀ (State.sset s t rd ra n) := by
  unfold State.sset
  dsimp only
  repeat' split
  all_goals simp +contextual (maxDischargeDepth := 30) [*]
@[simp] theorem State.sclr_keeps {w₀ : Bool} {s₀ : State} {s : State} (t : Fin 8) (rd : Fin 16) (n : Nat) (hk : Keeps
    w₀ s₀ s) : Keeps w₀ s₀ (State.sclr s t rd n) := by
  unfold State.sclr
  dsimp only
  repeat' split
  all_goals simp +contextual (maxDischargeDepth := 30) [*]
@[simp] theorem State.fstatSch_keeps {w₀ : Bool} {s₀ : State} {s : State} (t : Fin 8) (rd : Fin 16) (n : Nat) (hk :
    Keeps w₀ s₀ s) : Keeps w₀ s₀ (State.fstatSch s t rd n) := by
  simp only [State.fstatSch]
  repeat' split
  all_goals simp +contextual (maxDischargeDepth := 30) [*]
@[simp] theorem State.fltw_keeps {w₀ : Bool} {s₀ : State} {s : State} (t : Fin 8) (ra : Fin 16) (n : Nat) (hk : Keeps
    w₀ s₀ s) : Keeps w₀ s₀ (State.fltw s t ra n) := by
  unfold State.fltw
  dsimp only
  repeat' split
  all_goals simp +contextual (maxDischargeDepth := 30) [*]
@[simp] theorem State.irqDone_keeps {w₀ : Bool} {s₀ : State} {s : State} (t : Fin 8) (rd : Fin 16) (ra : Fin 16) (hk :
    Keeps w₀ s₀ s) : Keeps w₀ s₀ (State.irqDone s t rd ra) := by
  unfold State.irqDone
  dsimp only
  repeat' split
  all_goals simp +contextual (maxDischargeDepth := 30) [*]
@[simp] theorem State.crc24_keeps {w₀ : Bool} {s₀ : State} {s : State} (t : Fin 8) (rd : Fin 16) (ra : Fin 16) (n :
    Nat) (hk : Keeps w₀ s₀ s) : Keeps w₀ s₀ (State.crc24 s t rd ra n) := by simp +contextual (maxDischargeDepth := 30) [State.crc24, *]
@[simp] theorem State.sluiceOp_keeps {w₀ : Bool} {s₀ : State} {s : State} (t : Fin 8) (hk : Keeps w₀ s₀ s) : Keeps w₀
    s₀ (State.sluiceOp s t) := by simp +contextual (maxDischargeDepth := 30) [State.sluiceOp, *]
@[simp] theorem State.pbPut_keeps {w₀ : Bool} {s₀ s : State} (n : Fin 4) (o : Nat) (v : Nat) (hk : Keeps w₀ s₀ s) :
    Keeps w₀ s₀ (State.pbPut s n o v) := hk.put_mem _ (Memory.wf_memPutWord _ _ _)
@[simp] theorem State.pbCount_keeps {w₀ : Bool} {s₀ s : State} (n : Fin 4) (o : Nat) (hk : Keeps w₀ s₀ s) : Keeps w₀
    s₀ (State.pbCount s n o) := by
  simp +contextual (maxDischargeDepth := 30) [State.pbCount, *]
@[simp] theorem State.updStock_keeps {w₀ : Bool} {s₀ s : State} (n : Fin 4) (f : Stock → Stock) (hk : Keeps w₀ s₀ s) :
    Keeps w₀ s₀ (State.updStock s n f) := by
  simp +contextual (maxDischargeDepth := 30) [State.updStock, *]
@[simp] theorem State.stockHalt_keeps {w₀ : Bool} {s₀ s : State} (n : Fin 4) (t : Fin 8) (state : Nat) (exit : Byte)
    (hk : Keeps w₀ s₀ s) : Keeps w₀ s₀ (State.stockHalt s n t state exit) := by
  simp +contextual (maxDischargeDepth := 30) [State.stockHalt, *]
@[simp] theorem State.stockStore_keeps {w₀ : Bool} {s₀ s : State} (t : Fin 8) (a : Nat) (v : Word) (hk : Keeps w₀ s₀ s) :
    Keeps w₀ s₀ (State.stockStore s t a v) := State.swReset_keeps (State.thrStoreAt_keeps t a v hk.weaken)
@[simp] theorem State.stores_keeps {w₀ : Bool} {s₀ s : State} (t : Fin 8) (ws : List (Nat × Word)) (hk : Keeps w₀ s₀
    s) : Keeps w₀ s₀ (State.stores s t ws) := keeps_foldl _ _ (fun _ _ h => State.stockStore_keeps _ _ _ h) hk
@[simp] theorem State.stockEnable_keeps {w₀ : Bool} {s₀ s : State} (t : Fin 8) (hk : Keeps w₀ s₀ s) : Keeps w₀ s₀
    (State.stockEnable s t) := by
  unfold State.stockEnable
  repeat' split
  all_goals simp +contextual (maxDischargeDepth := 30) [*]
@[simp] theorem State.stockRuns_keeps {w₀ : Bool} {s₀ s : State} (n : Fin 4) (t : Fin 8) (hk : Keeps w₀ s₀ s) : Keeps
    w₀ s₀ (State.stockRuns s n t) := by
  simp +contextual (maxDischargeDepth := 30) [State.stockRuns, *]
@[simp] theorem State.stockStart0_keeps {w₀ : Bool} {s₀ s : State} (t : Fin 8) (hk : Keeps w₀ s₀ s) : Keeps w₀ s₀
    (State.stockStart0 s t) := by
  simp +contextual (maxDischargeDepth := 30) [State.stockStart0, *]
@[simp] theorem State.stockStart_keeps {w₀ : Bool} {s₀ s : State} (n : Fin 4) (t : Fin 8) (hk : Keeps w₀ s₀ s) : Keeps
    w₀ s₀ (State.stockStart s n t) := by
  simp +contextual (maxDischargeDepth := 30) [State.stockStart, *]
@[simp] theorem State.stockBegin_keeps {w₀ : Bool} {s₀ s : State} (n : Fin 4) (t : Fin 8) (hk : Keeps w₀ s₀ s) : Keeps
    w₀ s₀ (State.stockBegin s n t) := by
  simp +contextual (maxDischargeDepth := 30) [State.stockBegin, *]
@[simp] theorem State.stockSound_keeps {w₀ : Bool} {s₀ s : State} (m : BitVec 64) (kmark : Bool) (hk : Keeps w₀ s₀ s)
    : Keeps w₀ s₀ (State.stockSound s m kmark) := by
  unfold State.stockSound
  dsimp only
  repeat' split
  all_goals simp +contextual (maxDischargeDepth := 30) [*]
@[simp] theorem State.stockTurn_keeps {w₀ : Bool} {s₀ s : State} (hk : Keeps w₀ s₀ s) : Keeps w₀ s₀ (State.stockTurn
    s) := by
  simp +contextual (maxDischargeDepth := 30) [State.stockTurn, *]
@[simp] theorem State.stockCopy_keeps {w₀ : Bool} {s₀ s : State} (t : Fin 8) (h : HeardTide) (hk : Keeps w₀ s₀ s) :
    Keeps w₀ s₀ (State.stockCopy s t h) := by
  simp +contextual (maxDischargeDepth := 30) [State.stockCopy, *]
@[simp] theorem State.stockTide_keeps {w₀ : Bool} {s₀ s : State} (t : Fin 8) (hk : Keeps w₀ s₀ s) : Keeps w₀ s₀
    (State.stockTide s t) := by
  unfold State.stockTide
  dsimp only
  repeat' split
  all_goals simp +contextual (maxDischargeDepth := 30) [*]
@[simp] theorem State.stockKick_keeps {w₀ : Bool} {s₀ s : State} (hk : Keeps w₀ s₀ s) : Keeps w₀ s₀ (State.stockKick
    s) := by
  simp +contextual (maxDischargeDepth := 30) [State.stockKick, *]
@[simp] theorem State.stockDisarm_keeps {w₀ : Bool} {s₀ s : State} (t : Fin 8) (es : List (Fin 32)) (hk : Keeps w₀ s₀
    s) : Keeps w₀ s₀ (State.stockDisarm s t es) := by
  simp +contextual (maxDischargeDepth := 30) [State.stockDisarm, *]
@[simp] theorem State.stockArm_keeps {w₀ : Bool} {s₀ s : State} (t : Fin 8) (c : StockCmd) (e : Fin 32) (x : Word ×
    Word) (hk : Keeps w₀ s₀ s) : Keeps w₀ s₀ (State.stockArm s t c e x) := by
  simp +contextual (maxDischargeDepth := 30) [State.stockArm, *]
@[simp] theorem State.stockAct_keeps {w₀ : Bool} {s₀ s : State} (n : Fin 4) (t : Fin 8) (c : StockCmd) (specs : List
    (Word × Word)) (hk : Keeps w₀ s₀ s) : Keeps w₀ s₀ (State.stockAct s n t c specs) := by
  simp +contextual (maxDischargeDepth := 30) [State.stockAct, *]
@[simp] theorem State.stockCommand_keeps {w₀ : Bool} {s₀ s : State} (n : Fin 4) (t : Fin 8) (f : Frame) (hk : Keeps w₀
    s₀ s) : Keeps w₀ s₀ (State.stockCommand s n t f) := by
  simp +contextual (maxDischargeDepth := 30) [State.stockCommand, *]
@[simp] theorem State.stockServe_keeps {w₀ : Bool} {s₀ s : State} (n : Fin 4) (t : Fin 8) (hk : Keeps w₀ s₀ s) : Keeps
    w₀ s₀ (State.stockServe s n t) := by
  unfold State.stockServe
  dsimp only
  repeat' split
  all_goals simp +contextual (maxDischargeDepth := 30) [*]
@[simp] theorem State.stockPan_keeps {w₀ : Bool} {s₀ s : State} (n : Fin 4) (hk : Keeps w₀ s₀ s) : Keeps w₀ s₀
    (State.stockPan s n) := by
  unfold State.stockPan
  dsimp only
  repeat' split
  all_goals simp +contextual (maxDischargeDepth := 30) [*]
@[simp] theorem State.stockCycle_keeps {w₀ : Bool} {s₀ s : State} (hk : Keeps w₀ s₀ s) : Keeps w₀ s₀ (State.stockCycle
    s) := by
  simp +contextual (maxDischargeDepth := 30) [State.stockCycle, *]
@[simp] theorem State.parityFound_keeps {w₀ : Bool} {s₀ s : State} (a : Nat) (shadow : Bool) (hk : Keeps w₀ s₀ s) :
    Keeps w₀ s₀ (s.parityFound a shadow) := by
  have h1 : ∀ w, Keeps w s₀ s → Keeps w s₀
      ((s.updSys fun y => { y with cfgPar := true, ploc := BitVec.ofNat 19 a, pshad := shadow }).arrive 4) :=
    fun w h => by simp (maxDischargeDepth := 30) [h]
  have h2 := h1 _ hk
  have h3 := h1 _ hk.weaken
  unfold State.parityFound
  dsimp only
  split
  · exact hk
  · split <;> split <;> simp [h2, h3]
@[simp] theorem State.scrubPass_keeps {w₀ : Bool} {s₀ s : State} (cfg : List Nat) (shadows : List Nat) (later : List
    Nat) (hk : Keeps w₀ s₀ s) : Keeps w₀ s₀ (State.scrubPass s cfg shadows later) := by
  unfold State.scrubPass
  dsimp only
  repeat' split
  all_goals simp +contextual (maxDischargeDepth := 30) [*]
@[simp] theorem State.parityDue_keeps {w₀ : Bool} {s₀ s : State} (hk : Keeps w₀ s₀ s) : Keeps w₀ s₀ (State.parityDue
    s) := by
  unfold State.parityDue
  split
  · exact State.parityFound_keeps _ _ (State.updSys_keeps _ rfl rfl rfl hk)
  · exact hk
@[simp] theorem State.timersTick_keeps {w₀ : Bool} {s₀ s : State} (g : State) (ticks : Nat) (hk : Keeps w₀ s₀ s) :
    Keeps w₀ s₀ (s.timersTick g ticks) := by
  simp +contextual (maxDischargeDepth := 30) [State.timersTick, *]
theorem State.aonTick_keeps {w₀ : Bool} {s₀ s : State} (hk : Keeps w₀ s₀ s) :
    Keeps w₀ s₀ (s.updPow fun p => { p with aon := p.aon + 1 }) := hk.put_pow _ rfl
@[simp] theorem State.coreCycle_keeps {w₀ : Bool} {s₀ : State} {s : State} (hk : Keeps w₀ s₀ s) : Keeps w₀ s₀
    (State.coreCycle s) := by
  unfold State.coreCycle
  split
  · exact hk
  · exact State.settle_keeps (State.parityDue_keeps (State.keeperStep_keeps (State.timersTick_keeps _ _
      (State.tideAdvance_keeps _ (State.aonTick_keeps (State.updIrq_keeps _ (State.updEng_keeps _
        (State.noteSeen_keeps (State.flushWakes_keeps hk)))))))))
@[simp] theorem State.endPulse_keeps {w₀ : Bool} {s₀ : State} {s : State} (pin : Fin 9) (hk : Keeps w₀ s₀ s) : Keeps
    w₀ s₀ (State.endPulse s pin) := by
  unfold State.endPulse
  dsimp only
  repeat' split
  all_goals simp +contextual (maxDischargeDepth := 30) [*]
@[simp] theorem State.tickFrom_keeps {w₀ : Bool} {s₀ : State} {s : State} (n : Fin 8) (c : BitVec 48) (hk : Keeps w₀
    s₀ s) : Keeps w₀ s₀ (State.tickFrom s n c) := by simp +contextual (maxDischargeDepth := 30) [State.tickFrom, *]

end Sys2Proof.Machine
end

