-- ==== Sys2Proof/Laws/Access.lean ====
section
/-! SUPPORT. What a served access does: the effect of its register write or read, and the port's record. -/

namespace Sys2Proof.Machine

open Sys2Proof.Safety

/-! ### States that differ in a port's record and in parity mismatches alone -/

theorem likeState_refl (u : State) : LikeState u u := ⟨rfl⟩

theorem likeState_mendParity (u : State) (r : Rg) : LikeState (u.mendParity r) u := by
  unfold State.mendParity
  split <;> exact ⟨rfl⟩

theorem likeState_endTx (u : State) (h : HostPort) (st : Byte) (x : Nat × List Word) (hu : u.sys.swPend = false) :
    LikeState (u.endTx h st x) u := by
  unfold State.endTx State.swReset
  rw [if_neg (by simp [hu])]
  exact ⟨rfl⟩

end Sys2Proof.Machine

namespace Sys2Proof.Safety

open Sys2Proof.Machine

theorem LikeState.trans {t u v : State} (h : LikeState t u) (k : LikeState u v) : LikeState t v :=
  ⟨by rw [h.eq, k.eq]⟩

section
variable {t u : State} (h : LikeState t u)
include h
theorem LikeState.pow : t.pow = u.pow := by rw [h.eq]
theorem LikeState.slu : t.slu = u.slu := by rw [h.eq]
theorem LikeState.irq : t.irq = u.irq := by rw [h.eq]
theorem LikeState.line : t.line = u.line := by rw [h.eq]
theorem LikeState.tide : t.tide = u.tide := by rw [h.eq]
theorem LikeState.cal : t.cal = u.cal := by rw [h.eq]
theorem LikeState.sched : t.sched = u.sched := by rw [h.eq]
theorem LikeState.tim : t.tim = u.tim := by rw [h.eq]
theorem LikeState.eng : t.eng = u.eng := by rw [h.eq]
theorem LikeState.pans : t.pans = u.pans := by rw [h.eq]
theorem LikeState.flt : t.flt = u.flt := by rw [h.eq]
theorem LikeState.alloc : t.alloc = u.alloc := by rw [h.eq]
theorem LikeState.window : t.window = u.window := by rw [h.eq]
theorem LikeState.windowFrom : t.windowFrom = u.windowFrom := by rw [h.eq]
theorem LikeState.otp : t.otp = u.otp := by rw [h.eq]
theorem LikeState.mem : t.mem = u.mem := by rw [h.eq]
theorem LikeState.out : t.out = u.out := by rw [h.eq]
theorem LikeState.free : t.free = u.free := by rw [h.eq]
theorem LikeState.pending : t.pending = u.pending := by rw [h.eq]
theorem LikeState.sys : t.sys = { u.sys with parBad := t.sys.parBad, shBad := t.sys.shBad } := congrArg State.sys h.eq
end

end Sys2Proof.Safety

namespace Sys2Proof.Machine

open Sys2Proof.Safety

/-! ### A transaction that is served -/

theorem closePort_none (s : State) (h : HostPort) (ho : s.host[h.ix].tx = none) : s.closePort h = s := by
  unfold State.closePort; rw [ho]

/-- A served port's transaction of one word reaches its effect. -/
theorem transact_plain (s : State) (h : HostPort) (w : Bool) (k : State → Served)
    (hv : s.pow.vioOk = true) (hs : s.serves = true) (ho : s.host[h.ix].tx = none) :
    s.transact (plainXfer h) w lcOk k = (k (s.endRequest false)).2.2.endTx h (s.statusByte h false)
      (joinCode (k (s.endRequest false)).1 lcOk, (k (s.endRequest false)).2.1) := by
  have h1 : (s.endRequest false).serves = true := hs
  have h2 : (s.endRequest false).refuseCode (plainXfer h) w lcOk = 0 := by
    cases w <;> simp [State.refuseCode, plainXfer, h1, joinCode, lcOk]
  have h3 := closePort_none s h ho
  unfold State.transact
  simp only [plainXfer] at *
  simp [hv, h2, h3]

/-- The same for any transaction that is plain and well-formed by itself. -/
theorem transact_of_plain (s : State) (x : Xfer) (w : Bool) (k : State → Served) (hp : plain s x) :
    s.transact x w lcOk k = (k (s.endRequest false)).2.2.endTx x.port (s.statusByte x.port false)
      (joinCode (k (s.endRequest false)).1 lcOk, (k (s.endRequest false)).2.1) := by
  obtain ⟨_, hv, hs, hb, hc, hr, he, ho⟩ := hp
  have h1 : (s.endRequest false).serves = true := hs
  have h2 : (s.endRequest false).refuseCode x w lcOk = 0 := by
    cases w <;> simp [State.refuseCode, h1, hb, hc, hr, he, joinCode, lcOk]
  simp [State.transact, hv, h2, hb, hc, closePort_none s x.port ho]

/-! ### What an access sees of the state before it -/

theorem accessState_regAt (s : State) (p : Party) (via : Via) (o : Nat) : (accessState s p).regAt via o = s.regAt via o := by
  cases p <;> rfl

theorem accessState_viaRight (s : State) (p : Party) (h : HostPort) (via : Via) :
    (accessState s p).viaRight h via = s.viaRight h via := by
  cases p <;> rfl

theorem accessState_capMissing (s : State) (p : Party) (via : Via) (r : Rg) (v : Word) :
    (accessState s p).capMissing via r v = s.capMissing via r v := by
  cases p <;> rfl

theorem accessState_resetting (s : State) (p : Party) (via : Via) : (accessState s p).resetting via = s.resetting via := by
  cases p <;> rfl

theorem accessState_keyArmed (s : State) (p q : Party) (sc : Fin 5) : (accessState s p).keyArmed sc q = s.keyArmed sc q := by
  cases p <;> rfl

/-- A served write is a write of its register in the state of the access. -/
theorem partyWrite_served (s : State) (p : Party) (via : Via) (o : Nat) (v : Word) (hs : served s p via)
    (hc : s.capMissing via (s.regAt via o) v = false)
    (hw : ((accessState s p).regWrite p via (s.regAt via o) v).2.sys.swPend = false) :
    LikeState (s.partyWrite p via o v) ((accessState s p).regWrite p via (s.regAt via o) v).2 := by
  obtain ⟨-, hr, hp⟩ := hs
  cases p with
  | host h =>
    obtain ⟨hv, hs, hy, ho⟩ := hp
    have hy' : (s.endRequest false).viaRight h via = .yes := hy
    simp only [State.partyWrite, transact_plain s h true _ hv hs ho, hy']
    exact likeState_endTx _ _ _ _ hw
  | thread t =>
    obtain ⟨hv, hs, hy⟩ := hp
    have hm : s.thrCapMissing t (.reg via o, 0) v = false := by simp [State.thrCapMissing, hc]
    simp only [State.partyWrite, State.asThread, hv, hs, hy, hm, State.thrWrite]
    simp only [accessState] at hw
    simp only [State.swReset, hw, Bool.false_eq_true, if_false, Bool.and_self, if_true, Bool.not_true]
    exact likeState_refl _

/-- A served write of a register that takes no key: its effect, on the state whose parity it has put right. -/
theorem partyWrite_open (s : State) (p : Party) (via : Via) (o : Nat) (v : Word) (r : Rg) (hs : served s p via)
    (hr : s.regAt via o = r) (hk : keyScope via r = none) (hc : s.capMissing via r v = false)
    (hw : (((accessState s p).mendParity r).putReg1 p via r v).sys.swPend = false) :
    LikeState (s.partyWrite p via o v) (((accessState s p).mendParity r).putReg1 p via r v) := by
  have e : ((accessState s p).regWrite p via r v).2 = ((accessState s p).mendParity r).putReg1 p via r v := by
    simp [State.regWrite, accessState_resetting, hs.2.1, State.writeKeyed, hk, State.putChecked, accessState_capMissing, hc]
  subst hr
  rw [← e] at hw ⊢
  exact partyWrite_served s p via o v hs hc hw

/-- A served write of a register that takes a key, with the key armed: the key is used up. -/
theorem partyWrite_keyed (s : State) (p : Party) (via : Via) (o : Nat) (v : Word) (r : Rg) (sc : Fin 5) (hs : served s p via)
    (hr : s.regAt via o = r) (hk : keyScope via r = some sc) (ha : s.keyArmed sc p = true) (hc : s.capMissing via r v = false)
    (hw : ((((accessState s p).setKey sc p false).mendParity r).putReg1 p via r v).sys.swPend = false) :
    LikeState (s.partyWrite p via o v) ((((accessState s p).setKey sc p false).mendParity r).putReg1 p via r v) := by
  have hc' : ((accessState s p).setKey sc p false).capMissing via r v = false := by
    rw [← hc]; cases p <;> rfl
  have e : ((accessState s p).regWrite p via r v).2 = (((accessState s p).setKey sc p false).mendParity r).putReg1 p via r v := by
    simp [State.regWrite, accessState_resetting, hs.2.1, State.writeKeyed, hk, accessState_keyArmed, ha, State.putChecked, hc']
  subst hr
  rw [← e] at hw ⊢
  exact partyWrite_served s p via o v hs hc hw

/-- A served read of a register that is no claim and no stream: its value, and its effect. -/
theorem partyRead_plain (s : State) (p : Party) (via : Via) (o : Nat) (r : Rg) (hs : served s p via) (hr : s.regAt via o = r)
    (hm : isStream r = false) (hi : ∀ h, r ≠ .icClaim h) (hw : ((accessState s p).readEffect p r).sys.swPend = false) :
    LikeState (s.partyRead p via o)
      (((accessState s p).readEffect p r).ret ((accessState s p).regValue p via r)) := by
  have e : (accessState s p).regRead p via r = ((accessState s p).regValue p via r, (accessState s p).readEffect p r) := by
    simp only [State.regRead, accessState_resetting, hs.2.1]
    cases r <;> simp_all
  obtain ⟨-, hx, hp⟩ := hs
  cases p with
  | host h =>
    obtain ⟨hv, hs, hy, ho⟩ := hp
    have hy' : (s.endRequest false).viaRight h via = .yes := hy
    have ha : (s.endRequest false).regAt via o = r := hr
    simp only [accessState] at e hw ⊢
    simp only [State.partyRead, transact_plain s h false _ hv hs ho, hy', State.hostRegRead, ha, hm, Bool.and_false,
      Bool.false_eq_true, if_false, e]
    exact likeState_endTx _ _ _ _ (by simpa using hw)
  | thread t =>
    obtain ⟨hv, hs, hy⟩ := hp
    simp only [accessState] at e hw ⊢
    simp only [State.partyRead, State.asThread, hv, hs, hy, State.thrRead, hr, e]
    simp [State.swReset, hw, likeState_refl]

end Sys2Proof.Machine
end

