-- ==== Sys2Proof/Laws/Issue.lean ====
section
/-! SUPPORT. The issue of an instruction, the registers it writes, and the fields of words. -/

namespace Sys2Proof.Machine

open Sys2Proof.Safety

/-! ### Issue -/

/-- An instruction that issues has its effect. -/
theorem issue_of_canIssue (s : State) (t : Fin 8) (k : State → State) (h : canIssue s t) : s.issue t k = k s := by
  obtain ⟨a, b, c, d⟩ := h
  unfold State.issue
  rw [a, b, c, d]
  rfl

theorem issueReg_of_canIssue (s : State) (t : Fin 8) (rd : Reg) (v : Word) (h : canIssue s t) :
    s.issueReg t rd v = (s.putReg t rd v).advance t := by
  unfold State.issueReg
  rw [issue_of_canIssue s t _ h]

/-- A thread that is not ready issues nothing. -/
theorem issue_of_not_ready (s : State) (t : Fin 8) (k : State → State)
    (h : s.coreRuns = false ∨ s.eng.thr[t].issues = false) : s.issue t k = s := by
  unfold State.issue
  rcases h with h | h <;> rw [h] <;> simp

/-- At a breakpoint it has not met a thread enters DEBUG. -/
theorem issue_of_breakpoint (s : State) (t : Fin 8) (k : State → State) (h : s.coreRuns = true)
    (hi : s.eng.thr[t].issues = true) (hb : s.atBreakpoint t = true) : s.issue t k = s.meetBreak t := by
  unfold State.issue
  rw [h, hi, hb]
  rfl

/-- A PC outside reach is ILLEGAL. -/
theorem issue_of_out_of_reach (s : State) (t : Fin 8) (k : State → State) (h : s.coreRuns = true)
    (hi : s.eng.thr[t].issues = true) (hb : s.atBreakpoint t = false) (hr : s.inReach (s.thrPan t) s.eng.thr[t].pc = false) :
    s.issue t k = s.threadFault t fcIllegal := by
  unfold State.issue
  rw [h, hi, hb, hr]
  rfl

/-! ### Tables by the position of an entry -/

theorem set_get {α : Type} {n : Nat} (t : Tab α n) (i j : Fin n) (v : α) : (t.set i.val v i.isLt)[j] = if i = j then v else t[j] := by
  show (t.set i.val v i.isLt)[j.val] = _
  rw [Vector.getElem_set]
  simp [Fin.ext_iff]

/-! ### Registers -/

@[simp] theorem gReg_zero (s : State) (t : Fin 8) : s.gReg t 0 = 0 := by simp [State.gReg]

theorem updThr_thr (s : State) (t x : Fin 8) (f : Thread → Thread) :
    (s.updThr t f).eng.thr[x] = if t = x then f s.eng.thr[x] else s.eng.thr[x] := tabUpd_get _ _ _ _

theorem updThr_thr_self (s : State) (t : Fin 8) (f : Thread → Thread) : (s.updThr t f).eng.thr[t] = f s.eng.thr[t] := by
  rw [updThr_thr, if_pos rfl]

theorem putG_thr (s : State) (t x : Fin 8) (n : Fin 16) (v : Word) :
    (s.putG t n v).eng.thr[x] = if t = x ∧ n ≠ 0 then { s.eng.thr[x] with g := s.eng.thr[x].g.set n.val v n.isLt } else s.eng.thr[x] := by
  unfold State.putG
  by_cases h : n = 0
  · rw [if_pos h, if_neg (fun k => k.2 h)]
  · rw [if_neg h, updThr_thr]
    by_cases k : t = x <;> simp [h, k]

/-- A g register after a write: g0 keeps reading zero. -/
theorem gReg_putG (s : State) (t x : Fin 8) (n m : Fin 16) (v : Word) :
    (s.putG t n v).gReg x m = if t = x ∧ n = m ∧ n ≠ 0 then v else s.gReg x m := by
  unfold State.gReg
  rw [putG_thr]
  by_cases h0 : m = 0
  · subst h0; simp
  · rw [if_neg h0, if_neg h0]
    by_cases hn : n = 0
    · have : n ≠ m := fun k => h0 (k ▸ hn)
      simp [hn]
    · by_cases k : t = x
      · subst k; simp only [true_and, ne_eq, hn, not_false_eq_true, if_true, and_true]; rw [set_get]
      · simp [k]

@[simp] theorem gReg_advance (s : State) (t x : Fin 8) (n : Fin 16) : (s.advance t).gReg x n = s.gReg x n := by
  unfold State.gReg State.advance
  rw [updThr_thr]
  by_cases h : t = x <;> simp [h]

@[simp] theorem gReg_jump (s : State) (t x : Fin 8) (pc : BitVec 15) (n : Fin 16) : (s.jump t pc).gReg x n = s.gReg x n := by
  unfold State.gReg State.jump
  rw [updThr_thr]
  by_cases h : t = x <;> simp [h]

theorem advance_thr_self (s : State) (t : Fin 8) :
    (s.advance t).eng.thr[t] = { s.eng.thr[t] with pc := pcAdd s.eng.thr[t].pc 1, state := if s.eng.thr[t].stepping then .debug else s.eng.thr[t].state, stepping := false, bpMet := false } :=
  updThr_thr_self _ _ _

theorem advance_thr_of_ne (s : State) (t x : Fin 8) (h : t ≠ x) : (s.advance t).eng.thr[x] = s.eng.thr[x] := by
  unfold State.advance; rw [updThr_thr, if_neg h]

/-- The owner of a resource depends on the allocation alone. -/
theorem packOwner_congr {s u : State} (h : u.sys.panLock = s.sys.panLock) (ha : u.alloc = s.alloc) (b k : Nat) :
    u.packOwner b k = s.packOwner b k := by
  unfold State.packOwner State.allocWord
  rw [h, ha]

/-! ### Fields of words -/

theorem bitsOf_lt {n : Nat} (w : BitVec n) (lo len : Nat) : bitsOf w lo len < 2 ^ len := Nat.mod_lt _ (Nat.two_pow_pos _)

theorem bitsOf_zero {n : Nat} (w : BitVec n) (len : Nat) : bitsOf w 0 len = w.toNat % 2 ^ len := by
  simp [bitsOf]

/-- A bit of a replaced field. -/
theorem testBit_bitsOf {n : Nat} (w : BitVec n) (lo len i : Nat) : (bitsOf w lo len).testBit i = (decide (i < len) && w.getLsbD (lo + i)) := by
  simp [bitsOf, Nat.testBit_mod_two_pow, Nat.testBit_shiftRight, BitVec.getLsbD]

/-- The low 14 bits of a PC replaced. -/
theorem toNat_putBits_pc (pc : BitVec 15) (v : Nat) : (putBits pc 0 14 v).toNat = pc.toNat / 16384 * 16384 + v % 16384 := by
  simp only [putBits, bitsOf, BitVec.toNat_ofNat, Nat.shiftLeft_zero, Nat.shiftRight_zero]
  have := pc.isLt
  omega

/-- The location `off` instructions on. -/
theorem toNat_pcAdd (pc : BitVec 15) (off : Int) :
    (pcAdd pc off).toNat = pc.toNat / 16384 * 16384 + ((((pc.toNat % 16384 : Nat) : Int) + off) % 16384).toNat := by
  unfold pcAdd
  rw [toNat_putBits_pc]
  simp only [bitsOf_zero, Nat.reducePow]
  omega

/-- A bit after one bit was set or cleared. -/
theorem bitOf_putBit {n : Nat} (w : BitVec n) (i j : Nat) (b : Bool) (hj : j < n) :
    bitOf (putBit w i b) j = if i = j then b else bitOf w j := by
  unfold bitOf putBit
  have e : ∀ k, (1 <<< i).testBit k = decide (i = k) := by
    intro k; rw [Nat.one_shiftLeft, Nat.testBit_two_pow]
  cases b
  · simp only [Bool.false_eq_true, if_false, BitVec.getLsbD_and, BitVec.getLsbD_not, BitVec.getLsbD_ofNat, e, hj, decide_true, Bool.true_and]
    by_cases h : i = j <;> simp [h]
  · simp only [if_true, BitVec.getLsbD_or, BitVec.getLsbD_ofNat, e, hj, decide_true, Bool.true_and]
    by_cases h : i = j <;> simp [h]

end Sys2Proof.Machine
end

