-- ==== Sys2Proof/Laws/PerInstr.lean ====
section
/-! SUPPORT. Per command: an instruction of the engine's threads is well-formed whatever its operands. -/

namespace Sys2Proof.Laws.Form

/-- A command that a thread issues has no operand that could break the well-formedness of commands. -/
def Statement (i : Instr) : Prop := ∀ t, Safety.issuer i = some t → i.wellFormed = true

theorem powerOnReset : Statement (.powerOnReset) := nofun
theorem resetNAssert (ns : Nat) : Statement (.resetNAssert ns) := nofun
theorem supplyReset : Statement (.supplyReset) := nofun
theorem hpiReady (bad : BitVec 16) : Statement (.hpiReady bad) := nofun
theorem supplyWarning : Statement (.supplyWarning) := nofun
theorem supplyWarningEnd : Statement (.supplyWarningEnd) := nofun
theorem vdrvLoss : Statement (.vdrvLoss) := nofun
theorem vdrvRestored : Statement (.vdrvRestored) := nofun
theorem vioLoss : Statement (.vioLoss) := nofun
theorem safeInAssert : Statement (.safeInAssert) := nofun
theorem wakePinEdge (rising : Bool) : Statement (.wakePinEdge rising) := nofun
theorem tpPinEdge (n : Fin 8) (rising : Bool) : Statement (.tpPinEdge n rising) := nofun
theorem pllLockLoss : Statement (.pllLockLoss) := nofun
theorem pllRelock (iv : Interval) : Statement (.pllRelock iv) := nofun
theorem lfCrystalChange (running : Bool) : Statement (.lfCrystalChange running) := nofun
theorem rcCalibration (ppm : Int) : Statement (.rcCalibration ppm) := nofun
theorem watchdogExpiry : Statement (.watchdogExpiry) := nofun
theorem scrubberPass (cfg : List Nat) (shadows : ParityUpsets) : Statement (.scrubberPass cfg shadows) := nofun
theorem reqListen (p : Party) : Statement (.reqListen p) := nofun
theorem reqSleep (p : Party) : Statement (.reqSleep p) := nofun
theorem powerStateEntry : Statement (.powerStateEntry) := nofun
theorem wakeUp (cause : BitVec 7) (iv : Interval) : Statement (.wakeUp cause iv) := nofun
theorem tapReset : Statement (.tapReset) := nofun
theorem tapTestInstruction (on : Bool) : Statement (.tapTestInstruction on) := nofun
theorem otprd : Statement (.otprd) := nofun
theorem otpwr (words : Tab Word 16) : Statement (.otpwr words) := nofun
theorem linePortEnable (p : Party) (port : LinePort) : Statement (.linePortEnable p port) := nofun
theorem portIdleSync (port : LinePort) : Statement (.portIdleSync port) := nofun
theorem sofOpportunity (port : LinePort) : Statement (.sofOpportunity port) := nofun
theorem transmitAttempt (port : LinePort) (e : TxEnd) : Statement (.transmitAttempt port e) := nofun
theorem receiveFrame (port : LinePort) (f : Frame) (sof : Instant) (margin : Byte) (e : RxEnd) : Statement (.receiveFrame port f sof margin e) := nofun
theorem tideFrameRx (port : LinePort) (f : Frame) (arrival : Instant) : Statement (.tideFrameRx port f arrival) := nofun
theorem soundRequestRx (port : LinePort) (f : Frame) (sof : Instant) : Statement (.soundRequestRx port f sof) := nofun
theorem soundResultRx (port : LinePort) (f : Frame) : Statement (.soundResultRx port f) := nofun
theorem delayApply : Statement (.delayApply) := nofun
theorem clockMove : Statement (.clockMove) := nofun
theorem tideSecond : Statement (.tideSecond) := nofun
theorem tideBoundary : Statement (.tideBoundary) := nofun
theorem missingPeriod : Statement (.missingPeriod) := nofun
theorem holdoverTimeout : Statement (.holdoverTimeout) := nofun
theorem acquireTimeout : Statement (.acquireTimeout) := nofun
theorem holdmaxExpiry : Statement (.holdmaxExpiry) := nofun
theorem keeperListenEnd : Statement (.keeperListenEnd) := nofun
theorem slewProgress : Statement (.slewProgress) := nofun
theorem searchDwellEnd : Statement (.searchDwellEnd) := nofun
theorem noiseAverage (c12 c34 c56 : Int × Int) : Statement (.noiseAverage c12 c34 c56) := nofun
theorem countCommit (port : LinePort) (now : Nat) : Statement (.countCommit port now) := nofun
theorem quarantineSequence (port : LinePort) : Statement (.quarantineSequence port) := nofun
theorem passiveSuspensionEnd (port : LinePort) : Statement (.passiveSuspensionEnd port) := nofun
theorem deadlineExpiry (i : ItemRef) : Statement (.deadlineExpiry i) := nofun
theorem sluiceDetected (port : LinePort) : Statement (.sluiceDetected port) := nofun
theorem sluiceBurstEnd (port : LinePort) : Statement (.sluiceBurstEnd port) := nofun
theorem releaseUnblocked (safeIn plc pair : Bool) : Statement (.releaseUnblocked safeIn plc pair) := nofun
theorem keepaliveExpiry : Statement (.keepaliveExpiry) := nofun
theorem sluFire (p : Party) (via : Via) (v : Word) : Statement (.sluFire p via v) := nofun
theorem sluPermitGo (p : Party) (via : Via) (v : Word) : Statement (.sluPermitGo p via v) := nofun
theorem millisecondTick : Statement (.millisecondTick) := nofun
theorem sealedWindowBoundary : Statement (.sealedWindowBoundary) := nofun
theorem shadowApply (x : Shadow) : Statement (.shadowApply x) := nofun
theorem panlock (p : Party) : Statement (.panlock p) := nofun
theorem scrubDone : Statement (.scrubDone) := nofun
theorem sysPanrst (p : Party) (v : Word) : Statement (.sysPanrst p v) := nofun
theorem panCtlReset (p : Party) (n : Fin 4) (v : Word) : Statement (.panCtlReset p n v) := nofun
theorem panResetScrubDone (n : Fin 4) : Statement (.panResetScrubDone n) := nofun
theorem sysSwrst (p : Party) (v : Word) : Statement (.sysSwrst p v) := nofun
theorem lineRejoin (p : Party) (v : Word) : Statement (.lineRejoin p v) := nofun
theorem keyWrite (p : Party) (via : Via) (v : Word) : Statement (.keyWrite p via v) := nofun
theorem aliasWrite (p : Party) (addr : BitVec 24) (v : Word) : Statement (.aliasWrite p addr v) := nofun
theorem registerWrite (p : Party) (addr : BitVec 24) (v : Word) : Statement (.registerWrite p addr v) := nofun
theorem tideOffsStep (p : Party) (via : Via) (v : Word) : Statement (.tideOffsStep p via v) := nofun
theorem tideKeeperWrite (p : Party) (via : Via) (v : Word) : Statement (.tideKeeperWrite p via v) := nofun
theorem tideTickRead (p : Party) (via : Via) : Statement (.tideTickRead p via) := nofun
theorem calDateWrite (p : Party) (via : Via) (v : Word) : Statement (.calDateWrite p via v) := nofun
theorem calTimeWrite (p : Party) (via : Via) (v : Word) : Statement (.calTimeWrite p via v) := nofun
theorem calTimeRead (p : Party) (via : Via) : Statement (.calTimeRead p via) := nofun
theorem scheduleArm (p : Party) (n : Fin 4) (k : Fin 32) (v : Word) : Statement (.scheduleArm p n k v) := nofun
theorem scheduleDisarm (p : Party) (n : Fin 4) (k : Fin 32) (v : Word) : Statement (.scheduleDisarm p n k v) := nofun
theorem scheduleCommit (e : Fin 32) : Statement (.scheduleCommit e) := nofun
theorem schTxAction (e : Fin 32) : Statement (.schTxAction e) := nofun
theorem schPinAction (e : Fin 32) : Statement (.schPinAction e) := nofun
theorem pulseEnd (pin : Fin 9) : Statement (.pulseEnd pin) := nofun
theorem schCaptureAction (e : Fin 32) : Statement (.schCaptureAction e) := nofun
theorem schThreadAction (e : Fin 32) : Statement (.schThreadAction e) := nofun
theorem schIrqAction (e : Fin 32) : Statement (.schIrqAction e) := nofun
theorem schChannelAction (e : Fin 32) : Statement (.schChannelAction e) := nofun
theorem channelChange : Statement (.channelChange) := nofun
theorem tqSubmitWord (p : Party) (n : Fin 4) (q : Fin 4) (v : Word) : Statement (.tqSubmitWord p n q v) := nofun
theorem tqSdataWord (p : Party) (n : Fin 4) (q : Fin 4) (v : Word) : Statement (.tqSdataWord p n q v) := nofun
theorem tqCommit (p : Party) (n : Fin 4) (q : Fin 4) : Statement (.tqCommit p n q) := nofun
theorem tqCplCollect (p : Party) (n : Fin 4) (q : Fin 4) (words : Nat) : Statement (.tqCplCollect p n q words) := nofun
theorem tqFlush (p : Party) (n : Fin 4) (q : Fin 4) : Statement (.tqFlush p n q) := nofun
theorem tqCtlWrite (p : Party) (n : Fin 4) (q : Fin 4) (v : Word) : Statement (.tqCtlWrite p n q v) := nofun
theorem rxfCtlWrite (p : Party) (n : Fin 4) (q : Fin 4) (v : Word) : Statement (.rxfCtlWrite p n q v) := nofun
theorem rxfFetchRead (p : Party) (n : Fin 4) (q : Fin 4) (words : Nat) : Statement (.rxfFetchRead p n q words) := nofun
theorem slotW2Write (p : Party) (slot : Fin 1344) (v : Word) : Statement (.slotW2Write p slot v) := nofun
theorem mailboxSeenWrite (p : Party) (slot : Fin 1344) (v : Word) : Statement (.mailboxSeenWrite p slot v) := nofun
theorem filterCtlWrite (p : Party) (n : Fin 4) (k : Fin 128) (v : Word) : Statement (.filterCtlWrite p n k v) := nofun
theorem filterApply (f : Fin 128) : Statement (.filterApply f) := nofun
theorem icPendSet (p : Party) (via : Via) (w : Fin 4) (v : Word) : Statement (.icPendSet p via w v) := nofun
theorem icPendClr (p : Party) (via : Via) (w : Fin 4) (v : Word) : Statement (.icPendClr p via w v) := nofun
theorem icEnSet (p : Party) (via : Via) (w : Fin 4) (v : Word) : Statement (.icEnSet p via w v) := nofun
theorem icEnClr (p : Party) (via : Via) (w : Fin 4) (v : Word) : Statement (.icEnClr p via w v) := nofun
theorem icClaim (p : Party) (via : Via) (h : HostPort) : Statement (.icClaim p via h) := nofun
theorem icDone (p : Party) (via : Via) (h : HostPort) (v : Word) : Statement (.icDone p via h v) := nofun
theorem icDoorbell (p : Party) (via : Via) (v : Word) : Statement (.icDoorbell p via v) := nofun
theorem icUnwind (p : Party) (via : Via) (v : Word) : Statement (.icUnwind p via v) := nofun
theorem holdoffEnd (hg : Fin 8) (tgt : Fin 10) : Statement (.holdoffEnd hg tgt) := nofun
theorem timCtlWrite (p : Party) (via : Via) (n : Fin 8) (v : Word) : Statement (.timCtlWrite p via n v) := nofun
theorem timCntWrite (p : Party) (via : Via) (n : Fin 8) (v : Word) : Statement (.timCntWrite p via n v) := nofun
theorem timLoRead (p : Party) (via : Via) (n : Fin 8) (x : TimPair) : Statement (.timLoRead p via n x) := nofun
theorem timCapnow (p : Party) (via : Via) (n : Fin 8) (v : Word) : Statement (.timCapnow p via n v) := nofun
theorem timCapqRead (p : Party) (via : Via) (n : Fin 8) : Statement (.timCapqRead p via n) := nofun
theorem timerWrap (n : Fin 8) : Statement (.timerWrap n) := nofun
theorem timerMatch (n : Fin 8) : Statement (.timerMatch n) := nofun
theorem engGo (p : Party) (v : Word) : Statement (.engGo p v) := nofun
theorem authenticationDone : Statement (.authenticationDone) := nofun
theorem engKick (p : Party) (v : Word) : Statement (.engKick p v) := nofun
theorem threadStart (p : Party) (via : Via) (n : Fin 8) (v : Word) : Statement (.threadStart p via n v) := nofun
theorem threadHaltWrite (p : Party) (via : Via) (n : Fin 8) (v : Word) : Statement (.threadHaltWrite p via n v) := nofun
theorem wakeCompareReached (t : Fin 8) : Statement (.wakeCompareReached t) := nofun
theorem breakpointHit (t : Fin 8) : Statement (.breakpointHit t) := nofun
theorem add (t : Fin 8) (rd ra rb : Reg) : Statement (.add t rd ra rb) := fun _ _ => rfl
theorem sub (t : Fin 8) (rd ra rb : Reg) : Statement (.sub t rd ra rb) := fun _ _ => rfl
theorem and (t : Fin 8) (rd ra rb : Reg) : Statement (.and t rd ra rb) := fun _ _ => rfl
theorem or (t : Fin 8) (rd ra rb : Reg) : Statement (.or t rd ra rb) := fun _ _ => rfl
theorem xor (t : Fin 8) (rd ra rb : Reg) : Statement (.xor t rd ra rb) := fun _ _ => rfl
theorem andn (t : Fin 8) (rd ra rb : Reg) : Statement (.andn t rd ra rb) := fun _ _ => rfl
theorem shl (t : Fin 8) (rd ra rb : Reg) : Statement (.shl t rd ra rb) := fun _ _ => rfl
theorem shr (t : Fin 8) (rd ra rb : Reg) : Statement (.shr t rd ra rb) := fun _ _ => rfl
theorem sar (t : Fin 8) (rd ra rb : Reg) : Statement (.sar t rd ra rb) := fun _ _ => rfl
theorem mul (t : Fin 8) (rd ra rb : Reg) : Statement (.mul t rd ra rb) := fun _ _ => rfl
theorem mulhu (t : Fin 8) (rd ra rb : Reg) : Statement (.mulhu t rd ra rb) := fun _ _ => rfl
theorem mulhs (t : Fin 8) (rd ra rb : Reg) : Statement (.mulhs t rd ra rb) := fun _ _ => rfl
theorem cmp (t : Fin 8) (rd ra rb : Reg) : Statement (.cmp t rd ra rb) := fun _ _ => rfl
theorem cmpu (t : Fin 8) (rd ra rb : Reg) : Statement (.cmpu t rd ra rb) := fun _ _ => rfl
theorem min (t : Fin 8) (rd ra rb : Reg) : Statement (.min t rd ra rb) := fun _ _ => rfl
theorem max (t : Fin 8) (rd ra rb : Reg) : Statement (.max t rd ra rb) := fun _ _ => rfl
theorem minu (t : Fin 8) (rd ra rb : Reg) : Statement (.minu t rd ra rb) := fun _ _ => rfl
theorem maxu (t : Fin 8) (rd ra rb : Reg) : Statement (.maxu t rd ra rb) := fun _ _ => rfl
theorem clz (t : Fin 8) (rd ra : Reg) : Statement (.clz t rd ra) := fun _ _ => rfl
theorem popc (t : Fin 8) (rd ra : Reg) : Statement (.popc t rd ra) := fun _ _ => rfl
theorem bswap (t : Fin 8) (rd ra : Reg) : Statement (.bswap t rd ra) := fun _ _ => rfl
theorem addImm (t : Fin 8) (rd ra : Reg) (imm : BitVec 16) : Statement (.addImm t rd ra imm) := fun _ _ => rfl
theorem andImm (t : Fin 8) (rd ra : Reg) (imm : BitVec 16) : Statement (.andImm t rd ra imm) := fun _ _ => rfl
theorem orImm (t : Fin 8) (rd ra : Reg) (imm : BitVec 16) : Statement (.orImm t rd ra imm) := fun _ _ => rfl
theorem xorImm (t : Fin 8) (rd ra : Reg) (imm : BitVec 16) : Statement (.xorImm t rd ra imm) := fun _ _ => rfl
theorem shlImm (t : Fin 8) (rd ra : Reg) (n : BitVec 5) : Statement (.shlImm t rd ra n) := fun _ _ => rfl
theorem shrImm (t : Fin 8) (rd ra : Reg) (n : BitVec 5) : Statement (.shrImm t rd ra n) := fun _ _ => rfl
theorem sarImm (t : Fin 8) (rd ra : Reg) (n : BitVec 5) : Statement (.sarImm t rd ra n) := fun _ _ => rfl
theorem mulImm (t : Fin 8) (rd ra : Reg) (imm : BitVec 16) : Statement (.mulImm t rd ra imm) := fun _ _ => rfl
theorem cmpImm (t : Fin 8) (rd ra : Reg) (imm : BitVec 16) : Statement (.cmpImm t rd ra imm) := fun _ _ => rfl
theorem cmpuImm (t : Fin 8) (rd ra : Reg) (imm : BitVec 16) : Statement (.cmpuImm t rd ra imm) := fun _ _ => rfl
theorem lui (t : Fin 8) (rd : Reg) (imm : BitVec 16) : Statement (.lui t rd imm) := fun _ _ => rfl
theorem bext (t : Fin 8) (rd ra : Reg) (pos wid : BitVec 5) : Statement (.bext t rd ra pos wid) := fun _ _ => rfl
theorem bexts (t : Fin 8) (rd ra : Reg) (pos wid : BitVec 5) : Statement (.bexts t rd ra pos wid) := fun _ _ => rfl
theorem bins (t : Fin 8) (rd ra : Reg) (pos wid : BitVec 5) : Statement (.bins t rd ra pos wid) := fun _ _ => rfl
theorem ldw (t : Fin 8) (rt base : Fin 16) (off : BitVec 16) : Statement (.ldw t rt base off) := fun _ _ => rfl
theorem ldh (t : Fin 8) (rt base : Fin 16) (off : BitVec 16) : Statement (.ldh t rt base off) := fun _ _ => rfl
theorem ldhs (t : Fin 8) (rt base : Fin 16) (off : BitVec 16) : Statement (.ldhs t rt base off) := fun _ _ => rfl
theorem ldb (t : Fin 8) (rt base : Fin 16) (off : BitVec 16) : Statement (.ldb t rt base off) := fun _ _ => rfl
theorem ldbs (t : Fin 8) (rt base : Fin 16) (off : BitVec 16) : Statement (.ldbs t rt base off) := fun _ _ => rfl
theorem stw (t : Fin 8) (rt base : Fin 16) (off : BitVec 16) : Statement (.stw t rt base off) := fun _ _ => rfl
theorem sth (t : Fin 8) (rt base : Fin 16) (off : BitVec 16) : Statement (.sth t rt base off) := fun _ _ => rfl
theorem stb (t : Fin 8) (rt base : Fin 16) (off : BitVec 16) : Statement (.stb t rt base off) := fun _ _ => rfl
theorem beq (t : Fin 8) (ra rb : Reg) (off : BitVec 16) : Statement (.beq t ra rb off) := fun _ _ => rfl
theorem bne (t : Fin 8) (ra rb : Reg) (off : BitVec 16) : Statement (.bne t ra rb off) := fun _ _ => rfl
theorem blt (t : Fin 8) (ra rb : Reg) (off : BitVec 16) : Statement (.blt t ra rb off) := fun _ _ => rfl
theorem bge (t : Fin 8) (ra rb : Reg) (off : BitVec 16) : Statement (.bge t ra rb off) := fun _ _ => rfl
theorem bltu (t : Fin 8) (ra rb : Reg) (off : BitVec 16) : Statement (.bltu t ra rb off) := fun _ _ => rfl
theorem bgeu (t : Fin 8) (ra rb : Reg) (off : BitVec 16) : Statement (.bgeu t ra rb off) := fun _ _ => rfl
theorem call (t : Fin 8) (off : BitVec 16) : Statement (.call t off) := fun _ _ => rfl
theorem jr (t : Fin 8) (ra : Fin 16) : Statement (.jr t ra) := fun _ _ => rfl
theorem jalr (t : Fin 8) (rd ra : Fin 16) : Statement (.jalr t rd ra) := fun _ _ => rfl
theorem csrr (t : Fin 8) (rd : Fin 16) (n : BitVec 12) : Statement (.csrr t rd n) := fun _ _ => rfl
theorem csrw (t : Fin 8) (n : BitVec 12) (ra : Fin 16) : Statement (.csrw t n ra) := fun _ _ => rfl
theorem fork (t : Fin 8) (rd ra rc : Fin 16) : Statement (.fork t rd ra rc) := fun _ _ => rfl
theorem join (t : Fin 8) (rd ra : Fin 16) : Statement (.join t rd ra) := fun _ _ => rfl
theorem halt (t : Fin 8) (code : Byte) : Statement (.halt t code) := fun _ _ => rfl
theorem wait (t : Fin 8) (rd : Fin 16) : Statement (.wait t rd) := fun _ _ => rfl
theorem yield (t : Fin 8) : Statement (.yield t) := fun _ _ => rfl
theorem lkAcq (t : Fin 8) (rd : Fin 16) (n : Fin 32) : Statement (.lkAcq t rd n) := fun _ _ => rfl
theorem lkTry (t : Fin 8) (rd : Fin 16) (n : Fin 32) : Statement (.lkTry t rd n) := fun _ _ => rfl
theorem lkRel (t : Fin 8) (rd : Fin 16) (n : Fin 32) : Statement (.lkRel t rd n) := fun _ _ => rfl
theorem fput (t : Fin 8) (rd ra : Fin 16) (q : Fin 4) : Statement (.fput t rd ra q) := fun _ _ => rfl
theorem fgetTq (t : Fin 8) (rd ra : Fin 16) (q : Fin 4) : Statement (.fgetTq t rd ra q) := fun _ _ => rfl
theorem fgetRxf (t : Fin 8) (rd ra : Fin 16) (q : Fin 4) : Statement (.fgetRxf t rd ra q) := fun _ _ => rfl
theorem fgetMbx (t : Fin 8) (rd ra : Fin 16) (slot : BitVec 11) : Statement (.fgetMbx t rd ra slot) := fun _ _ => rfl
theorem fpeekTq (t : Fin 8) (rd ra : Fin 16) (q : Fin 4) : Statement (.fpeekTq t rd ra q) := fun _ _ => rfl
theorem fpeekRxf (t : Fin 8) (rd ra : Fin 16) (q : Fin 4) : Statement (.fpeekRxf t rd ra q) := fun _ _ => rfl
theorem fpeekMbx (t : Fin 8) (rd ra : Fin 16) (slot : BitVec 11) : Statement (.fpeekMbx t rd ra slot) := fun _ _ => rfl
theorem fstatTq (t : Fin 8) (rd : Fin 16) (q : Fin 4) : Statement (.fstatTq t rd q) := fun _ _ => rfl
theorem fstatRxf (t : Fin 8) (rd : Fin 16) (q : Fin 4) : Statement (.fstatRxf t rd q) := fun _ _ => rfl
theorem fstatSch (t : Fin 8) (rd : Fin 16) (n : Fin 32) : Statement (.fstatSch t rd n) := fun _ _ => rfl
theorem flush (t : Fin 8) (rd : Fin 16) (q : Fin 4) : Statement (.flush t rd q) := fun _ _ => rfl
theorem treadTick (t : Fin 8) (rd : Fin 16) : Statement (.treadTick t rd) := fun _ _ => rfl
theorem treadSec (t : Fin 8) (rd : Fin 16) : Statement (.treadSec t rd) := fun _ _ => rfl
theorem treadStatus (t : Fin 8) (rd : Fin 16) : Statement (.treadStatus t rd) := fun _ _ => rfl
theorem sset (t : Fin 8) (rd ra : Fin 16) (n : Fin 32) : Statement (.sset t rd ra n) := fun _ _ => rfl
theorem sclr (t : Fin 8) (rd : Fin 16) (n : Fin 32) : Statement (.sclr t rd n) := fun _ _ => rfl
theorem fltw (t : Fin 8) (ra : Fin 16) (n : Fin 128) : Statement (.fltw t ra n) := fun _ _ => rfl
theorem ring (t : Fin 8) (ra : Fin 16) (n : BitVec 7) : Statement (.ring t ra n) := fun _ _ => rfl
theorem irqDone (t : Fin 8) (rd ra : Fin 16) : Statement (.irqDone t rd ra) := fun _ _ => rfl
theorem crc24 (t : Fin 8) (rd ra : Fin 16) (n : BitVec 6) : Statement (.crc24 t rd ra n) := fun _ _ => rfl
theorem sluice (t : Fin 8) : Statement (.sluice t) := fun _ _ => rfl
theorem hostRead (x : Xfer) (addr : BitVec 24) : Statement (.hostRead x addr) := nofun
theorem hostWrite (x : Xfer) (addr : BitVec 24) (v : Word) : Statement (.hostWrite x addr v) := nofun
theorem hostReadBurst (x : Xfer) (addr : BitVec 24) (part : ReadPart) : Statement (.hostReadBurst x addr part) := nofun
theorem hostWriteBurst (x : Xfer) (addr : BitVec 24) (vs : List Word) : Statement (.hostWriteBurst x addr vs) := nofun
theorem hostSubmit (x : Xfer) (addr : BitVec 24) (vs : List Word) : Statement (.hostSubmit x addr vs) := nofun
theorem hostCommit (x : Xfer) (addr : BitVec 24) : Statement (.hostCommit x addr) := nofun
theorem hostFetch (x : Xfer) (addr : BitVec 24) (part : ReadPart) (ack : Bool) : Statement (.hostFetch x addr part ack) := nofun
theorem hostDoorbell (x : Xfer) (v : Word) : Statement (.hostDoorbell x v) := nofun
theorem hostStatus (x : Xfer) : Statement (.hostStatus x) := nofun
theorem transactionStall (port : HostPort) : Statement (.transactionStall port) := nofun
theorem dbgHalt (x : Xfer) (target : Byte) : Statement (.dbgHalt x target) := nofun
theorem dbgResume (x : Xfer) (target : Byte) : Statement (.dbgResume x target) := nofun
theorem dbgStep (x : Xfer) (target : Byte) : Statement (.dbgStep x target) := nofun
theorem dbgReadReg (x : Xfer) (target index : Byte) : Statement (.dbgReadReg x target index) := nofun
theorem dbgWriteReg (x : Xfer) (target index : Byte) (v : Word) : Statement (.dbgWriteReg x target index v) := nofun
theorem dbgSetBreakpoint (x : Xfer) (target index : Byte) (v : Word) : Statement (.dbgSetBreakpoint x target index v) := nofun
theorem dbgClearBreakpoint (x : Xfer) (target index : Byte) : Statement (.dbgClearBreakpoint x target index) := nofun
theorem vioRestored : Statement (.vioRestored) := nofun
theorem illegalWordIssue (t : Fin 8) : Statement (.illegalWordIssue t) := fun _ _ => rfl
theorem badcmdTransaction (port : HostPort) (op : Byte) : Statement (.badcmdTransaction port op) := nofun

end Sys2Proof.Laws.Form
end

