-- ==== Sys2Proof/Machine/Pins.lean ====
section
/-! DEFINITION. The levels of the control and pair pins as the rest of the state gives them (R28, R29, R58, R239, R770, R858): outputs
that the spec derives, kept in no field. -/

namespace Sys2Proof.Machine

/-- What an output pin does. -/
inductive PinLevel where
  | low | high
  /-- high-impedance -/
  | floats
  /-- the bits of the frame, flag, chip, echo or burst that the port sends -/
  | sends
  deriving DecidableEq, Repr

/-- A level. -/
def levelOf (b : Bool) : PinLevel := if b then .high else .low

/-- An output on VIO: high-impedance while VIO is absent (R770). -/
def State.vioPin (s : State) (l : PinLevel) : PinLevel := if s.pow.vioOk then l else .floats

/-- The controller is in reset or in its start-up: the power state RESET (R791). -/
def State.inReset (s : State) : Bool := s.pow.state == .reset

/-- RUN (Table 6-5). -/
def State.runPin (s : State) : PinLevel := s.vioPin (levelOf (!s.inReset && s.slu.run))

/-- SAFE_OUT: high in RESET, elsewhere while SAFE is latched (Table 6-6, R228, R231, R254). -/
def State.safeOutPin (s : State) : PinLevel := s.vioPin (levelOf (s.inReset || s.slu.safe))

/-- The PLC port sends: a frame on the wire or the own tone. -/
def State.plcSends (s : State) : Bool := s.coreRuns && !s.line.nodrv && (s.line.plc.tx.isSome || bitOf s.slu.burst 0)

/-- PLC_TXEN: low in RESET, LISTEN and SLEEP, without VDRV, and while nothing is sent; within a frame it follows the carrier (R28,
R50, R51, R778). -/
def State.plcTxenPin (s : State) : PinLevel := s.vioPin (if s.plcSends then .sends else .low)

/-- PAIR_TXD: recessive, which is high, while nothing is sent; dominant through the own burst (R28, R223). -/
def State.pairTxdPin (s : State) : PinLevel :=
  s.vioPin (if !s.coreRuns then .high else if bitOf s.slu.burst 1 then .low else if s.line.pair.tx.isSome then .sends else .high)

/-- PAIR_STB: high in RESET, while the pair port is disabled, and in SLEEP; low while it is enabled in RUN and LISTEN (Table 2-4). -/
def State.pairStbPin (s : State) : PinLevel :=
  s.vioPin (levelOf (s.inReset || !s.portOn .pair || s.pow.state == .sleep))

/-- FAULT_N is pulled low, or released (R858). -/
def State.faultNPin (s : State) : PinLevel := if s.faultN then .low else .floats

/-- SYNC_OUT (R266): low in RESET. -/
def State.syncOutPin (s : State) : PinLevel := s.vioPin (levelOf (!s.inReset && s.sched.syncOut))

end Sys2Proof.Machine
end

