-- ==== Sys2Proof/Tests/Slice0.lean ====
section
/-! SUPPORT. Tests: the well-formedness checks, worked examples of the spec, and for every statement states and operands that meet
its hypotheses. -/

open Sys2Proof Sys2Proof.Machine Sys2Proof.Safety

namespace Sys2Proof.Tests

/-! ### Small states -/

/-- A controller that runs, before PANLOCK: port A is the owner's. -/
def run : State := { State.reset with pow := { State.reset.pow with state := .run, ready := true, pllLock := true } }

/-- The same with a thread RUNNING at the first location of ROM. -/
def going (s : State) (t : Fin 8) : State := s.updThr t fun th => { th with state := .running, pc := 0x4000 }
def thr0 : State := going run 0

/-- P0 with every capability and 1 KiB of scratch and of instruction RAM. -/
def caps (s : State) : State := { s with alloc := tabUpd (tabUpd s.alloc 0 fun _ => 0x7C) 4 fun _ => 0x01000100 }
def rich : State := caps thr0

/-- After PANLOCK; with the locks, schedule entries and filters of the last words given to P1. -/
def locked (s : State) : State := { s with sys := { s.sys with panLock := true } }
def shared : State :=
  let a := (List.range 12).foldl (fun a k => tabUpd a (idx 48 (15 + k)) fun _ => 0x55555555) rich.alloc
  locked { rich with alloc := a }

/-- Register `n` of thread 0; a part of queue TQ0, of RXF0 of P0; an armed key of port A. -/
def reg (s : State) (n : Fin 16) (v : Word) : State := s.putG 0 n v
def tq0 (s : State) (f : TxQueue → TxQueue) : State := s.updTq 0 0 f
def rx0 (s : State) (f : RxFifo → RxFifo) : State := s.updRxf 0 0 f
def keyed (s : State) : State := s.setKey 0 (.host .a) true
def entry0 (s : State) (f : SchEntry → SchEntry) : State := s.updSch 0 f

/-- Without VIO. -/
def dry (s : State) : State := { s with pow := { s.pow with vioOk := false } }

/-- A frame of class 7, of LEN 0; a TIDE frame of source 3. -/
def plainFrame : Frame := ⟨0xE000, false, false, false, true, false, 0, false, false, false, 0, []⟩
def tideFrame3 : Frame :=
  ⟨3, false, false, false, true, false, 0, false, true, false, 16, [0, 0, 0, 5, 0, 0, 0, 7, 0xC0, 4, 1, 2, 9, 0, 0, 0]⟩
def soundReq : Frame := ⟨0x40, false, false, false, true, false, 0, false, false, false, 1, [0]⟩
def soundRes : Frame := ⟨0x43, false, false, false, true, false, 0, false, false, false, 3, [0x40, 0, 9]⟩

/-! ### Well-formed commands: one ill-formed term for each check -/

theorem test_frame_data_too_short_refused : Instr.wellFormed (.receiveFrame .plc { plainFrame with len := 1 } ⟨0, 0⟩ 0 (.valid none)) = false := by decide
theorem test_frame_len_65_refused : Instr.wellFormed (.tideFrameRx .plc { plainFrame with len := 65, data := .replicate 65 0 } ⟨0, 0⟩) = false := by decide
theorem test_frame_id_too_wide_refused : Instr.wellFormed (.soundRequestRx .plc { plainFrame with id := 0x10000 } ⟨0, 0⟩) = false := by decide
theorem test_iso_base_id_too_wide_refused : Instr.wellFormed (.soundResultRx .pair { plainFrame with iso := true, id := 0x800 }) = false := by decide
theorem test_frame_accepted : Instr.wellFormed (.receiveFrame .plc plainFrame ⟨0, 0⟩ 0 (.valid none)) = true := by decide
theorem test_no_words_refused : Instr.wellFormed (.tqCplCollect (.host .a) 0 0 0) = false := by decide
theorem test_65_words_refused : Instr.wellFormed (.rxfFetchRead (.host .a) 0 0 65) = false := by decide
theorem test_burst_of_65_refused : Instr.wellFormed (.hostReadBurst (plainXfer .a) 0 ⟨65, false⟩) = false := by decide
theorem test_empty_burst_refused : Instr.wellFormed (.hostWriteBurst (plainXfer .a) 0 []) = false := by decide
theorem test_empty_submit_refused : Instr.wellFormed (.hostSubmit (plainXfer .a) 0 []) = false := by decide
theorem test_empty_fetch_refused : Instr.wellFormed (.hostFetch (plainXfer .a) 0 ⟨0, false⟩ true) = false := by decide
theorem test_good_op_is_no_badcmd : Instr.wellFormed (.badcmdTransaction .a 0x01) = false := by decide
theorem test_bad_op_is_badcmd : Instr.wellFormed (.badcmdTransaction .a 0x0B) = true := by decide

/-! ### Worked examples of the spec -/

/-- What a command leaves. -/
def after (c : Instr) (s : State) (f : State → Bool) : Bool :=
  match exec c s with
  | .next u => f u
  | _ => false

/-- R636, R637: a burst of no whole word is FRAME; so is one that the host holds open past 64 words. -/
theorem test_burst_without_a_word_is_frame :
    after (.hostReadBurst (plainXfer .a) 0 ⟨0, false⟩) run (fun u => u.host[(0 : Fin 2)].last == 4) = true := by decide +kernel
/-- Table 13-10, the words as assembled, and words of other formats by Tables 13-1 to 13-7 and 14-2. -/
theorem test_decode_mul : decodeEngine 0 0x1CA40060 = some (.mulImm 0 (.g 5) (.g 4) 96) := by decide
theorem test_decode_ldw : decodeEngine 0 0x40E50020 = some (.ldw 0 7 5 32) := by decide
theorem test_decode_bext : decodeEngine 0 0x2D2701E0 = some (.bext 0 (.g 9) (.g 7) 0 15) := by decide
theorem test_decode_jr : decodeEngine 0 0x7C0F0000 = some (.jr 0 15) := by decide
theorem test_decode_line_ops : decodeEngine 3 0xD88C0000 = some (.sset 3 4 12 0) ∧ decodeEngine 3 0xEC220003 = some (.crc24 3 1 2 3) ∧
    decodeEngine 3 0xC0CA0000 = some (.fput 3 6 10 0) ∧ decodeEngine 3 0xAC800000 = some (.wait 3 4) ∧
    decodeEngine 3 0xB4200000 = some (.lkAcq 3 1 0) := by decide
/-- R507: a register code of 16 in a format that takes only 0 to 15. -/
theorem test_decode_reserved_register : decodeEngine 3 0xAE000000 = none := by decide
theorem test_decode_zero_and_ones_illegal : decodeEngine 0 0 = none ∧ decodeEngine 0 0xFFFFFFFF = none := by decide
/-- R482, R483: the first function past the last, and a reserved opcode. -/
theorem test_decode_reserved_function : decodeEngine 0 0x04000015 = none := by decide
/-- R433, R502: an idle step issues the word at the PC of the thread whose slot it is: mul g5, g4, 96 in instruction RAM. -/
theorem test_idle_step_issues :
    (match step { (reg rich 4 40).updThr 0 (fun th => { th with pc := 0 }) with
        mem := memPutWord [] 0x40000 0x1CA40060, eng := { ((reg rich 4 40).updThr 0 (fun th => { th with pc := 0 })).eng with tnow := 7 } } with
      | .next u => u.gReg 0 5 == 0xF00 && u.eng.thr[(0 : Fin 8)].pc == 1
      | _ => false) = true := by decide +kernel
/-- Chapter 14, one CRC step: 0x00B704CE with the bits 0, 1, 0 gives 0x00275967. -/
theorem test_crc24_worked_example :
    after (.crc24 0 1 2 3) (reg (reg thr0 1 0x00B704CE) 2 2) (fun u => u.gReg 0 1 == 0x00275967) = true := by decide
/-- Tables 3-11 and 3-12: the CRC of node 14's telemetry frame, and its stuff bits: one in arbitration, two in the data phase. -/
def node14Frame : Frame := ⟨0x808E, false, false, false, false, false, 5, false, false, false, 1, [0x46]⟩
theorem test_crc_of_the_worked_frame : ({ node14Frame with brs := true } : Frame).crc = 0x605DC2 := by decide +kernel
theorem test_stuff_bits_of_the_worked_frame : ({ node14Frame with brs := true } : Frame).stuff = (1, 2) := by decide +kernel
/-- Table 13-10. -/
theorem test_mul_worked : after (.mulImm 0 (.g 5) (.g 4) 96) (reg thr0 4 40) (fun u => u.gReg 0 5 == 0xF00) = true := by decide
theorem test_lui_worked : after (.lui 0 (.g 6) 2) thr0 (fun u => u.gReg 0 6 == 0x20000) = true := by decide
theorem test_bswap_worked : after (.bswap 0 (.g 7) (.g 7)) (reg thr0 7 0x58021C0C) (fun u => u.gReg 0 7 == 0x0C1C0258) = true := by decide
theorem test_shr_worked : after (.shrImm 0 (.g 8) (.g 7) 16) (reg thr0 7 0x0C1C0258) (fun u => u.gReg 0 8 == 3100) = true := by decide
theorem test_bext_worked : after (.bext 0 (.g 9) (.g 7) 0 15) (reg thr0 7 0x0C1C0258) (fun u => u.gReg 0 9 == 600) = true := by decide
/-- R433: a write of g0 is dropped; a thread at the last location of its space goes on at the first. -/
theorem test_g0_reads_zero : after (.addImm 0 (.g 0) (.g 0) 5) thr0 (fun u => u.reg 0 (.g 0) == 0) = true := by decide
theorem test_sub_wraps : after (.sub 0 (.g 3) (.g 1) (.g 2)) (reg thr0 2 1) (fun u => u.gReg 0 3 == 0xFFFFFFFF) = true := by decide
theorem test_sar_keeps_the_sign : after (.sarImm 0 (.g 3) (.g 1) 31) (reg thr0 1 0x80000000) (fun u => u.gReg 0 3 == 0xFFFFFFFF) = true := by decide
theorem test_stb_then_ldbs : after (.stb 0 1 0 0x3FF) (reg rich 1 0x80) (fun u => after (.ldbs 0 2 0 0x3FF) u
    (fun w => w.gReg 0 2 == 0xFFFFFF80)) = true := by decide
/-- Chapter 17, the head sets the date; Table 17-5. -/
theorem test_cal_conversion : secOf 0x07E9091C 0x00032226 = 812345678 := by decide
theorem test_cal_date_read : dateOf 812345678 = 0x77E9091C ∧ timeOf 812345678 = 0x00032226 := by decide
theorem test_cal_leap_day : dateOf 5097600 = 0x27D0021D ∧ dateOf 3160857600 = 0x18340301 := by decide
theorem test_cal_last_second : dateOf 4294967295 = 0x28580207 ∧ timeOf 4294967295 = 0x00061C0F := by decide
/-- Chapter 3, the stamp of a tide frame. -/
theorem test_stamp_bytes : beBytes 812345678 4 ++ beBytes 100000000 4 = [0x30, 0x6B, 0x69, 0x4E, 0x05, 0xF5, 0xE1, 0x00] := by decide
/-- Chapter 11: LEN 8 costs 16 bytes. -/
theorem test_cost_of_len_8 : cost { plainFrame with len := 8 } = 16 := by decide
/-- Table 16-4: 7,000,000 and 6,000,000 ticks more, with RELOAD 9,999,999 and MATCH 1,000,000, is 3,000,000 with a wrap and a match. -/
theorem test_makeup_worked : ({ Timer.reset with cnt := 7000000, reload := 9999999, mtch := 1000000 } : Timer).advance 6000000 =
    (3000000, true, true) := by decide
theorem test_step_takes_the_front :
    step { run with pending := [.vioLoss, .yield 0] } = exec .vioLoss { run with pending := [.yield 0] } := rfl

/-! ### States and operands that meet the hypotheses of each statement -/

theorem witness_IdleStepIsOneCoreCycle : run.pending = [] ∧ State.reset.coreRuns = false := by decide
theorem witness_WellFormedCommandsComplete : Instr.wellFormed (.yield 0) = true ∧ exec .vioLoss run = .next (dry run) := ⟨rfl, rfl⟩
theorem witness_EveryStepKeepsTheMemoryForm : Memory.wf State.reset.mem = true ∧ step State.reset = .next State.reset := ⟨rfl, rfl⟩
theorem witness_NoStepLeavesASoftwareReset :
    run.sys.swPend = false ∧ step { run with pending := [.vioLoss] } = .next (dry run) := ⟨rfl, rfl⟩
theorem witness_LockBitsStayUntilAReset :
    let s := locked { run with sys := { run.sys with dbgLock := true } }
    s.sys.panLock = true ∧ s.sys.dbgLock = true ∧ step { s with pending := [.vioLoss] } = .next (dry s) := ⟨rfl, rfl, rfl⟩
theorem witness_OtpWordsAreProgrammedOnce :
    let s := { run with otp := { run.otp with words := tabUpd run.otp.words 0 fun _ => 1 } }
    s.otp.words[(0 : Fin 16)] ≠ 0 ∧ step { s with pending := [.vioLoss] } = .next (dry s) ∧ exec .vioLoss s = .next (dry s) ∧
      (∀ ws, Instr.vioLoss ≠ .otpwr ws) := ⟨by decide, rfl, rfl, nofun⟩
theorem witness_IssueNeedsAReadyThreadInReach :
    issuer (.yield 0) = some 0 ∧ run.eng.thr[(0 : Fin 8)].issues = false ∧ State.reset.coreRuns = false ∧
      (let s := thr0.updThr 0 fun th => { th with pc := 0x5000 }
       s.coreRuns = true ∧ s.eng.thr[(0 : Fin 8)].issues = true ∧ s.atBreakpoint 0 = false ∧
         s.inReach (s.thrPan 0) s.eng.thr[(0 : Fin 8)].pc = false) ∧
      (thr0.setBp 0 (some ⟨0x4000, 0, 1⟩)).atBreakpoint 0 = true := by decide
/-- Thread 0 of `thr0` may issue: IllegalWordFaultsTheThread, RegisterInstructionsWriteTheirResult,
ImmediateInstructionsWriteTheirResult, BranchesMoveThePc, HaltWaitAndYield's halt and yield, TreadAndCrc24's tread. -/
theorem witness_canIssue : canIssue thr0 0 ∧ canIssue rich 0 ∧ canIssue shared 0 := by
  refine ⟨?_, ?_, ?_⟩ <;> (unfold canIssue; decide)
/-- BitFieldInstructions: P + W = 32, and 33. -/
theorem witness_BitFieldInstructions : (31 : BitVec 5).toNat + ((0 : BitVec 5).toNat + 1) ≤ 32 ∧
    32 < (31 : BitVec 5).toNat + ((1 : BitVec 5).toNat + 1) := by decide
/-- CallsAndJumps: the last location a register may name, and the first it may not. -/
theorem witness_CallsAndJumps : ((reg thr0 1 32767).gReg 0 1).toNat < 32768 ∧ 32768 ≤ ((reg thr0 1 32768).gReg 0 1).toNat := by decide
theorem witness_LoadsReadTheAddressedPart :
    rich.thrPlace (rich.thrPan 0) 0x3FC = some (.scratch, 0x503FC) ∧ rich.thrPlace (rich.thrPan 0) 0x103FC = some (.iram, 0x403FC) ∧
      rich.thrPlace (rich.thrPan 0) 0x20000 = some (.brine 0 0, 0) := by decide
/-- Scratch to its last byte; a brine slot held by the thread, and not held. -/
theorem witness_StoresToMemory :
    let a := ((rich.gReg 0 0).toNat + ((0x3FF : BitVec 16).signExtend 32).toNat) % 2 ^ 32
    a - a % 4 < 0x4000 ∧ a - a % 4 < (rich.scratchRegion (rich.thrPan 0)).2 ∧ rich.sys.swPend = false ∧
      (rich.passSlot 0 ownThread 0).slotHeldBy 0 0 = true ∧ rich.slotHeldBy 0 0 = false ∧
      rich.thrPlace (rich.thrPan 0) 0x20004 = some (.brine 0 1, 0) := by decide
theorem witness_AccessesThatFault :
    rich.thrPlace (rich.thrPan 0) 0x400 = none ∧ rich.thrPlace (rich.thrPan 0) 0 = some (.scratch, 0x50000) ∧ (1 : Nat) % 4 ≠ 0 ∧
      rich.thrPlace (rich.thrPan 0) 0x40000 = some (.rom 0, 0) ∧ rich.thrPlace (rich.thrPan 0) 0x10000 = some (.iram, 0x40000) := by decide
theorem witness_SpecialRegisters : (10 < (11 : BitVec 12).toNat) ∧ (10 : BitVec 12) ∈ ([0, 1, 6, 8, 9, 10] : List (BitVec 12)) := by decide
/-- fork: no thread free, thread 1 free with thread 0 running; join: a halted child, one that runs with the wake compare armed and not,
a number that names none, oneself, a thread that is no child. -/
def busy : State := { run with eng := { run.eng with thr := tabMap run.eng.thr fun th => { th with state := .running, pc := 0x4000 } } }
def child (s : State) : State := (reg s 1 1).updThr 1 fun th => { th with parent := some 0 }
def armed (s : State) (t : Fin 8) : State := s.updThr t fun th => { th with wakeArmed := true, wake := 9 }
theorem witness_ForkAndJoin :
    (∀ c : Fin 8, ¬(busy.thrOwner c = busy.thrPan 0 ∧ busy.eng.thr[c].state = .halted ∧ busy.eng.thr[c].parent = none)) ∧
    (thr0.thrOwner 1 = thr0.thrPan 0 ∧ thr0.eng.thr[(1 : Fin 8)].state = .halted ∧ thr0.eng.thr[(1 : Fin 8)].parent = none) ∧
    thr0.eng.thr[(0 : Fin 8)].state ≠ .halted ∧
    ((child thr0).panThreads ((child thr0).thrPan 0))[((child thr0).gReg 0 1).toNat]? = some 1 ∧
    (child thr0).eng.thr[(1 : Fin 8)].parent = some 0 ∧ (child thr0).eng.thr[(1 : Fin 8)].state = .halted ∧
    (child busy).eng.thr[(1 : Fin 8)].state ≠ .halted ∧ (child busy).eng.thr[(0 : Fin 8)].wakeArmed = false ∧
    (armed (child busy) 0).eng.thr[(0 : Fin 8)].wakeArmed = true ∧ (thr0.panThreads (thr0.thrPan 0))[8]? = none ∧
    (thr0.panThreads (thr0.thrPan 0))[0]? = some 0 ∧ thr0.eng.thr[(1 : Fin 8)].parent ≠ some 0 := by decide
theorem witness_HaltWaitAndYield :
    let s := thr0.updThr 0 fun th => { th with ev := 4, evm := 4 }
    s.events 0 &&& s.eng.thr[(0 : Fin 8)].evm ≠ 0 ∧ thr0.events 0 &&& thr0.eng.thr[(0 : Fin 8)].evm = 0 ∧
      (armed thr0 0).events 0 &&& (armed thr0 0).eng.thr[(0 : Fin 8)].evm = 0 ∧ (armed thr0 0).eng.thr[(0 : Fin 8)].wakeArmed = true ∧
      thr0.eng.thr[(0 : Fin 8)].wakeArmed = false := by decide
/-- Locks: none of its own, one at its own lock or above, a free one, one of another thread; without a waiter, and with one. -/
def holding (s : State) (l : Fin 32) (t : Fin 8) : State := s.setLock l (some t)
def waiting1 : State := (holding thr0 5 0).updThr 1 fun th => { th with state := .waiting, waitOn := some (.lock 3 5) }
theorem witness_Locks :
    (shared.panLocks (shared.thrPan 0))[(0 : Fin 32).val]? = none ∧ (thr0.panLocks (thr0.thrPan 0))[(5 : Fin 32).val]? = some 5 ∧
    (holding thr0 5 0).eng.locks[(5 : Fin 32)] = some 0 ∧ (∀ k : Fin 32, 5 ≤ k → (holding thr0 4 0).eng.locks[k] ≠ some 0) ∧
    thr0.eng.locks[(5 : Fin 32)] = none ∧ (holding thr0 5 1).eng.locks[(5 : Fin 32)] ≠ none ∧
    (holding thr0 5 1).eng.locks[(5 : Fin 32)] ≠ some 0 ∧
    (∀ w : Fin 8, (holding thr0 5 0).eng.thr[w].state ≠ .waiting) ∧
    waiting1.eng.locks[(5 : Fin 32)] = some 0 ∧ waiting1.eng.thr[(1 : Fin 8)].waitOn = some (.lock 3 5) ∧
    (∀ x : Fin 8, x ≠ 1 → waiting1.eng.thr[x].state ≠ .waiting) ∧ canIssue waiting1 0 := by
  refine ⟨by decide, by decide, by decide, by decide, by decide, by decide, by decide, by decide, by decide, by decide, by decide, ?_⟩
  unfold canIssue; decide
theorem witness_WakeCompareAndBreakpoint :
    let w := armed waiting1 1
    w.coreRuns = true ∧ w.eng.thr[(1 : Fin 8)].wakeArmed = true ∧ w.eng.thr[(1 : Fin 8)].state = .waiting ∧
      (let j := w.updThr 1 fun th => { th with waitOn := some (.join 3 2) }
       j.eng.thr[(1 : Fin 8)].waitOn = some (.join 3 2)) ∧
      (let b := thr0.setBp 0 (some ⟨0x4000, 0, 1⟩)
       b.eng.thr[(0 : Fin 8)].state = .running ∧ b.eng.thr[(0 : Fin 8)].bpMet = false ∧ b.eng.bp[(0 : Fin 4)] = some ⟨0x4000, 0, 1⟩ ∧ b.thrPan 0 = 0 ∧
         bitOf (1 : Byte) (b.thrLocal 0) = true) := by decide
/-- fput: no slot of the pan; a queue of the host, of the thread; a slot not held; a ring without a FREE slot; an item that passes, at the
thread's limit and below it. -/
def mine (s : State) : State := tq0 s fun q => { q with ctl := 0x8000 }
def open0 (s : State) : State := tq0 s fun q => { q with ctl := 0x8001, ring := 0x00020001 }
def frame0 (s : State) : State := (s.putSlotWord 0 0 0xE000).passSlot 0 ownThread 0
def quota (s : State) (n : Byte) : State := s.updThr 0 fun th => { th with qdyn := false, quota := n }
theorem witness_FputQueuesAHeldFrame :
    thr0.slotGlobal (thr0.thrPan 0) 1344 = none ∧ thr0.slotGlobal (thr0.thrPan 0) 0 = some 0 ∧
    thr0.isCode 0 (.thread 0) (thr0.tq 0 0).prod = false ∧ (mine thr0).isCode 0 (.thread 0) ((mine thr0).tq 0 0).prod = true ∧
    (mine thr0).slotHeldBy 0 0 = false ∧ (frame0 (mine thr0)).slotHeldBy 0 0 = true ∧
    (frame0 (mine thr0)).freeSlots 0 ((frame0 (mine thr0)).tq 0 0) = [] ∧
    (let s := frame0 (open0 thr0)
     (s.offerJudge 0 0 0).1 = stAccepted ∧ (quota s 1).limit 0 ≤ (quota s 1).charge 0 ∧ (quota s 2).charge 0 < (quota s 2).limit 0 ∧
       (s.freeSlots 0 (s.tq 0 0)).contains 0 = false) := by decide +kernel
/-- A filter whose destination is mailbox slot 2. -/
def mailbox2 (s : State) : State := s.updFlt 0 fun x => { x with ctl := 0x00020200 }
theorem witness_FgetCopiesAndRemoves :
    let d := tq0 (frame0 (mine thr0)) fun q => { q with done := [3] }
    let r := rx0 (frame0 thr0) fun q => { q with ctl := 0x80, frames := [4] }
    d.slotGlobal (d.thrPan 0) 0 = some 0 ∧ d.slotHeldBy 0 0 = true ∧ d.isCode 0 (.thread 0) (d.tq 0 0).prod = true ∧ (d.tq 0 0).done = [3] ∧
    ((frame0 (mine thr0)).tq 0 0).done = [] ∧ r.isCode 0 (.thread 0) (r.rxf 0 0).cons = true ∧ (r.rxf 0 0).frames = [4] ∧
    ((rx0 thr0 fun q => { q with ctl := 0x80 }).rxf 0 0).frames = [] ∧ thr0.isCode 0 (.thread 0) (thr0.tq 0 0).prod = false ∧
    thr0.isCode 0 (.thread 0) (thr0.rxf 0 0).cons = false ∧
    (mailbox2 (frame0 thr0)).mailboxOf 2 = true ∧ (2 : Nat) ≠ 0 ∧ bitOf ((mailbox2 thr0).slotWord 2 2) 9 = false ∧
    bitOf (((mailbox2 thr0).putSlotWord 2 2 0x200).slotWord 2 2) 9 = true := by decide
theorem witness_FstatAndFlush : (thr0.tq 0 0).level < 256 ∧ (thr0.rxf 0 0).frames.length < 256 ∧
    (thr0.panEntries (thr0.thrPan 0))[(31 : Fin 32).val]? = some 31 ∧ (shared.panEntries (shared.thrPan 0))[(0 : Fin 32).val]? = none := by decide
theorem witness_TreadAndCrc24 : (0 : BitVec 6).toNat = 0 ∧ 32 < (33 : BitVec 6).toNat ∧ 1 ≤ (32 : BitVec 6).toNat ∧
    (32 : BitVec 6).toNat ≤ 32 := by decide
/-- Groups from g1 to g12; an entry for an IRQ action, one that the checks refuse, entries in each state. -/
def sched (s : State) (k : SchState) : State := entry0 s fun x => { x with state := k }
def ahead7 (s : State) (k : SchState) : State := entry0 s fun x => { x with state := k, sec := 7 }
def group5 (act : Word) : State := reg (reg (reg (locked rich) 2 7) 3 act) 4 96
theorem witness_SchedulesBySsetAndSclr :
    (¬(1 ≤ (13 : Fin 16).val ∧ (13 : Fin 16).val ≤ 12)) ∧ (shared.panEntries (shared.thrPan 0))[(0 : Fin 32).val]? = none ∧
    (let s := group5 5
     s.sched.ent[(0 : Fin 32)].state = .idle ∧ s.sys.panLock = true ∧ bitsOf (s.gReg 0 3) 0 4 = 5 ∧ bitsOf (s.gReg 0 3) 4 2 ≠ 3 ∧
       bitsOf (s.gReg 0 1) 0 28 < 200000000 ∧ s.checkArm (s.thrPan 0) (some 0) 5 (s.gReg 0 4) = .ok ∧
       s.isPast ⟨s.gReg 0 2, (s.gReg 0 1).setWidth 28⟩ = false ∧ (s.panEntries (s.thrPan 0))[(0 : Fin 32).val]? = some 0) ∧
    (group5 7).checkArm ((group5 7).thrPan 0) (some 0) 7 ((group5 7).gReg 0 4) ≠ .ok ∧
    (sched thr0 .armed).sched.ent[(0 : Fin 32)].state = .armed ∧ (sched thr0 .armed).commitDue 0 = true ∧
    (ahead7 thr0 .armed).commitDue 0 = false ∧ (ahead7 thr0 .armed).sched.ent[(0 : Fin 32)].state = .armed ∧ (sched thr0 .committed).sched.ent[(0 : Fin 32)].state = .committed ∧
    (sched thr0 .armed).sched.ent[(0 : Fin 32)].state ≠ .idle := by decide

/-- Source `k` pending, enabled and aimed at host A and thread 0 with priority 5; in service at thread 0; on the stack of host A. -/
def aimed (s : State) (k : Fin 128) : State := s.updIrq fun q =>
  { q with pend := putBit q.pend k true, en := putBit q.en k true, enHist := .replicate 8 (putBit q.en k true)
           mask := tabUpd q.mask k fun _ => 5, prio := tabUpd q.prio k fun _ => 5 }
def inEngine (s : State) (k : BitVec 7) : State := s.updIrq fun q => { q with eng := tabUpd q.eng 0 fun _ => some k }
def stacked (s : State) (k : BitVec 7) : State := s.updIrq fun q => { q with stack := tabUpd q.stack 0 fun _ => [⟨k, 5⟩] }
theorem witness_RingAndIrqDone :
    thr0.srcOwner 96 = thr0.thrPan 0 ∧ thr0.srcOwner 119 = thr0.thrPan 0 ∧ bitOf thr0.irq.pend 96 = false ∧ thr0.irq.inService 96 = false ∧
    (95 : Fin 128).val < 96 ∧ 119 < (120 : Fin 128).val ∧ (96 : Fin 128).val = ((thr0.gReg 0 0).toNat + (96 : BitVec 7).toNat) % 128 ∧
    (inEngine thr0 96).irq.eng[(0 : Fin 8)] = some 96 ∧ ((reg (inEngine thr0 96) 1 96).gReg 0 1).toNat = (96 : BitVec 7).toNat ∧
    ((inEngine thr0 96).gReg 0 1).toNat ≠ (96 : BitVec 7).toNat ∧ (inEngine thr0 96).irq.cnt[(96 : Fin 128)] = 0 ∧
    thr0.irq.eng[(0 : Fin 8)] = none ∧ (∀ k, thr0.deliverable thr0.irq.claimEn (engTarget 0) k = false) ∧
    (∀ k, (inEngine thr0 96).deliverable (inEngine thr0 96).irq.claimEn (engTarget 0) k = false) ∧
    (aimed thr0 96).deliverable (aimed thr0 96).irq.claimEn (engTarget 0) 96 = true ∧
    (∀ j : Fin 128, j < 96 → (aimed thr0 96).deliverable (aimed thr0 96).irq.claimEn (engTarget 0) j = false) := by decide +kernel
/-- Port A and thread 0 are served in the system block and in the window of P0; so is port A after PANLOCK. -/
theorem witness_served : served rich (.host .a) .sys ∧ served rich (.host .a) (.win 0) ∧ served rich (.thread 0) .sys ∧
    served rich (.thread 0) (.win 0) ∧ served (locked rich) (.host .a) .sys ∧ served (locked rich) (.host .a) (.win 0) ∧
    rich.winClosed 0 = false := by
  refine ⟨?_, ?_, ?_, ?_, ?_, ?_, by decide⟩ <;> (unfold served; decide)
/-- A plain transaction of port A. -/
theorem witness_plain : plain rich (plainXfer .a) ∧ plain (locked rich) (plainXfer .a) := by
  refine ⟨?_, ?_⟩ <;> (unfold plain; decide)
theorem witness_SetAndClearBitsOfSources :
    (96 : Fin 128).val / 32 = (3 : Fin 4).val ∧ (1 : Word).getLsbD ((96 : Fin 128).val % 32) = true ∧ rich.panSrc 0 96 = true ∧
    (let s := rich.updIrq fun q => { q with selHost := tabUpd q.selHost 0 fun t => tabUpd t 0 fun _ => 96 }
     s.selSrc (.host .a) 0 = some 96) ∧
    bitOf (aimed rich 96).irq.pend 96 = true ∧ bitOf rich.irq.pend 96 = false ∧
    ((rich.updIrq fun q => { q with cnt := tabUpd q.cnt 96 fun _ => 15 }).irq.cnt[(96 : Fin 128)] = 15) := by decide
theorem witness_HostClaimsAndCompletions :
    rich.panPort 0 = .a ∧ (aimed rich 96).deliverable (aimed rich 96).irq.en 0 96 = true ∧
    (∀ j, (aimed rich 96).deliverable (aimed rich 96).irq.en 0 j = true → j = 96) ∧ (∀ k, rich.deliverable rich.irq.en 0 k = false) ∧
    (stacked rich 96).irq.stack[HostPort.a.ix] = [⟨96, 5⟩] ∧ (96 : BitVec 7).toNat = (96 : Word).toNat % 128 ∧
    (96 : BitVec 7).toNat ≠ (97 : Word).toNat % 128 ∧ (stacked rich 96).irq.cnt[(96 : Fin 128)] = 0 ∧
    (stacked rich 96).irq.stack[HostPort.a.ix].length ≤ 15 ∧ (1 : Word).getLsbD HostPort.a.ix.val = true ∧ (0x200 : Word).getLsbD 9 = true ∧
    (0x200 : Word).getLsbD 8 = false ∧ (rich.setKey 1 (.host .a) true).keyArmed (Via.win 0).scope (.host .a) = true := by decide +kernel
theorem witness_DoorbellsAndHoldoffs :
    (96 : Word).toNat % 128 = 96 ∧ rich.srcOwner 96 = 0 ∧ rich.srcOwner 96 ∈ rich.portPans (plainXfer .a).port ∧
    bitOf rich.irq.pend 96 = false ∧ rich.irq.inService 96 = false ∧ (0 : Fin 128).val < 96 ∧ rich.eng.thr[(0 : Fin 8)].issues = true ∧
    rich.srcOwner 96 = rich.thrPan 0 := by decide
def tim0 (s : State) (f : Timer → Timer) : State := s.updTim 0 f
theorem witness_TimerRegisters :
    rich.regAt .sys (timAt .sys 0 0) = .tim 0 0 ∧ rich.regAt (.win 0) (timAt (.win 0) 0 0) = .tim 0 0 ∧
    rich.regAt .sys (timAt .sys 0 2) = .tim 0 2 ∧ rich.regAt .sys (timAt .sys 0 1) = .tim 0 1 ∧
    rich.regAt .sys (timAt .sys 0 4) = .tim 0 4 ∧ rich.regAt .sys (timAt .sys 0 6) = .tim 0 6 ∧
    rich.tim.tim[(0 : Fin 8)].en = false ∧ rich.timForeign 0 { rich.tim.tim[(0 : Fin 8)] with ctl := 1 } = false ∧
    ({ rich.tim.tim[(0 : Fin 8)] with ctl := 1 } : Timer).illegal 0 = false ∧
    (tim0 rich fun x => { x with ctl := 1 }).tim.tim[(0 : Fin 8)].en = true ∧ rich.tim.tim[(0 : Fin 8)].pinAt ≠ some rich.eng.tnow ∧
    rich.tim.tim[(0 : Fin 8)].actAt = none ∧ rich.tim.tim[(0 : Fin 8)].capBy = 0 ∧
    (tim0 rich fun x => { x with pinAt := some 0 }).tim.tim[(0 : Fin 8)].pinAt = some rich.eng.tnow ∧ (0x1000 : Word).getLsbD 12 = true ∧
    rich.tim.tim[(0 : Fin 8)].capq.length < 4 ∧ 4 ≤ (tim0 rich fun x => { x with capq := [1, 2, 3, 4] }).tim.tim[(0 : Fin 8)].capq.length ∧
    rich.regAt .sys (capqAt .sys 0) = .capq 0 false := by decide
theorem witness_TimerWrapAndMatch :
    let s := tim0 rich fun x => { x with ctl := 1, mtch := 5 }
    s.timRunning 0 = true ∧ s.tim.tim[(0 : Fin 8)].mtch ≠ 0 ∧ s.tim.tim[(0 : Fin 8)].mtch ≤ s.tim.tim[(0 : Fin 8)].reload ∧
      (tim0 rich fun x => { x with ctl := 1 }).timRunning 0 = true ∧ (tim0 rich fun x => { x with ctl := 1 }).tim.tim[(0 : Fin 8)].mtch = 0 ∧
      (tim0 s fun x => { x with reload := 4 }).tim.tim[(0 : Fin 8)].reload < (tim0 s fun x => { x with reload := 4 }).tim.tim[(0 : Fin 8)].mtch ∧
      rich.timRunning 0 = false := by decide
def auth (s : State) : State := s.updEng fun e => { e with auth := true }
theorem witness_EngineRegisters :
    let s := locked (caps run)
    s.sys.panLock = true ∧ s.sys.scrub = false ∧ s.eng.go = false ∧ s.eng.auth = false ∧ s.otp.authReq = false ∧ s.otp.romOnly = false ∧
      s.panEn 0 = true ∧ (s.panThreads 0).head? = some 0 ∧ s.eng.thr[(0 : Fin 8)].state = .halted ∧ s.eng.thr[(0 : Fin 8)].parent = none ∧
      run.sys.panLock = false ∧ (run.updEng fun e => { e with wdEn := true }).eng.wdEn = true ∧
      run.regAt .sys (tctlAt .sys 0) = .tctl 0 ∧ run.regAt (.win 0) (tctlAt (.win 0) 7) = .tctl 7 ∧
      thr0.eng.thr[(0 : Fin 8)].state ≠ .halted ∧ (auth run).eng.auth = true := by decide
/-- No pan has an image to check; an image fails with a KEY that failed its check. -/
theorem witness_EngineRegisters_images :
    (auth { run with eng := { run.eng with romPan := 15 } }).imagesOk = true ∧ (auth { run with otp := { run.otp with keyBad := true } }).imagesOk = false := by decide +kernel
theorem witness_ScheduleArming :
    let s := entry0 (locked rich) fun x => { x with sec := 7, opnd := 96 }
    s.regAt (.win 0) (schCtlAt 0) = .schCtl 0 ∧ s.sched.ent[(0 : Fin 32)].state = .idle ∧ s.sys.panLock = true ∧ bitsOf (5 : Word) 4 2 ≠ 3 ∧
      bitsOf (5 : Word) 0 4 = 5 ∧ s.sched.ent[(0 : Fin 32)].tick.toNat < 200000000 ∧ s.checkArm 0 none 5 s.sched.ent[(0 : Fin 32)].opnd = .ok ∧
      s.checkArm 0 (some 0) 5 s.sched.ent[(0 : Fin 32)].opnd = .ok ∧
      s.isPast s.sched.ent[(0 : Fin 32)].instant = false ∧ s.schOwner 0 = 0 ∧ s.checkArm 0 none 7 s.sched.ent[(0 : Fin 32)].opnd ≠ .ok ∧
      bitsOf (0x35 : Word) 4 2 = 3 ∧ 200000000 ≤ (200000000 : BitVec 28).toNat ∧
      (sched s .armed).sched.ent[(0 : Fin 32)].state = .armed ∧ (sched s .armed).commitDue 0 = false ∧
      (sched (locked rich) .armed).commitDue 0 = true ∧ (locked rich).ahead (sched (locked rich) .armed).sched.ent[(0 : Fin 32)].instant ≤ 40 ∧
      40 < s.ahead s.sched.ent[(0 : Fin 32)].instant ∧ s.reached s.sched.ent[(0 : Fin 32)].instant = false ∧ (sched s .committed).sched.ent[(0 : Fin 32)].state = .committed ∧
      (entry0 s fun x => { x with state := .armed, slot := some 3 }).sched.ent[(0 : Fin 32)].slot = some 3 := by decide
def due (act : BitVec 9) (o : Word) : State := entry0 (locked rich) fun x => { x with state := .committed, ctl := act, opnd := o }
def use (s : State) (u : LineUse) : State := s.updLine fun l => { l with plcCtl := 1, plc := { l.plc with use := u } }
theorem witness_ScheduleActions :
    (due 4 0x10000).coreRuns = true ∧ (due 4 0x10000).sched.ent[(0 : Fin 32)].state = .committed ∧ (due 4 0x10000).sched.ent[(0 : Fin 32)].act = 4 ∧
    (due 4 0x10000).reached (due 4 0x10000).sched.ent[(0 : Fin 32)].instant = true ∧ (due 4 0x10000).firesBefore 0 = [] ∧
    (ahead7 (due 4 0) .committed).reached (ahead7 (due 4 0) .committed).sched.ent[(0 : Fin 32)].instant = false ∧
    (∀ c ∈ (due 4 0x10000).line.chanPend, c.1 ≠ 0) := by
  have h : (due 4 0x10000).line.chanPend = [] := rfl
  exact ⟨by decide, by decide, by decide, by decide, by decide, by decide, by rw [h]; simp⟩
/-- Entries 0 and 1 of P0 due at one instant. -/
theorem witness_ScheduleActions_order :
    let s := (due 5 96).updSch 1 fun x => { x with state := .committed, ctl := 5, opnd := 97 }
    s.sched.ent[(0 : Fin 32)].state = .committed ∧ s.schOwner 0 = s.schOwner 1 ∧
      s.sched.ent[(0 : Fin 32)].instant = s.sched.ent[(1 : Fin 32)].instant ∧ s.sched.ent[(0 : Fin 32)].act ≠ 6 ∧
      s.sched.ent[(1 : Fin 32)].act = 5 ∧ s.reached s.sched.ent[(1 : Fin 32)].instant = true := by decide
theorem witness_ScheduleActions_irq : (due 5 96).sched.ent[(0 : Fin 32)].act = 5 ∧ bitOf (due 5 96).irq.pend 96 = false := by decide
theorem witness_ScheduleActions_service : (due 5 96).irq.inService 96 = false := by decide
theorem witness_ScheduleActions_source : srcExists 96 = true := rfl
theorem witness_ScheduleActions_thread : ((due 4 0x10000).panThreads 0)[bitsOf (0x10000 : Word) 16 3]? = some 1 := rfl
theorem witness_ScheduleActions_pin :
    (due 2 0x10).sched.ent[(0 : Fin 32)].act = 2 ∧ ((due 2 0x10).panTimers 0)[bitsOf (0x10 : Word) 0 4]? = some 0 ∧ bitsOf (0x18 : Word) 0 4 = 8 ∧
    (due 3 0).sched.ent[(0 : Fin 32)].act = 3 := by decide
theorem witness_ScheduleActions_capture :
    (∀ m : Fin 8, (due 3 0).tim.tim[m].mev ≠ 2) := by
  intro m; fin_cases m <;> decide
theorem witness_ScheduleActions_captureRoom :
    ((due 3 0).panTimers 0)[7]? = some 7 ∧ (due 3 0).tim.tim[(7 : Fin 8)].capBy = 0 ∧ (due 3 0).tim.tim[(7 : Fin 8)].capq.length < 4 := by decide
theorem witness_ScheduleActions_rest :
    (entry0 (due 1 3) fun x => { x with slot := some 3 }).sched.ent[(0 : Fin 32)].slot = some 3 ∧ (due 1 3).deadlinePassed 3 = false ∧
    (due 6 1).planOf 1 = some (1 : BitVec 3).toNat ∧ (due 6 6).planAllowed (6 : BitVec 3).toNat = true ∧ (due 6 1).portEn .plc = false ∧
    (use (due 6 1) .idle).line.plc.use = .idle ∧ (use (due 6 1) .sending).portEn .plc = true ∧ (use (due 6 1) .sending).line.plc.use = .sending ∧
    (tim0 rich fun x => { x with pulse := true }).tim.tim[(0 : Fin 8)].pulse = true ∧
    ({ rich with sched := { rich.sched with syncPulse := true } } : State).sched.syncPulse = true ∧
    (rich.updLine fun l => { l with chanPend := [(0, 3, false)] }).line.chanPend = [(0, 3, false)] := by decide
/-- Queues of the host: open with an item of LEN 1 that has too few words, as many as it needs, too many; refused; and one of a thread. -/
def opened (s : State) (i : OpenItem) : State := tq0 s fun q => { q with ctl := 1, ring := 0x00020001, opened := some i }
def item (ws : List Word) : OpenItem := { hdr := 0x0001E000, words := ws, slot := some 32, iso := false }
theorem witness_SubmittingAnItem :
    rich.isCode 0 (.host .a) (rich.tq 0 0).prod = true ∧ (mine rich).isCode 0 (.host .a) ((mine rich).tq 0 0).prod = false ∧
    (rich.tq 0 0).opened = none ∧ ((opened rich (item [])).tq 0 0).opened = some (item []) ∧ (item []).words.length < 40 ∧
    (item []).slot = some 32 ∧ ({ item [] with slot := none } : OpenItem).slot = none ∧ (item []).words.length < (item []).need ∧
    (item [1, 2]).need < (item [1, 2]).words.length ∧ (item [1]).words.length = (item [1]).need ∧ (item [1]).badWords = false ∧
    rich.badForm (rich.itemFrame (item [1])) = false ∧ rich.lacksRight 0 (rich.itemFrame (item [1])) = false ∧
    (opened rich (item [1])).tooLong 0 ((opened rich (item [1])).tq 0 0).port (rich.itemFrame (item [1])) = false := by decide +kernel
theorem witness_CollectingCompletionsAndFrames :
    let d := tq0 rich fun q => { q with done := [3] }
    let r := rx0 rich fun q => { q with frames := [4] }
    (d.tq 0 0).done = [3] ∧ (r.rxf 0 0).frames = [4] ∧ r.isCode 0 (.host .a) (r.rxf 0 0).cons = true ∧ r.rxWords 4 ≤ 8 ∧ ¬ r.rxWords 4 ≤ 7 ∧
      (rich.tq 0 0).done = [] ∧ (rich.rxf 0 0).frames = [] ∧ (mine rich).isCode 0 (.host .a) ((mine rich).tq 0 0).prod = false ∧
      (rx0 rich fun q => { q with ctl := 0x80 }).isCode 0 (.host .a) ((rx0 rich fun q => { q with ctl := 0x80 }).rxf 0 0).cons = false := by
  decide
theorem witness_QueueAndFifoControl :
    let s := tq0 rich fun q => { q with ring := 0x00020001 }
    let f := rx0 rich fun q => { q with ring := 0x00020001 }
    (s.tq 0 0).en = false ∧ s.ringOk 0 0 (s.tq 0 0).base (s.tq 0 0).depth = true ∧ rich.ringOk 0 0 (rich.tq 0 0).base (rich.tq 0 0).depth = false ∧
      ((open0 rich).tq 0 0).en = true ∧ ((open0 rich).tq 0 0).items = [] ∧ ((open0 rich).tq 0 0).opened = none ∧ (f.rxf 0 0).en = false ∧
      f.ringOk 0 4 (f.rxf 0 0).base (f.rxf 0 0).depth = true ∧ rich.ringOk 0 4 (rich.rxf 0 0).base (rich.rxf 0 0).depth = false ∧
      ((rx0 rich fun q => { q with ctl := 1, ring := 0x00020001 }).rxf 0 0).en = true := by decide
/-- W2 with OWN = 0 and 2; with OWN = 1 and OTHR = 1, of a thread below its limit. A mailbox in LINE. -/
def lineBox (s : State) : State := (mailbox2 s).passSlot 2 ownLine 0
theorem witness_PassingASlot :
    rich.hostRight .a (slotAddr (1343 : Fin 1344).val 2) = .yes ∧ rich.host[HostPort.a.ix].tx = none ∧ rich.slotOwner 0 = rich.thrPan 0 ∧ rich.holds (.host .a) 0 = true ∧
    (rich.passSlot 0 ownThread 0).holds (.thread 0) 0 = true ∧ (rich.passSlot 0 ownThread 0).holds (.host .a) 0 = false ∧
    bitsOf (0x4800 : Word) 14 2 = 1 ∧ (rich.panThreads 0)[bitsOf (0x4800 : Word) 11 3]? = some 1 ∧ rich.charge 1 < rich.limit 1 ∧
    2 ≤ bitsOf (0x8000 : Word) 14 2 ∧
    (let few := locked { rich with alloc := tabUpd rich.alloc 27 fun _ => 0x4000 }
     bitsOf (0x7800 : Word) 14 2 = 1 ∧ (few.panThreads (few.slotOwner 0))[bitsOf (0x7800 : Word) 11 3]? = none ∧
       few.holds (.host .a) 0 = true ∧ few.hostRight .a (slotAddr 0 2) = .yes) ∧
    (let full := rich.updThr 1 fun t => { t with quota := 0, qdyn := false }
     full.limit 1 ≤ full.charge 1 ∧ full.slotHeldBy 0 1 = false) ∧ bitsOf ((lineBox rich).slotWord 2 2) 14 2 = 2 ∧ (lineBox rich).mailboxOf 2 = true ∧
    bitsOf ((rich.passSlot 0 ownThread 0).slotWord 0 2) 14 2 ≠ 2 := by decide +kernel
/-- A filter that is pending: a good one, one whose form is bad, one for the bridge, with the capability and without. -/
def filter0 (s : State) (c : Word) : State := s.updFlt 0 fun x => { x with ctlSh := some c, ready := true }
theorem witness_FiltersApplyAsAWhole :
    rich.regAt (.win 0) (0x800 + 16 * (127 : Fin 128).val) = .flt 127 0 ∧ (filter0 rich 0).flt[(0 : Fin 128)].ready = true ∧
    ((filter0 rich 0x00000101).flt[(0 : Fin 128)].taken).badForm = false ∧
    (∀ e ∈ rich.sys.shBad, ∀ w, e.1 ≠ ShKey.flt 0 w) ∧
    (∃ e ∈ ((filter0 rich 0x101).updSys fun y => { y with shBad := [(.flt 0 0, 0x1800)] }).sys.shBad, e.1 = ShKey.flt 0 0) ∧
    (filter0 rich 0x101).badMailbox ((filter0 rich 0x101).fltOwner 0) ((filter0 rich 0x101).flt[(0 : Fin 128)].taken) = false ∧
    ((filter0 rich 0x101).flt[(0 : Fin 128)].taken).dest = 1 ∧
    ((filter0 rich 0x00040101).flt[(0 : Fin 128)].taken).badForm = true ∧
    ((filter0 rich 0x301).flt[(0 : Fin 128)].taken).badForm = false ∧ ((filter0 rich 0x301).flt[(0 : Fin 128)].taken).dest = 3 ∧
    (filter0 rich 0x301).hasCap ((filter0 rich 0x301).fltOwner 0) .bridge = true ∧ thr0.hasCap 0 .bridge = false ∧
    rich.flt[(0 : Fin 128)].ready = false ∧ (shared.panFilters (shared.thrPan 0))[(0 : Fin 128).val]? = none ∧
    (rich.panFilters (rich.thrPan 0))[(127 : Fin 128).val]? = some 127 := by decide
/-- An allocation that passes the checks is the one after reset, with no further pan; one of P0 with too long a scratch RAM fails. -/
theorem witness_PanlockAndPanReset :
    let s := keyed run
    let bad : State := { s with alloc := tabUpd s.alloc 4 fun _ => 0x1F1F }
    s.keyArmed 0 (.host .a) = true ∧ s.sys.panLock = false ∧ s.allocCheck = 0 ∧ bad.allocCheck ≠ 0 ∧ s.panEn 0 = true ∧
      s.pans[(0 : Fin 4)].rstBusy = false ∧ (1 : Word).toNat % 16 = 2 ^ (0 : Fin 4).val ∧ (0x100 : Word).getLsbD 8 = true ∧
      (run.setKey 1 (.host .a) true).keyArmed (Via.win 0).scope (.host .a) = true ∧
      (run.updPan 0 fun p => { p with rstBusy := true }).pans[(0 : Fin 4)].rstBusy = true := by decide +kernel
def sealed2 : State :=
  locked { rich with alloc := tabUpd (tabUpd (tabUpd rich.alloc 0 fun _ => 0x00100001) 36 fun _ => 0x80000000) 1 fun _ => 0x00100001 }
theorem witness_BudgetsWindowsAndShadows :
    run.pans[(0 : Fin 4)].budgetSh = none ∧ run.sys.shBad = [] ∧
      (run.updPan 0 fun p => { p with budgetSh := some 0 }).pans[(0 : Fin 4)].budgetSh = some 0 ∧ bitsOf (0 : Word) 0 16 ≤ bitsOf (run.ceiling 0) 0 16 ∧
      bitsOf (run.ceiling 0) 16 16 ≤ bitsOf (run.ceiling 0) 16 16 ∧ rateOk 20000 = true ∧ rateOk 20001 = false ∧ run.tide.rateVia = .sys ∧
      run.portIdle .plc = true ∧ policyOk 0x00063F70 = true ∧ policyOk 0x00063F07 = false ∧
      (sealed2.sealed = true ∧ sealed2.panEn 0 = true ∧ sealed2.panEn 1 = true ∧ sealed2.panEn 2 = false ∧ sealed2.panEn 3 = false ∧
        sealed2.windowOf 0 ≠ 0 ∧ sealed2.windowOf 1 ≠ 0 ∧ sealed2.window < 1 ∧ sealed2.coreRuns = true ∧ ({ sealed2 with window := 1 } : State).sealed = true) := by decide +kernel
/-- Keys armed and not, with KEYFAIL set; a held port that rejoins. -/
theorem witness_KeysGuardKeyedRegisters :
    run.keyArmed 0 (.host .a) = false ∧ (run.updSys fun y => { y with keyFail := true }).sys.keyFail = true ∧
    (keyed run).keyArmed 0 (.host .a) = true ∧ (2 : Word).getLsbD 1 = true ∧ (2 : Word).getLsbD 2 = false ∧ (1 : Word).getLsbD 0 = true ∧
    (run.updPort .plc fun x => { x with conf := .held }).line.plc.conf = .held := by decide
theorem witness_RegisterAndAliasWrites :
    (4 : BitVec 24).toNat = 0 + 4 ∧ (0x51004 : BitVec 24).toNat = 0x51000 + 4 ∧ (0x1FC : BitVec 24).toNat = 0 + 0x140 + 4 * (47 : Fin 48).val ∧
    (0x8084 : BitVec 24).toNat = 0x8000 + 128 * 1 + 4 * 1 ∧ (0x68800 : BitVec 24).toNat = 0x68000 + 128 * 16 ∧
    run.sys.panLock = false ∧ (locked run).sys.panLock = true := by decide
theorem witness_HostTransactions :
    rich.hostRight .a 0x50000 = .yes ∧ rich.hostRight .a 0x53FFC = .yes ∧ (0x53FFC : BitVec 24).toNat < 0x54000 ∧ (0x53FFC : BitVec 24).toNat % 4 = 0 ∧
    (∀ k, k < 64 → rich.hostRight .a ((0x53F00 : BitVec 24).toNat + 4 * k) = .yes) ∧ (0x53F00 : BitVec 24).toNat + 4 * 64 ≤ 0x54000 ∧
    (0x1108 : BitVec 24).toNat = 0x1000 + 0x1000 * (0 : Fin 4).val + tqAt 0 2 ∧ (rich.tq 0 0).opened = none ∧
    (tq0 rich fun q => { q with done := [3] }).isCode 0 (.host .a) (rich.tq 0 0).prod = true ∧ State.reset.serves = false ∧ State.reset.pow.vioOk = true ∧
    rich.serves = true ∧ (dry rich).pow.vioOk = false ∧ badCommand 0 = true := by decide
def debug0 : State := rich.updThr 0 fun th => { th with state := .debug }
def bps (s : State) (b : Option Breakpoint) : State := { s with eng := { s.eng with bp := .replicate 4 b } }
theorem witness_DebugCommands :
    (0 : Byte).toNat = 16 * (0 : Fin 4).val + 0 ∧ (rich.panThreads 0)[0]? = some (0 : Fin 8).val ∧ (0 : Fin 4) ∈ rich.portPans .a ∧
    rich.sys.dbgLock = false ∧ rich.otp.dbgOff = false ∧ debug0.eng.thr[(0 : Fin 8)].state = .debug ∧ debug0.eng.thr[(0 : Fin 8)].waitOn = none ∧
    rich.eng.thr[(0 : Fin 8)].state ≠ .debug ∧ rich.eng.thr[(0 : Fin 8)].state ≠ .halted ∧ rich.eng.thr[(1 : Fin 8)].state = .halted ∧ (15 : Byte).toNat = (15 : Fin 16).val ∧ rich.eng.bp[(0 : Fin 4)] = none ∧
    (∀ d : Fin 4, (bps rich (some ⟨0, 0, 1⟩)).eng.bp[d] ≠ none) ∧ (bps rich (some ⟨0, 0, 1⟩)).eng.bp[(3 : Fin 4)] = some ⟨0, 0, 1⟩ ∧
    (rich.updSys fun y => { y with dbgLock := true }).sys.dbgLock = true := by decide
def tide (s : State) (f : Tide → Tide) : State := s.updTide f
def busy0 (s : State) : State := use s .receiving
theorem witness_TideAndCalendarRegisters :
    let k := tide (busy0 (keyed rich)) fun t => { t with sending := true }
    rich.hasCap 0 .keeper = true ∧ rich.hasCap 0 .calset = true ∧ k.keyArmed 0 (.host .a) = true ∧ k.tide.sending = true ∧ k.busIdle = false ∧
      rich.tide.sending = false ∧ bitsOf (0x201 : Word) 0 2 < 3 ∧ 2 ≤ bitsOf (0x201 : Word) 8 4 ∧ bitsOf (0x101 : Word) 8 4 < 2 ∧
      bitsOf (0x203 : Word) 0 2 = 3 ∧ rich.tide.lock = .free ∧ (tide rich fun t => { t with lock := .acquire }).tide.lock ≠ .free ∧
      calValid 0x07E9091C 0x00032226 = true ∧ calValid 0x07E9021D 0 = false ∧ calValid rich.cal.hold[(Party.host .a).ix] 0x00173B3C = false := by decide
theorem witness_TideEvents :
    let t := fun f => tide run f
    run.coreRuns = true ∧ run.tide.sending = false ∧ (t fun t => { t with sending := true }).tide.sending = true ∧ run.tide.early = false ∧
      (t fun t => { t with early := true }).tide.early = true ∧ run.busOff run.stringPort = false ∧ run.portIso run.stringPort = false ∧
      (let m := tide (use run .idle) fun t => { t with lastRx := some 0, keeperReg := 0x302, missing := 1 }
       m.portOn m.stringPort = true ∧ bitsOf m.tide.keeperReg 0 2 = 2 ∧ m.tide.missing + 1 < bitsOf m.tide.keeperReg 8 4 ∧
         bitsOf (tide m fun t => { t with missing := 2 }).tide.keeperReg 8 4 ≤ (tide m fun t => { t with missing := 2 }).tide.missing + 1) ∧
      (t fun t => { t with lock := .locked }).tide.lock = .locked ∧ (t fun t => { t with lock := .acquire }).tide.lock = .acquire ∧
      (t fun t => { t with lock := .holdover }).tide.lock = .holdover ∧
      (t fun t => { t with listening := true }).tide.listening = true ∧ run.tide.heard = none ∧ run.busIdle = true ∧ run.cal.pend = none ∧
      (t fun t => { t with stepPend := some (-5) }).tide.stepPend = some (-5) ∧
      (run.updLine fun l => { l with dlyPend := some (true, 1401) }).line.dlyPend = some (true, 1401) ∧
      (t fun t => { t with slewing := true }).tide.slewing = true ∧ run.tide.slewing = false ∧
      run.tide.slewRate ≤ bitsOf (t fun t => { t with ctl := 0x10000 }).tide.ctl 16 7 ∧
      1 ≤ bitsOf (t fun t => { t with ctl := 0x10000 }).tide.ctl 16 7 := by decide
theorem witness_StringPortFrames :
    let s := use run .idle
    tideFrame3.norm = tideFrame3 ∧ isTide tideFrame3 = true ∧ tideMalformed tideFrame3 = false ∧ tideMalformed { tideFrame3 with stamp := false } = true ∧
      s.stringPort = .plc ∧ s.takes .plc = true ∧ s.portIso .plc = false ∧ s.tide.sending = false ∧ s.tide.lastTracked = none ∧
      s.tide.listening = false ∧ s.tide.lock = .free ∧ s.usable tideFrame3 = true ∧
      (tide s fun t => { t with lock := .locked }).usable tideFrame3 = false ∧ soundReq.norm = soundReq ∧ soundReq.isSoundReq = true ∧ soundMalformed soundReq = false ∧
      bitsOf (soundReq.data.headD 0) 0 6 = s.line.addr.toNat ∧ s.canDrive .plc = true ∧
      (let y := (tide s fun t => { t with fest := true, lock := .locked }).updLine fun l => { l with dlyMain := ⟨9, true, false⟩ }
       y.tide.fest = true ∧ y.lifeUnder = .synced) ∧
      soundRes.norm = soundRes ∧ soundRes.topic = 1 ∧ bitOf (soundRes.data.headD 0) 6 = true ∧ soundMalformed soundRes = false ∧
      (busy0 run).busIdle = false ∧ (busy0 run).takes .plc = true := by decide
def conf (s : State) (f : PortState → PortState) : State := s.updPort .plc f
theorem witness_LinePortEvents :
    run.portEn .plc = false ∧ run.line.plc.closing = false ∧ run.portEn .pair = false ∧ run.line.pair.closing = false ∧
    run.isoMode = false ∧ run.pairTimingOk = true ∧ (run.updLine fun l => { l with pairBt := 0 }).pairTimingOk = false ∧
    (use run .waitTen).line.plc.use = .waitTen ∧ (use run .waitTen).portOn .plc = true ∧ (use run .suspended).line.plc.use = .suspended ∧
    (run.updLine fun l => { l with searching := true }).line.searching = true ∧ run.line.dwell = run.line.plan ∧
    (run.updLine fun l => { l with dwell := 6 }).line.dwell ≠ run.line.plan ∧ run.planAllowed 6 = true ∧
    run.predAtCeil < 0 ∧ (run.updLine fun l => { l with marginRx := 20 }).predAtCeil = 20 - 6 * (bitsOf run.line.policy 4 3 : Nat) ∧
    (run.planAllowed 2 = true ∧ 2 ≠ run.line.plan.toNat ∧ 0 ≤ run.planEstimate (#v[100, 0, 100, 100, 100, 100] : Tab Int 6) 2) ∧ (use run .idle).portEn .plc = true ∧
    (conf run fun x => { x with tecCnt := 95, commits := [⟨1, 0⟩] }).line.plc.commits = [⟨1, 0⟩] ∧ run.busOff .plc = false ∧
    (conf run fun x => { x with conf := .quarantine, qcnt := 62 }).line.plc.conf = .quarantine ∧ (62 : Nat) + 1 < 64 ∧ (64 : Nat) ≤ 63 + 1 ∧
    bitOf run.line.ctl 0 = true ∧ bitOf (run.updLine fun l => { l with ctl := 0 }).line.ctl 0 = false ∧ run.line.plc.guard = false ∧
    (conf run fun x => { x with rejoin := true }).line.plc.rejoin = true ∧
    (let d := (run.putSlotWord 3 5 0x80000000)
     let q := tq0 d fun q => { q with items := [⟨3, .queued, false, none⟩] }
     (q.slotDeadline 3).isSome = true ∧ ((q.tq 0 0).items.any fun i => i.slot == 3 && i.st == .queued) = true) := by decide
/-- An idle PLC port that is Synced, with a frame of P0 queued; one that is not; one on the wire. -/
def live (s : State) : State :=
  (tide (use s .idle) fun t => { t with lock := .locked }).updLine fun l => { l with dlyMain := ⟨9, true, false⟩ }
def queued (s : State) : State :=
  (tq0 (s.putSlotWord 32 0 0xE000) fun q => { q with ctl := 1, ring := 0x00020020, items := [⟨32, .queued, false, none⟩] })
def sending (s : State) (k : TxSource) : State := s.updPort .plc fun x => { x with use := .sending, tx := some ⟨k, tideFrame3, ⟨0, 0⟩, 0⟩ }
theorem witness_SofAndAttempts :
    run.canStart .plc = true ∧ run.canDrive .plc = false ∧ run.portEn .plc = false ∧ (live run).portEn .plc = true ∧ (live run).canStart .plc = true ∧ (live run).canDrive .plc = true ∧ (live run).offers .plc = true ∧
    (let d := tide (use run .idle) fun t => { t with sending := true, due := true }
     d.canDrive .plc = true ∧ d.offers .plc = false ∧ d.ownDue .plc = some (d.line.addr.toNat, .tide)) ∧
    ((live run).updLine fun l => { l with soundOut := some soundRes }).ownDue .plc = some (0x40, .sound { soundRes with id := 0x40 }) ∧
    (live run).gaspSlot .plc = none ∧ (live run).ownDue .plc = none ∧ ((live run).noteHolds .plc).panChoice .plc = none ∧
    (((live (queued run)).noteHolds .plc).panChoice .plc).isSome = true ∧
    (let g := (live (queued run)).updTq 0 3 fun q => { q with ctl := 0x11, items := [⟨33, .queued, false, none⟩] }
     (g.updLine fun l => { l with gasp := [33] }).gaspSlot .plc = some 33) ∧
    (run.port .plc).tx = none ∧ ((sending run .tide).port .plc).tx = some ⟨.tide, tideFrame3, ⟨0, 0⟩, 0⟩ ∧
    tideFrame3.cls = 0 ∧ plainFrame.cls ≠ 0 ∧ run.portIso .plc = false ∧ ((sending run .tide).port .plc).closing = false ∧
    (let w := sending (queued run) (.queue 0 0 32)
     let w := w.putSlotWord 32 1 0x00030000
     w.alive ⟨.queue 0 0 32, tideFrame3, ⟨0, 0⟩, 0⟩ = true ∧ w.wasFlushed 0 0 32 = false ∧ w.rcnt 32 < w.rlim 32 ∧
       w.deadlinePassed 32 = false) := by decide +kernel
/-- A receiver whose first filter takes every frame for RXF0, which has two free slots. -/
def receiver : State := rx0 ((use rich .idle).updFlt 0 fun x => { x with ctl := 0x109, a := 0xE000, b := 0xE000 }) fun q => { q with ctl := 1, ring := 0x00020020 }
theorem witness_Receptions :
    plainFrame.norm = plainFrame ∧ run.takes .plc = false ∧ (use run .idle).takes .plc = true ∧ plainFrame.iso = (use run .idle).portIso .plc ∧
    (use run .idle).takers .plc plainFrame ⟨0, 0⟩ = [] ∧ (use run .idle).busOff .plc = false ∧ receiver.takes .plc = true ∧
    receiver.takers .plc plainFrame ⟨0, 0⟩ = [(0, 0)] ∧ (receiver.flt[(0 : Fin 128)].asOf (receiver.evalAt .plc plainFrame ⟨0, 0⟩)).dest = 1 ∧
    (receiver.flt[(0 : Fin 128)].asOf (receiver.evalAt .plc plainFrame ⟨0, 0⟩)).tgt = (0 : Fin 4).val ∧ receiver.formError plainFrame = none ∧
    receiver.formError { plainFrame with roll := true } = some .formFlags ∧ ({ plainFrame with roll := true } : Frame).norm = { plainFrame with roll := true } ∧
    receiver.answers .plc = false ∧ (live run).answers .plc = true ∧ (live run).takes .plc = true ∧
    (receiver.rxf 0 0).en = true ∧ 32 ∈ receiver.ringSlots 0 (receiver.rxf 0 0).base (receiver.rxf 0 0).depth ∧
    32 ∉ (receiver.rxf 0 0).frames := by decide +kernel
theorem witness_SluiceRequestsLatchSafe :
    bitOf (run.updSlu fun u => { u with ctl := 2 }).slu.ctl 1 = true ∧ (run.updPow fun p => { p with state := .listen }).coreRuns = false ∧ (use run .idle).detects .plc = true ∧ run.detects .pair = false ∧ run.pow.state ≠ .reset ∧
    (run.latching && bitOf run.irq.latch 1) = false ∧ State.reset.pow.state = .reset ∧ rich.hasCap (rich.thrPan 0) .sluice = true ∧
    thr0.hasCap (thr0.thrPan 0) .sluice = false ∧ rich.hasCap 0 .sluice = true ∧ (keyed rich).keyArmed 0 (.host .a) = true ∧
    bitOf (0x1001 : Word) 0 = true ∧ 6 ≤ bitsOf (0x601 : Word) 8 5 ∧ bitsOf (0x1001 : Word) 8 5 ≤ 16 ∧ bitOf (0x1001 : Word) 2 = false ∧
    bitsOf (0x501 : Word) 8 5 < 6 ∧ 16 < bitsOf (0x1101 : Word) 8 5 ∧ rich.keyArmed 0 (.host .a) = false ∧ rich.isoMode = false ∧
    (rich.setKey 1 (.host .a) true).keyArmed (Via.win 0).scope (.host .a) = true ∧ rich.slu.burst = 0 := by decide
def safe (s : State) (f : Sluice → Sluice) : State := s.updSlu fun u => f { u with safe := true }
theorem witness_SluiceReleaseAndKeepAlive :
    (safe rich id).slu.safe = true ∧ (safe rich id).slu.localOk = false ∧ (safe rich id).slu.tideOk = false ∧ rich.slu.waive ≠ 1 ∧
    (safe rich fun u => { u with tideOk := true }).slu.tideOk = true ∧ rich.slu.safeIn = false ∧ rich.slu.det = 0 ∧
    (safe rich fun u => { u with det := 2 }).slu.det ≠ 0 ∧ bitOf (2 : Word) 0 = false ∧ bitOf (2 : Word) 1 = true ∧
    (safe rich fun u => { u with tideOk := true, localOk := true, safeIn := true }).stepsMet = true ∧ (safe rich id).stepsMet = false ∧
    rich.pow.state ≠ .reset ∧ State.reset.pow.state = .reset := by decide
theorem witness_ResetsAndStartUp :
    (run.updEng fun e => { e with wdEn := true }).watching = true ∧ run.watching = false ∧ State.reset.pow.state = .reset ∧
    State.reset.pow.tapHold = false ∧ run.pow.vioOk = true ∧ (dry run).pow.vioOk = false ∧
    (State.reset.updSlu fun u => { u with safeIn := true }).slu.safeIn = true ∧ run.pow.state ≠ .reset ∧ (1 : BitVec 16).getLsbD 0 = true ∧ (2 : BitVec 16).getLsbD 0 = false ∧
    (2 : BitVec 16) ≠ 0 := by decide
def rest (s : State) (st : PowerState) : State := s.updPow fun p => { p with state := st }
theorem witness_SupplyPinsAndClocks :
    run.pow.below = false ∧ run.coreRuns = true ∧ (run.updPow fun p => { p with below := true }).pow.below = true ∧
    bitOf (run.updPow fun p => { p with supCtl := 1 }).pow.supCtl 0 = true ∧ (run.tq 0 3).lgasp = false ∧
    (let g := (queued run).updTq 0 3 fun q => { q with ctl := 0x11, items := [⟨33, .queued, false, none⟩] }
     (g.tq 0 3).lgasp = true ∧ (g.tq 0 3).en = true ∧ g.queueHead 0 3 = some 33) ∧
    (rest run .listen).pow.state = .listen ∧ (rest run .sleep).pow.state = .sleep ∧ (rest run .listen).latching = true ∧
    run.pow.slpWake.getLsbD 1 = true ∧ run.pow.slpWake.getLsbD 0 = false ∧ run.srcOwner (40 + (7 : Fin 8).val) = run.timOwner (7 : Fin 8).val ∧
    (tim0 run fun x => { x with sel := 1 }).tim.tim[(0 : Fin 8)].tpEdge.testBit 0 = true ∧
    (rest run .listen).coreRuns = false ∧ (run.updPow fun p => { p with pllLock := false }).pow.pllLock = false ∧
    (run.updPow fun p => { p with pllLock := false }).coreRuns = false ∧ run.line.nodrv = !(run.updLine fun l => { l with nodrv := !l.nodrv }).line.nodrv := by
  decide
theorem witness_PowerStatesScrubberOtp :
    (run.updPow fun p => { p with req := some .sleep }).pow.req = some .sleep ∧ run.mayRest = true ∧ thr0.mayRest = false ∧ run.pow.req = none ∧
    run.leading = false ∧ (entry0 run fun x => { x with state := .armed }).leading = true ∧ run.sys.shBad = [] ∧
    (rest run .sleep).pow.state = .sleep ∧ run.pow.state = .run ∧ run.sys.parBad = [] ∧ run.sys.cfgPar = false ∧ run.cfgAddr 4 = true ∧
    bitOf run.sys.ctl 1 = false ∧ bitOf (run.updSys fun y => { y with ctl := 2 }).sys.ctl 1 = true ∧ run.tide.sending = false := by decide

end Sys2Proof.Tests
end

/-! SUPPORT. Tide time as the schedule, the parity check of shadows and a move of the clock leave it (chapters 5, 7, 19). -/

namespace Sys2Proof.Machine

/-! ### The schedule leaves tide time alone -/

/-- The parity check of a shadow leaves tide time alone, or discards what the shadow holds of it. -/
theorem State.weed_tide (s : State) (k : ShKey) (f : Tide → Tide) (hf : ∀ u : State, (u.dropShadow k).tide = f u.tide) :
    (s.weed k).tide = s.tide ∨ (s.weed k).tide = f s.tide := by
  unfold State.weed
  split
  · exact .inl rfl
  · split
    · exact .inr (hf _)
    · exact .inl rfl

@[simp] theorem State.weed_chan_tide (s : State) : (s.weed .chan).tide = s.tide :=
  (s.weed_tide .chan id fun _ => rfl).elim id id

@[simp] theorem State.changePlan_tide (s : State) (plan : BitVec 3) : (s.changePlan plan).tide = s.tide := by
  simp [State.changePlan]

@[simp] theorem State.schComplete_tide (s : State) (e : Fin 32) (r : Nat) : (s.schComplete e r).tide = s.tide := by
  simp [State.schComplete, State.schEvent, apply_ite State.tide]

@[simp] theorem State.putLate_tide (s : State) (e : Fin 32) : (s.putLate e).tide = s.tide := by
  simp [State.putLate, apply_ite State.tide]

@[simp] theorem State.writeStatus_tide (s : State) (g code : Nat) (r : Record) : (s.writeStatus g code r).tide = s.tide := by
  unfold State.writeStatus
  cases r.sof <;> cases r.words <;> simp

@[simp] theorem State.giveBack_tide (s : State) (g : Nat) (who : Option (Fin 8)) : (s.giveBack g who).tide = s.tide := by
  cases who <;> simp [State.giveBack, State.passSlot]

@[simp] theorem State.cplEvent_tide (s : State) (n : Fin 4) (q : TxQueue) : (s.cplEvent n q).tide = s.tide := by
  unfold State.cplEvent
  split <;> simp

@[simp] theorem State.arriveOwn_tide (s : State) (n : Fin 4) (k : Nat) : (s.arriveOwn n k).tide = s.tide := by
  simp [State.arriveOwn, apply_ite State.tide]

@[simp] theorem State.reportTx_tide (s : State) (n q : Fin 4) (code : Nat) : (s.reportTx n q code).tide = s.tide := by
  simp [State.reportTx, apply_ite State.tide]

@[simp] theorem State.finishTx_tide (s : State) (n q : Fin 4) (g code : Nat) (who : Option (Fin 8)) (r : Record) :
    (s.finishTx n q g code who r).tide = s.tide := by
  simp [State.finishTx]

@[simp] theorem State.completeFired_tide (s : State) (x : FiredTx) (code : Nat) (r : Record) :
    (s.completeFired x code r).tide = s.tide := by
  simp [State.completeFired, apply_ite State.tide]

@[simp] theorem State.dropTx_tide (s : State) (e : Fin 32) (code : Nat) : (s.dropTx e code).tide = s.tide := by
  unfold State.dropTx
  dsimp only
  split <;> simp

@[simp] theorem State.fireTx_tide (s : State) (e : Fin 32) : (s.fireTx e).tide = s.tide := by
  unfold State.fireTx
  dsimp only
  split
  · rfl
  · simp [apply_ite State.tide]

@[simp] theorem State.firePin_tide (s : State) (e : Fin 32) : (s.firePin e).2.tide = s.tide := by
  unfold State.firePin
  dsimp only
  split
  · rfl
  · split
    · rfl
    · split <;> rfl

@[simp] theorem State.timSource_tide (s : State) (n : Fin 8) (kind : Nat) : (s.timSource n kind).tide = s.tide := by
  simp [State.timSource, apply_ite State.tide]

@[simp] theorem State.timMaster_tide (s : State) (n : Fin 8) (kind : Nat) : (s.timMaster n kind).tide = s.tide := by
  simp [State.timMaster, apply_ite State.tide]

@[simp] theorem State.timCapture_tide (s : State) (n : Fin 8) (trig : Nat) : (s.timCapture n trig).tide = s.tide := by
  simp [State.timCapture, apply_ite State.tide]

@[simp] theorem State.fireCapture_tide (s : State) (e : Fin 32) : (s.fireCapture e).tide = s.tide :=
  foldl_keeps State.tide _ (fun _ _ => State.timCapture_tide _ _ _) _ s

@[simp] theorem State.startThread_tide (s : State) (t : Fin 8) (pc : BitVec 15) : (s.startThread t pc).2.tide = s.tide := by
  unfold State.startThread
  split <;> simp

@[simp] theorem State.fireThread_tide (s : State) (e : Fin 32) : (s.fireThread e).2.tide = s.tide := by
  unfold State.fireThread
  dsimp only
  split <;> simp

@[simp] theorem State.fireChannel_tide (s : State) (e : Fin 32) (late : Bool) : (s.fireChannel e late).tide = s.tide := by
  unfold State.fireChannel
  split
  · simp
  · simp [State.channelDone, apply_ite State.tide]

@[simp] theorem State.schFire_tide (s : State) (e : Fin 32) (late : Bool) : (s.schFire e late).tide = s.tide := by
  have h : ((if late then (s.updSch e fun x => { x with unsync := s.tide.lock != .locked }).putLate e
      else s.updSch e fun x => { x with unsync := s.tide.lock != .locked }).tide) = s.tide := by
    simp [apply_ite State.tide]
  unfold State.schFire
  dsimp only
  split <;> simp [h]

@[simp] theorem State.schLate_tide (s : State) (e : Fin 32) : (s.schLate e).tide = s.tide := by
  simp [State.schLate, apply_ite State.tide]

/-- What a forward move of tide time does to one entry (R210, R263, R281): the step of `State.schMoved`. -/
def State.movedOver (s : State) (e : Fin 32) : State :=
  match s.sched.ent[e].state with
  | .armed => if s.isPast s.sched.ent[e].instant then s.schLate e else s
  | .committed =>
    if s.reached s.sched.ent[e].instant && !(s.line.chanPend.any fun c => c.1 == e) then s.schFire e false else s
  | .idle => s

theorem State.schMoved_eq (s : State) : s.schMoved = (List.finRange 32).foldl State.movedOver s := rfl

theorem State.movedOver_tide (s : State) (e : Fin 32) : (s.movedOver e).tide = s.tide := by
  unfold State.movedOver
  split
  · simp [apply_ite State.tide]
  · simp [apply_ite State.tide]
  · rfl

/-- A forward move over schedule entries fires and completes them, and leaves tide time as the move has set it. -/
@[simp] theorem State.schMoved_tide (s : State) : s.schMoved.tide = s.tide := by
  rw [State.schMoved_eq]
  exact foldl_keeps State.tide State.movedOver State.movedOver_tide _ s

/-! ### Calendar flags, arrivals and the sluice's tide step leave tide time alone -/

@[simp] theorem State.calArrive_tide (s : State) (k : Nat) : (s.calArrive k).tide = s.tide := by
  simp [State.calArrive, apply_ite State.tide]

@[simp] theorem State.calFlags_tide (s : State) (old : Word) (wrapped : Bool) : (s.calFlags old wrapped).tide = s.tide := by
  simp [State.calFlags, apply_ite State.tide]

@[simp] theorem State.calPeriodic_tide (s : State) : s.calPeriodic.tide = s.tide := by
  simp [State.calPeriodic, apply_ite State.tide]

@[simp] theorem State.tryRelease_tide (s : State) : s.tryRelease.tide = s.tide := by
  simp [State.tryRelease, apply_ite State.tide]

@[simp] theorem State.tideStep_tide (s : State) : s.tideStep.tide = s.tide := by
  simp [State.tideStep, apply_ite State.tide]

@[simp] theorem State.keeperStep_tide (s : State) : s.keeperStep.tide = s.tide := by
  simp [State.keeperStep, apply_ite State.tide]

/-! ### Lock states (R189) -/

/-- A lock state entered clears the runs of Table 5-2 where it changes; the rest of tide time stays. -/
theorem State.setTideLock_tide (s : State) (k : Lock) :
    (s.setTideLock k).tide = if s.tide.lock = k then s.tide else { s.tide with lock := k, nearRun := 0, farRun := 0 } := by
  unfold State.setTideLock
  split <;> simp

theorem State.setTideLock_now (s : State) (k : Lock) : (s.setTideLock k).now = s.now := by
  simp only [State.now, State.setTideLock_tide]
  split <;> rfl

theorem State.setTideLock_lock (s : State) (k : Lock) : (s.setTideLock k).tide.lock = k := by
  rw [State.setTideLock_tide]
  split
  · assumption
  · rfl

end Sys2Proof.Machine

/-! SUPPORT. The moves of the clock, the pending tide values and the keeper's role: what each operation of tide time sets. -/

namespace Sys2Proof.Machine

/-! ### The pending rate and period (R200, R653, R673) -/

theorem State.weed_rate_tide (s : State) :
    (s.weed .rate).tide = { s.tide with rateSh := (s.weed .rate).tide.rateSh } := by
  rcases s.weed_tide .rate (fun t => { t with rateSh := none }) fun _ => rfl with h | h <;> rw [h]

theorem State.weed_period_tide (s : State) :
    (s.weed .period).tide = { s.tide with periodSh := (s.weed .period).tide.periodSh } := by
  rcases s.weed_tide .period (fun t => { t with periodSh := none }) fun _ => rfl with h | h <;> rw [h]

/-- A refused value sets CFGERR alone. -/
theorem State.tideRefused_tide (s : State) (via : Via) :
    (s.tideRefused via).tide = { s.tide with cfgErr := (s.tideRefused via).tide.cfgErr } := by
  cases via <;> rfl

theorem State.tideRefused_tideErr (s : State) (via : Via) : (s.tideRefused via).tideErr via = true := by
  cases via with
  | sys => rfl
  | win n => simp [State.tideRefused, State.tideErr]

/-- The pending rate is used up: TIDE_RATE with RCLAMP, or CFGERR, and nothing else of tide time. -/
theorem State.applyRate_tide (s : State) :
    s.applyRate.tide = { s.tide with rate := s.applyRate.tide.rate, rateSh := none, rclamp := s.applyRate.tide.rclamp
                                     cfgErr := s.applyRate.tide.cfgErr } := by
  have hw := s.weed_rate_tide
  unfold State.applyRate
  dsimp only
  split
  next h => rw [hw] at h ⊢; exact congrArg (fun x => { s.tide with rateSh := x }) h
  next v h =>
    split
    · rw [State.updTide_tide, hw]
    · rw [State.tideRefused_tide, State.updTide_tide, hw]

/-- The pending period is used up: TIDE_PERIOD, or CFGERR, and nothing else of tide time. -/
theorem State.applyPeriod_tide (s : State) :
    s.applyPeriod.tide = { s.tide with period := s.applyPeriod.tide.period, periodSh := none
                                       cfgErr := s.applyPeriod.tide.cfgErr } := by
  have hw := s.weed_period_tide
  unfold State.applyPeriod
  dsimp only
  split
  next h => rw [hw] at h ⊢; exact congrArg (fun x => { s.tide with periodSh := x }) h
  next v h =>
    split
    · rw [State.updTide_tide, hw]
    · rw [State.tideRefused_tide, State.updTide_tide, hw]

/-! ### The clock and what waits to move it (R209) -/

/-- Tide time now, the pending step and the pending delay adjustment. -/
def State.clock (s : State) : Instant × Option Int × Int := (s.now, s.tide.stepPend, s.tide.adjPend)

theorem State.clock_congr {s u : State} (h : u.tide = s.tide) : u.clock = s.clock := by
  simp [State.clock, State.now, h]

/-- A move sets the clock, modulo the range of tide time, and leaves what is still pending. -/
theorem State.moveClock_clock (s : State) (d : Int) :
    (s.moveClock d).clock = (instantOf ((s.now.ticks : Int) + d), s.tide.stepPend, s.tide.adjPend) := by
  simp [State.clock, State.now, State.moveClock, apply_ite State.tide, State.shiftKept, Tide.shifted]

theorem State.adjustLock_clock (s : State) (d : Int) : (s.adjustLock d).clock = s.clock := by
  unfold State.adjustLock
  split
  · simp [State.clock, State.now]
  · rfl

theorem State.softStep_clock (s : State) : s.softStep.clock = s.clock := by
  simp [State.clock, State.now, State.softStep, Tide.endSlew]

/-- A pending step with no calendar step: the clock moves by the step and the adjustment together, and neither is left pending. -/
theorem State.applyMoves_clock (s : State) (d : Int) (hc : s.cal.pend = none) (hd : s.tide.stepPend = some d) :
    s.applyMoves.clock = (instantOf ((s.now.ticks : Int) + (d + s.tide.adjPend)), none, 0) := by
  have hstep : s.tide.stepAfter (s.cal.pend.getD 0) = d := by simp [Tide.stepAfter, hc, hd]
  unfold State.applyMoves
  simp only [hc] at hstep ⊢
  rw [apply_ite State.clock, State.softStep_clock, ite_self, State.adjustLock_clock, State.moveClock_clock, hstep]
  rfl

/-! ### The keeper's role -/

/-- The controller starts sending: LOCKED, its listen, its deferring and its count of missed periods over; the clock stays. -/
theorem State.startSending_tide (s : State) :
    s.startSending.tide =
      { (s.setTideLock .locked).tide with
          sending := true, listening := false, missing := 0, defer := false
          epochNext := some (((s.setTideLock .locked).tide.epochRx.map (· + 1)).getD 0) } := by
  simp [State.startSending]

end Sys2Proof.Machine

/-! SUPPORT. The events of tide time (chapter 5), and the proof of their statement. -/

namespace Sys2Proof.Machine

open Sys2Proof.Safety

/-- An event of a domain that the core clock drives, in a state where it runs. -/
theorem leads_of_running {c : Instr} {s : State} {k : State → State} {P : State → Prop} (hr : s.coreRuns = true)
    (he : exec c s = .next (s.whileRunning k)) (hP : P (k s)) : Leads c s P :=
  ⟨k s, by rw [he, State.whileRunning, if_pos hr], hP⟩

/-! ### Seconds and boundaries (R175, R178) -/

/-- A second sets TIDE_TICK and TIDE_SEC; what else it does to tide time is the pending period's application. -/
theorem State.secondWrap_now (s : State) : s.secondWrap.now = ⟨s.tide.sec + 1, 0⟩ := by
  simp only [State.secondWrap, State.newSecond, State.now, State.calPeriodic_tide, State.calFlags_tide]
  rw [State.applyPeriod_tide]
  rfl

/-- A boundary whose frame has not gone out early: it is due, and one still due counts as not sent. -/
theorem State.boundary_of_waiting (s : State) (hs : s.tide.sending = true) (he : s.tide.early = false) :
    s.boundary =
      (s.updTide fun t => { t with tskip := if t.due then t.tskip + 1 else t.tskip, due := true }).applyRate := by
  simp [State.boundary, State.updTide, hs, he]

/-- A boundary whose frame has gone out early ends the mark alone. -/
theorem State.boundary_of_early (s : State) (hs : s.tide.sending = true) (he : s.tide.early = true) :
    s.boundary = (s.updTide fun t => { t with early := false }).applyRate := by
  simp [State.boundary, State.updTide, hs, he]

/-! ### Missed periods (R191, R192) -/

/-- A missed period of a standby keeper that waits: it counts, and at the limit of TIDE_KEEPER.MISS the keeper takes over, unless its
port is bus-off. -/
theorem State.missedPeriod_of_standby (s : State) (hs : s.tide.sending = false) (hl : s.tide.lastRx ≠ none)
    (hp : s.portOn s.stringPort = true) (hi : s.portIso s.stringPort = false) (hm : bitsOf s.tide.keeperReg 0 2 = 2) :
    s.missedPeriod =
      let s1 := s.updTide fun t => { t with missing := min 15 (t.missing + 1) }
      if min 15 (s.tide.missing + 1) < bitsOf s.tide.keeperReg 8 4 ∨ s.busOff s.stringPort = true then s1
      else (s1.startSending.updTide fun t => { t.freeze with due := true, takeover := true }).settle := by
  simp [State.missedPeriod, State.keeperMode, hm, hs, hl, hp, hi]

/-! ### Lock states, listens (R189, R196) -/

theorem State.startSending_now (s : State) : s.startSending.now = s.now := by
  rw [State.now, State.startSending_tide]
  exact s.setTideLock_now .locked

theorem State.startSending_lock (s : State) : s.startSending.tide.lock = .locked := by
  rw [State.startSending_tide]
  exact s.setTideLock_lock .locked

theorem State.toHoldover_of_locked (s : State) (hs : s.tide.sending = false) (hl : s.tide.lock = .locked) :
    s.toHoldover = ((s.setTideLock .holdover).updTide Tide.freeze).settle := by
  simp [State.toHoldover, hs, hl]

theorem State.lockLost_of_lock (s : State) (k : Lock) (hs : s.tide.sending = false) (hl : s.tide.lock = k) :
    s.lockLost k = s.toFree.settle := by
  simp [State.lockLost, hs, hl]

theorem State.lockLost_lock (s : State) (k : Lock) (hs : s.tide.sending = false) (hl : s.tide.lock = k) :
    (s.lockLost k).tide.lock = .free := by
  rw [s.lockLost_of_lock k hs hl, State.settle_tide]
  exact s.setTideLock_lock .free

/-- The end of a listen that heard nothing. -/
theorem State.listenEnd_of_silence (s : State) (hl : s.tide.listening = true) (hh : s.tide.heard = none)
    (hb : s.busOff s.stringPort = false) : s.listenEnd = s.startSending.settle := by
  simp [State.listenEnd, hl, hh, hb]

/-! ### Moves and delays at the bus idle (R77, R209) -/

theorem State.clockIdle_of_step (s : State) (d : Int) (hb : s.busIdle = true) (hd : s.tide.stepPend = some d) :
    s.clockIdle = s.applyMoves.settle := by
  simp [State.clockIdle, hb, hd]

/-- A SOUND result's delay goes into the register that it names, whatever it does to the clock. -/
theorem State.putDelay_line (s : State) (k : Bool) (v : BitVec 16) :
    (s.putDelay k v).line =
      if k then { s.line with dlyBackup := ⟨v, decide (v.toNat ≤ 1400), decide (1400 < v.toNat)⟩ }
      else { s.line with dlyMain := ⟨v, decide (v.toNat ≤ 1400), decide (1400 < v.toNat)⟩ } := by
  have hrange : (!decide (v.toNat ≤ 1400)) = decide (1400 < v.toNat) := by
    rw [← decide_not, decide_eq_decide, Nat.not_le]
  simp [State.putDelay, apply_ite State.line, hrange]

theorem State.applyDelay_of_idle (s : State) (k : Bool) (v : BitVec 16) (hb : s.busIdle = true)
    (hd : s.line.dlyPend = some (k, v)) :
    s.applyDelay = ((s.updLine fun l => { l with dlyPend := none }).putDelay k v).settle := by
  simp [State.applyDelay, hb, hd]

/-! ### Slews (R201) -/

/-- The rate of a slew for its next second: at least 1 ppm, at most 1 ppm from the rate before, within the limit. -/
theorem slewNext_bounds (lim r left : Nat) :
    1 ≤ slewNext lim r left ∧ slewNext lim r left ≤ r + 1 ∧ r ≤ slewNext lim r left + 1 ∧
      (r ≤ lim → 1 ≤ lim → slewNext lim r left ≤ lim) := by
  unfold slewNext
  dsimp only
  split
  next h =>
    simp only [Bool.and_eq_true, decide_eq_true_eq] at h
    omega
  next =>
    split
    next h =>
      simp only [Bool.and_eq_true, decide_eq_true_eq] at h
      omega
    next => omega

/-! ### The statement -/

/-- Settles O51: each event is a field equation of its operation. The slew clause (R201) rests on log 69: SLEW_PROGRESS sets the rate
of the second that follows. -/
theorem tideEvents : Obligations.TideEvents := by
  unfold Obligations.TideEvents
  intro s hr
  refine ⟨?second, ?due, ?early, ?notSending, ?missed, ?holdover, ?acquire, ?holdmax, ?listen, ?move, ?delay, ?slew, ?noSlew⟩
  case second =>
    have h := s.secondWrap_now
    exact leads_of_running hr rfl ⟨congrArg Instant.tick h, congrArg Instant.sec h⟩
  case due =>
    intro hs he
    refine leads_of_running hr rfl ?_
    rw [s.boundary_of_waiting hs he, State.applyRate_tide]
    exact ⟨rfl, rfl, rfl⟩
  case early =>
    intro hs he
    refine leads_of_running hr rfl ?_
    rw [s.boundary_of_early hs he, State.applyRate_tide]
    exact ⟨rfl, rfl, rfl, rfl⟩
  case notSending =>
    intro hs
    show Host.Outcome.next (s.whileRunning State.boundary) = _
    simp [State.whileRunning, State.boundary, hs]
  case missed =>
    intro hs hl hp hi hm hn
    have h := s.missedPeriod_of_standby hs hl hp hi hm
    rw [Nat.min_eq_right (show s.tide.missing + 1 ≤ 15 by omega)] at h
    refine ⟨fun hlt => leads_of_running hr rfl ?_, fun hb hle => leads_of_running hr rfl ?_⟩
    · rw [h, if_pos (.inl hlt)]
      exact ⟨Nat.min_eq_right (by omega), hs⟩
    · have hge : ¬(s.tide.missing + 1 < bitsOf s.tide.keeperReg 8 4 ∨ s.busOff s.stringPort = true) := by
        simp [hb, Nat.not_lt.2 hle]
      rw [h, if_neg hge, State.settle_tide, State.updTide_tide, Tide.freeze, Tide.setRate, State.startSending_tide]
      exact ⟨rfl, State.setTideLock_lock _ .locked, rfl, rfl⟩
  case holdover =>
    intro hs hl
    refine leads_of_running hr rfl ?_
    rw [s.toHoldover_of_locked hs hl, State.settle_tide]
    exact ⟨s.setTideLock_lock .holdover, congrArg Instant.sec (s.setTideLock_now .holdover)⟩
  case acquire => exact fun hs hl => leads_of_running hr rfl (s.lockLost_lock .acquire hs hl)
  case holdmax => exact fun hs hl => leads_of_running hr rfl (s.lockLost_lock .holdover hs hl)
  case listen =>
    intro hl hh hb
    refine leads_of_running hr rfl ?_
    rw [s.listenEnd_of_silence hl hh hb, State.settle_tide]
    have h := s.startSending_now
    exact ⟨by rw [State.startSending_tide], by rw [State.startSending_tide], s.startSending_lock,
      congrArg Instant.sec h, congrArg Instant.tick h⟩
  case move =>
    intro hb hc d hd
    refine leads_of_running hr rfl ?_
    have h := s.applyMoves_clock d hc hd
    rw [← State.clock_congr (State.settle_tide _), ← s.clockIdle_of_step d hb hd] at h
    simpa [State.clock] using h
  case delay =>
    intro hb k d hd
    refine leads_of_running hr rfl ?_
    simp only [s.applyDelay_of_idle k d hb hd, State.settle_line_dlyPend, State.settle_line_dlyBackup,
      State.settle_line_dlyMain, State.putDelay_line]
    cases k <;> exact ⟨rfl, rfl⟩
  case slew =>
    intro hs
    refine leads_of_running hr rfl ?_
    rw [State.slewSecond, if_pos hs, State.updTide_tide]
    exact ⟨rfl, slewNext_bounds _ _ _⟩
  case noSlew =>
    intro hs
    show Host.Outcome.next (s.whileRunning State.slewSecond) = _
    simp [State.whileRunning, State.slewSecond, hs]

end Sys2Proof.Machine

/-! SUPPORT. Served accesses of the tide and calendar registers (chapters 17, 20, 22), and the proof of their statement. -/

namespace Sys2Proof.Machine

open Sys2Proof.Safety

/-! ### The state in which a served write acts -/

/-- A party's access, its key used up where the register takes one. -/
def State.unkeyed (s : State) (p : Party) (key : Option (Fin 5)) : State :=
  key.elim (accessState s p) fun sc => (accessState s p).setKey sc p false

/-- The state on which a served write of register `r` has its effect: a waiting request ended, the key used up, the parity put right. -/
def State.writing (s : State) (p : Party) (key : Option (Fin 5)) (r : Rg) : State := (s.unkeyed p key).mendParity r

theorem State.mendParity_eq (s : State) (r : Rg) :
    s.mendParity r =
      { s with sys := { s.sys with parBad := (s.mendParity r).sys.parBad, shBad := (s.mendParity r).sys.shBad } } := by
  unfold State.mendParity
  split <;> rfl

/-- It differs from the state before in the waiting request, the keys and the parity mismatches alone. -/
theorem State.writing_eq (s : State) (p : Party) (key : Option (Fin 5)) (r : Rg) :
    s.writing p key r =
      { s with
          pow := (accessState s p).pow
          sys := { s.sys with keys := (s.unkeyed p key).sys.keys, parBad := (s.writing p key r).sys.parBad
                              shBad := (s.writing p key r).sys.shBad } } :=
  (State.mendParity_eq _ r).trans (by cases p <;> cases key <;> rfl)

section
variable (s : State) (p : Party) (key : Option (Fin 5)) (r : Rg)

@[simp] theorem State.writing_tide : (s.writing p key r).tide = s.tide := by rw [State.writing_eq]
@[simp] theorem State.writing_cal : (s.writing p key r).cal = s.cal := by rw [State.writing_eq]
@[simp] theorem State.writing_now : (s.writing p key r).now = s.now := by rw [State.writing_eq]; rfl
@[simp] theorem State.writing_busIdle : (s.writing p key r).busIdle = s.busIdle := by rw [State.writing_eq]; rfl
@[simp] theorem State.writing_hasCap (n : Fin 4) (c : Cap) : (s.writing p key r).hasCap n c = s.hasCap n c := by
  rw [State.writing_eq]; rfl
@[simp] theorem State.writing_swPend : (s.writing p key r).sys.swPend = s.sys.swPend := by rw [State.writing_eq]

/-- The key is used up. -/
theorem State.writing_keyArmed (sc : Fin 5) : (s.writing p (some sc) r).keyArmed sc p = false := by
  have h : (s.writing p (some sc) r).sys.keys = tabUpd (accessState s p).sys.keys sc fun m => putBit m p.ix.val false := by
    rw [State.writing_eq]; rfl
  rw [State.keyArmed, h, tabUpd_get, if_pos rfl, bitOf_putBit _ _ _ _ p.ix.isLt, if_pos rfl]

end

/-! ### Served writes and reads by the registers' offsets -/

/-- A register's offset: that in the system block, or that in a window. -/
def regOffset (via : Via) (sys win : Nat) : Nat :=
  match via with
  | .sys => sys
  | .win _ => win

/-- A register at fixed offsets of the system block and of every window, where the window is open. -/
theorem State.regAt_offset {s : State} {via : Via} {a b : Nat} {r : Rg} (ho : ∀ n, via = .win n → s.winClosed n = false)
    (hs : s.sysReg a = r) (hw : ∀ n, s.winReg n b = r) : s.regAt via (regOffset via a b) = r := by
  cases via with
  | sys => exact hs
  | win n => rw [State.regAt, ho n rfl, if_neg Bool.false_ne_true]; exact hw n

theorem State.capMissing_of_hasCap {s : State} {via : Via} {r : Rg} {v : Word} {c : Cap} (hr : writeCap r v = some c)
    (hc : s.hasCap via.pan c = true) : s.capMissing via r v = false := by
  simp [State.capMissing, hr, hc]

/-- An effect that keeps what every operation keeps leaves no software reset waiting. -/
theorem Keeps.swPend_false {b s : State} (h : Keeps false b s) (hb : b.sys.swPend = false) : s.sys.swPend = false := by
  simpa [hb] using h.sw

/-- A served write of a register that takes no key leads to a state like that of its effect. -/
theorem leads_open_write {c : Instr} {s : State} {p : Party} {via : Via} {o : Nat} {r : Rg} {v : Word} {P : State → Prop}
    (he : exec c s = .next (s.partyWrite p via o v)) (hs : served s p via) (hr : s.regAt via o = r)
    (hk : keyScope via r = none) (hc : s.capMissing via r v = false)
    (hw : Keeps false (s.writing p none r) ((s.writing p none r).putReg1 p via r v))
    (hP : ∀ u, LikeState u ((s.writing p none r).putReg1 p via r v) → P u) : Leads c s P := by
  have hsw : (s.writing p none r).sys.swPend = false := (s.writing_swPend p none r).trans hs.1
  exact ⟨_, he, hP _ (partyWrite_open s p via o v r hs hr hk hc (hw.swPend_false hsw))⟩

/-- A served write of a register that takes a key, with the key armed. -/
theorem leads_keyed_write {c : Instr} {s : State} {p : Party} {via : Via} {o : Nat} {r : Rg} {v : Word} {sc : Fin 5}
    {P : State → Prop} (he : exec c s = .next (s.partyWrite p via o v)) (hs : served s p via) (hr : s.regAt via o = r)
    (hk : keyScope via r = some sc) (ha : s.keyArmed sc p = true) (hc : s.capMissing via r v = false)
    (hw : Keeps false (s.writing p (some sc) r) ((s.writing p (some sc) r).putReg1 p via r v))
    (hP : ∀ u, LikeState u ((s.writing p (some sc) r).putReg1 p via r v) → P u) : Leads c s P := by
  have hsw : (s.writing p (some sc) r).sys.swPend = false := (s.writing_swPend p (some sc) r).trans hs.1
  exact ⟨_, he, hP _ (partyWrite_keyed s p via o v r sc hs hr hk ha hc (hw.swPend_false hsw))⟩

/-- A served read of a register that is no claim and no stream. -/
theorem leads_read {c : Instr} {s : State} {p : Party} {via : Via} {o : Nat} {r : Rg} {P : State → Prop}
    (he : exec c s = .next (s.partyRead p via o)) (hs : served s p via) (hr : s.regAt via o = r) (hm : isStream r = false)
    (hi : ∀ h, r ≠ .icClaim h)
    (hP : ∀ u, LikeState u (((accessState s p).readEffect p r).ret ((accessState s p).regValue p via r)) → P u) :
    Leads c s P := by
  have hsw : (accessState s p).sys.swPend = false := by cases p <;> exact hs.1
  exact ⟨_, he, hP _ (partyRead_plain s p via o r hs hr hm hi
    ((State.readEffect_keeps p r (.refl false _)).swPend_false hsw))⟩

/-! ### The commands of the tide and calendar registers -/

section
variable {s : State} {p : Party} {via : Via} (hs : served s p via) (ho : ∀ n, via = .win n → s.winClosed n = false)
include hs ho

/-- TIDE_OFFS written with its key and KEEPER (R200). -/
theorem leads_tideOffsStep {v : Word} {P : State → Prop} (hc : s.hasCap via.pan .keeper = true)
    (ha : s.keyArmed via.scope p = true)
    (hP : ∀ u, LikeState u ((s.writing p (some via.scope) .tideOffs).writeOffs via v) → P u) :
    Leads (.tideOffsStep p via v) s P :=
  leads_keyed_write (o := regOffset via 0x0D4 0x044) (by cases via <;> rfl) hs (State.regAt_offset ho rfl fun _ => rfl) rfl ha
    (State.capMissing_of_hasCap rfl hc) (State.writeOffs_keeps via v (.refl false _)) hP

/-- TIDE_KEEPER written with KEEPER (R179, R705). -/
theorem leads_tideKeeperWrite {v : Word} {P : State → Prop} (hc : s.hasCap via.pan .keeper = true)
    (hP : ∀ u, LikeState u ((s.writing p none .tideKeeper).writeKeeper via v) → P u) :
    Leads (.tideKeeperWrite p via v) s P :=
  leads_open_write (o := regOffset via 0x0E0 0x050) (by cases via <;> rfl) hs (State.regAt_offset ho rfl fun _ => rfl) rfl
    (State.capMissing_of_hasCap rfl hc) (State.writeKeeper_keeps via v (.refl false _)) hP

/-- CAL_DATE written (R608). -/
theorem leads_calDateWrite {v : Word} {P : State → Prop}
    (hP : ∀ u, LikeState u ((s.writing p none .calDate).calDate p v) → P u) : Leads (.calDateWrite p via v) s P :=
  leads_open_write (o := regOffset via 0x100 0x054) (by cases via <;> rfl) hs (State.regAt_offset ho rfl fun _ => rfl) rfl rfl
    (State.calDate_keeps p v (.refl false _)) hP

/-- CAL_TIME written with CALSET (R608). -/
theorem leads_calTimeWrite {v : Word} {P : State → Prop} (hc : s.hasCap via.pan .calset = true)
    (hP : ∀ u, LikeState u ((s.writing p none .calTime).calTime p via.pan via v) → P u) :
    Leads (.calTimeWrite p via v) s P :=
  leads_open_write (o := regOffset via 0x104 0x058) (by cases via <;> rfl) hs (State.regAt_offset ho rfl fun _ => rfl) rfl
    (State.capMissing_of_hasCap rfl hc) (State.calTime_keeps p via.pan via v (.refl false _)) hP

end

end Sys2Proof.Machine

namespace Sys2Proof.Safety

open Sys2Proof.Machine

theorem LikeState.keyArmed {t u : State} (h : LikeState t u) (sc : Fin 5) (p : Party) : t.keyArmed sc p = u.keyArmed sc p := by
  rw [State.keyArmed, h.sys]; rfl

theorem LikeState.tideErr {t u : State} (h : LikeState t u) (via : Via) : t.tideErr via = u.tideErr via := by
  cases via with
  | sys => exact congrArg Tide.cfgErr h.tide
  | win n => rw [State.tideErr, h.pans]; rfl

end Sys2Proof.Safety

namespace Sys2Proof.Machine

open Sys2Proof.Safety

/-! ### The effects of the writes and reads -/

/-- The bit of PAN_FAULT that a fault sets. -/
theorem State.panFault_fault (s : State) (n : Fin 4) (b : Nat) (hb : b < 16) :
    bitOf (s.panFault n b).pans[n].fault b = true := by
  rw [State.panFault, State.arrive_pans, State.updPan_pans, tabUpd_get, if_pos rfl, bitOf_putBit _ _ _ _ hb, if_pos rfl]

/-- TIDE_OFFS on a sending keeper whose bus is busy: the step waits, added to one that waits already (R200, log 47). -/
theorem State.writeOffs_of_busy (s : State) (via : Via) (v : Word) (hs : s.tide.sending = true) (hb : s.busIdle = false) :
    s.writeOffs via v =
      s.updTide fun t => { t with offs := v, stepPend := some (t.stepPend.getD 0 + v.toInt), stepSoft := true } := by
  simp only [State.writeOffs, hs, Bool.not_true, Bool.false_eq_true, if_false]
  exact if_neg (ne_true_of_eq_false hb)

theorem State.writeOffs_of_silent (s : State) (via : Via) (v : Word) (hs : s.tide.sending = false) :
    s.writeOffs via v = s.panFault via.pan fltAccess := by
  simp [State.writeOffs, hs]

/-- A keeper that stops sending keeps TIDE_KEEPER. -/
theorem State.stopSending_role (s : State) :
    s.stopSending.tide.sending = false ∧ s.stopSending.tide.keeperReg = s.tide.keeperReg := by
  rw [State.stopSending, State.applyPeriod_tide, State.applyRate_tide]
  exact ⟨rfl, rfl⟩

theorem State.startListen_keeperReg (s : State) : s.startListen.tide.keeperReg = s.tide.keeperReg := by
  simp [State.startListen, apply_ite State.tide, apply_ite Tide.keeperReg]

/-- TIDE_KEEPER takes the written fields and keeps its reserved bits, whatever role follows. -/
theorem State.keeperWrite_keeperReg (s : State) (v : Word) :
    (s.keeperWrite v).tide.keeperReg = merge 0x00FF0FF3 s.tide.keeperReg v := by
  simp only [State.keeperWrite, State.settle_tide, State.keeperStep_tide, apply_ite State.tide, apply_ite Tide.keeperReg,
    State.updTide_tide, State.stopSending_role, State.startListen_keeperReg, ite_self]

/-- MODE 0 ends the keeper's role. -/
theorem State.keeperWrite_off (s : State) (v : Word) (hm : bitsOf v 0 2 = 0) :
    (s.keeperWrite v).tide.sending = false ∧ (s.keeperWrite v).tide.listening = false := by
  simp only [State.keeperWrite, State.settle_tide, State.keeperStep_tide, hm, if_true, State.updTide_tide, and_true]
  split
  · exact (State.stopSending_role _).1
  next h => exact eq_false_of_ne_true h

theorem State.writeKeeper_of_valid (s : State) (via : Via) (v : Word) (hm : bitsOf v 0 2 < 3) (hn : 2 ≤ bitsOf v 8 4) :
    s.writeKeeper via v = s.keeperWrite v :=
  if_neg (by simp; omega)

theorem State.writeKeeper_of_invalid (s : State) (via : Via) (v : Word) (h : bitsOf v 0 2 = 3 ∨ bitsOf v 8 4 < 2) :
    s.writeKeeper via v = s.tideRefused via :=
  if_pos (by simpa using h)

/-! ### The calendar (R607, R608) -/

theorem State.calArrive_cal (s : State) (k : Nat) : (s.calArrive k).cal = s.cal := by
  simp [State.calArrive, apply_ite State.cal]

/-- A refused CAL_TIME write shows in its view, and changes neither tide time nor the pending step. -/
theorem State.calFlag_effect (s : State) (via : Via) (deny : Bool) :
    (s.calFlag via deny).tide = s.tide ∧ (s.calFlag via deny).cal.pend = s.cal.pend ∧
      (via = .sys → (if deny then (s.calFlag via deny).cal.deny else (s.calFlag via deny).cal.bad) = true) := by
  cases via with
  | sys => cases deny <;> simp [State.calFlag, State.calArrive_cal]
  | win n => exact ⟨rfl, rfl, nofun⟩

section
variable (s : State) (p : Party) (via : Via) (v : Word) (hc : s.hasCap via.pan .calset = true)
include hc

theorem State.calTime_of_slave (hs : s.tide.sending = false) (hl : s.tide.lock ≠ .free) :
    s.calTime p via.pan via v = s.calFlag via true := by
  simp [State.calTime, hc, hs, hl]

theorem State.calTime_of_invalid (hm : s.tide.sending = true ∨ s.tide.lock = .free)
    (hv : calValid s.cal.hold[p.ix] v = false) : s.calTime p via.pan via v = s.calFlag via false := by
  rcases hm with hm | hm <;> simp [State.calTime, hc, hm, hv, -Fin.getElem_fin]

/-- A valid date and time on a busy bus: the step to them waits (R608, R610). -/
theorem State.calTime_of_busy (hm : s.tide.sending = true ∨ s.tide.lock = .free)
    (hv : calValid s.cal.hold[p.ix] v = true) (hb : s.busIdle = false) :
    s.calTime p via.pan via v =
      s.updCal fun c => { c with pend := some ((secOf s.cal.hold[p.ix] v * ticksPerSec : Nat) - (s.now.ticks : Int)) } := by
  rcases hm with hm | hm <;> simp [State.calTime, hc, hm, hv, hb, -Fin.getElem_fin]

end

/-- Three bytes joined, lowest first. -/
theorem toNat_field_bytes (a b c : Nat) (ha : a < 256) (hb : b < 256) (hc : c < 256) :
    (field 0 a ||| field 8 b ||| field 16 c).toNat = a + 256 * b + 65536 * c := by
  have h1 : a ||| b <<< 8 = b <<< 8 + a :=
    (Nat.or_comm _ _).trans (Nat.shiftLeft_add_eq_or_of_lt (by omega) b).symm
  have h2 : (b <<< 8 + a) ||| c <<< 16 = c <<< 16 + (b <<< 8 + a) :=
    (Nat.or_comm _ _).trans (Nat.shiftLeft_add_eq_or_of_lt (by rw [Nat.shiftLeft_eq]; omega) c).symm
  simp only [field, BitVec.toNat_or, BitVec.toNat_ofNat, Nat.shiftLeft_zero]
  rw [Nat.mod_eq_of_lt (by omega), Nat.mod_eq_of_lt (by rw [Nat.shiftLeft_eq]; omega),
    Nat.mod_eq_of_lt (by rw [Nat.shiftLeft_eq]; omega), h1, h2, Nat.shiftLeft_eq, Nat.shiftLeft_eq]
  omega

/-- CAL_TIME shows the time of day (Table 17-2). -/
theorem toNat_timeOf (sec : Nat) :
    (timeOf sec).toNat = sec % 60 + 256 * (sec % 3600 / 60) + 65536 * (sec % 86400 / 3600) := by
  rw [timeOf, toNat_field_bytes _ _ _ (by omega) (by omega) (by omega)]
  omega

/-! ### Reads (R177, R607) -/

@[simp] theorem accessState_tide (s : State) (p : Party) : (accessState s p).tide = s.tide := by cases p <;> rfl

/-- A register of chapter 20 that every view may read shows its own value. -/
theorem State.regValue_of_system (s : State) (p : Party) (via : Via) (r : Rg) (hm : s.mayRead via r = true)
    (he : s.engValue p via r = 0) (hw : s.winValue p r = 0) : s.regValue p via r = s.sysValue p via r := by
  simp [State.regValue, hm, he, hw]

theorem State.regValue_tideTick (s : State) (p : Party) (via : Via) :
    s.regValue p via .tideTick = s.tide.tick.setWidth 32 :=
  s.regValue_of_system p via .tideTick (by cases via <;> rfl) rfl rfl

/-- The read of TIDE_TICK latches TIDE_SEC for its reader and leaves the rest of tide time. -/
theorem State.readEffect_tideTick (s : State) (p : Party) :
    (s.readEffect p .tideTick).tide = { s.tide with latch := s.tide.latch.set p.ix.val s.tide.sec p.ix.isLt } := rfl

theorem State.regValue_calTime (s : State) (p : Party) (via : Via) : s.regValue p via .calTime = timeOf s.tide.sec.toNat :=
  s.regValue_of_system p via .calTime (by cases via <;> rfl) rfl rfl

/-- The read of CAL_TIME latches CAL_DATE for its reader. -/
theorem State.readEffect_calTime (s : State) (p : Party) :
    s.readEffect p .calTime =
      s.updCal fun c => { c with latch := c.latch.set p.ix.val (dateOf s.tide.sec.toNat) p.ix.isLt } := rfl

/-! ### The statement -/

/-- Settles O50: each access is served, so it leads to a state like that of its register's effect. That steps of TIDE_OFFS which wait
together add up is log 47. -/
theorem tideAndCalendarRegisters : Obligations.TideAndCalendarRegisters := by
  unfold Obligations.TideAndCalendarRegisters
  intro s p via v hs hopen
  have ho : ∀ n, via = .win n → s.winClosed n = false := by
    rintro n rfl
    exact hopen
  refine ⟨?tick, ?offsBusy, ?offsSilent, ?keeper, ?keeperRefused, ?date, ?timeDenied, ?timeBad, ?timeBusy, ?timeRead⟩
  case tick =>
    refine leads_read (o := regOffset via 0x0CC 0x03C) (r := .tideTick) (by cases via <;> rfl) hs
      (State.regAt_offset ho rfl fun _ => rfl) rfl nofun fun u hu => ?_
    rw [hu.out, hu.tide, State.ret_out, State.ret_tide, State.readEffect_tideTick, State.regValue_tideTick, accessState_tide]
    exact ⟨BitVec.toNat_setWidth_of_le (by decide), (set_get _ _ _ _).trans (if_pos rfl), rfl, rfl⟩
  case offsBusy =>
    intro hc ha hk hb
    refine leads_tideOffsStep hs ho hc ha fun u hu => ?_
    rw [hu.tide, hu.keyArmed, State.writeOffs_of_busy _ _ _ (by simpa) (by simpa), State.updTide_tide, State.writing_tide]
    exact ⟨rfl, rfl, rfl, rfl, s.writing_keyArmed p .tideOffs via.scope⟩
  case offsSilent =>
    intro hc ha hk
    refine leads_tideOffsStep hs ho hc ha fun u hu => ?_
    rw [hu.tide, hu.pans, State.writeOffs_of_silent _ _ _ (by simpa), State.panFault_tide, State.writing_tide]
    exact ⟨rfl, State.panFault_fault _ _ _ (by decide)⟩
  case keeper =>
    intro hc hm hn
    refine leads_tideKeeperWrite hs ho hc fun u hu => ?_
    rw [hu.tide, State.writeKeeper_of_valid _ _ _ hm hn, State.keeperWrite_keeperReg, State.writing_tide]
    exact ⟨rfl, State.keeperWrite_off _ v⟩
  case keeperRefused =>
    intro hc h
    refine leads_tideKeeperWrite hs ho hc fun u hu => ?_
    rw [hu.tideErr, hu.tide, State.writeKeeper_of_invalid _ _ _ h, State.tideRefused_tide, State.writing_tide]
    exact ⟨rfl, State.tideRefused_tideErr _ via⟩
  case date =>
    refine leads_calDateWrite hs ho fun u hu => ?_
    rw [hu.tide, hu.cal]
    refine ⟨(set_get _ _ _ _).trans (if_pos rfl), fun q hq => ?_, s.writing_tide p none .calDate⟩
    rw [State.calDate, State.updCal_cal, set_get, if_neg (Ne.symm hq), State.writing_cal]
  case timeDenied =>
    intro hc hk hl
    refine leads_calTimeWrite hs ho hc fun u hu => ?_
    rw [hu.tide, hu.cal, State.calTime_of_slave _ _ _ _ (by simpa) (by simpa) (by simpa)]
    simpa using State.calFlag_effect (s.writing p none .calTime) via true
  case timeBad =>
    intro hc hm hv
    refine leads_calTimeWrite hs ho hc fun u hu => ?_
    rw [hu.tide, hu.cal, State.calTime_of_invalid _ _ _ _ (by simpa) (by simpa) (by simpa)]
    simpa using State.calFlag_effect (s.writing p none .calTime) via false
  case timeBusy =>
    intro hc hm hv hb
    refine leads_calTimeWrite hs ho hc fun u hu => ?_
    rw [hu.tide, hu.cal, State.calTime_of_busy _ _ _ _ (by simpa) (by simpa) (by simpa) (by simpa)]
    simp
  case timeRead =>
    refine leads_read (o := regOffset via 0x104 0x058) (r := .calTime) (by cases via <;> rfl) hs
      (State.regAt_offset ho rfl fun _ => rfl) rfl nofun fun u hu => ?_
    rw [hu.out, hu.tide, hu.cal, State.ret_out, State.ret_tide, State.ret_cal, State.readEffect_calTime, State.regValue_calTime,
      accessState_tide]
    exact ⟨toNat_timeOf _, (set_get _ _ _ _).trans (if_pos rfl), accessState_tide s p⟩

end Sys2Proof.Machine

/-! SUPPORT. The release of SAFE, the end of bursts and the keep-alive (chapter 6), and the proof of their statement. -/

namespace Sys2Proof.Machine

open Sys2Proof.Safety

/-! ### RUN (Table 6-5) -/

@[simp] theorem State.settle_run (s : State) : s.settle.slu.run = s.runLevel := by
  unfold State.settle State.updRun
  split
  next h => simpa using (beq_iff_eq.mp h).symm
  next => simp

/-- RUN is driven high in RUN with SAFE released, the keep-alive fresh and no parity fault that PARSAFE holds. -/
theorem State.runLevel_high {s : State} (hr : s.pow.state = .run) (hs : s.slu.safe = false) (hf : s.slu.fresh = true)
    (hp : (s.sys.cfgPar && bitOf s.sys.ctl 0) = false) : s.runLevel = true := by
  simp [State.runLevel, hr, hs, hf, hp]

theorem State.runLevel_of_stale {s : State} (hf : s.slu.fresh = false) : s.runLevel = false := by
  simp [State.runLevel, hf]

/-! ### The steps of a release (R231, Table 6-3) -/

theorem State.stepsMet_of_local {s : State} (ht : s.slu.tideOk = true ∨ s.slu.waive = 1) (hl : s.slu.localOk = true) :
    s.stepsMet = true := by
  rcases ht with ht | ht <;> simp [State.stepsMet, State.stepsNeeded, ht, hl]

theorem State.stepsMet_of_no_tide {s : State} (ht : s.slu.tideOk = false) (hw : s.slu.waive ≠ 1) : s.stepsMet = false := by
  unfold State.stepsMet State.stepsNeeded
  split <;> simp_all

theorem State.stepsMet_of_no_local {s : State} (hl : s.slu.localOk = false) (hw : s.slu.waive ≠ 2) : s.stepsMet = false := by
  unfold State.stepsMet State.stepsNeeded
  split <;> simp_all

/-- Nothing holds a release: neither SAFE_IN nor a detected burst (R232). -/
def State.unheld (s : State) : Prop := s.slu.safeIn = false ∧ s.slu.det = 0

theorem State.tryRelease_of_unmet {s : State} (h : s.stepsMet = false) : s.tryRelease = s := by
  simp [State.tryRelease, h]

theorem State.tryRelease_of_held {s : State} (h : s.slu.safeIn = true ∨ s.slu.det ≠ 0) : s.tryRelease = s := by
  have hb : (s.slu.safeIn || s.slu.det != 0) = true := by simpa using h
  rw [State.tryRelease, State.blocked, hb]
  simp

theorem State.tryRelease_of_met {s : State} (hs : s.slu.safe = true) (hm : s.stepsMet = true) (hu : s.unheld) :
    s.tryRelease = (s.updSlu fun u => { u with safe := false, cause := 0, tideOk := false, localOk := false }).arrive 6 := by
  obtain ⟨hi, hd⟩ := hu
  simp [State.tryRelease, State.blocked, hs, hm, hi, hd]

/-- The shutdown path `u` is released: SAFE, the CAUSE bits and both steps are 0, and RUN is high where state `b` allows it. -/
def Sluice.Released (b : State) (u : Sluice) : Prop :=
  u.safe = false ∧ u.cause = 0 ∧ u.tideOk = false ∧ u.localOk = false ∧
    (b.pow.state = .run → b.slu.fresh = true → (b.sys.cfgPar && bitOf b.sys.ctl 0) = false → u.run = true)

theorem State.tryRelease_released {s : State} (hs : s.slu.safe = true) (hm : s.stepsMet = true) (hu : s.unheld) :
    Sluice.Released s s.tryRelease.settle.slu := by
  rw [State.tryRelease_of_met hs hm hu]
  refine ⟨by simp, by simp, by simp, by simp, fun hr hf hp => ?_⟩
  rw [State.settle_run]
  exact State.runLevel_high (by simpa using hr) (by simp) (by simpa using hf) (by simpa using hp)

/-! ### The local step (R231, R250) -/

section
variable {s : State} (hs : s.slu.safe = true) (hl : s.slu.localOk = false)
include hs hl

theorem State.localStep_eq :
    s.localStep = ((s.updSlu fun u => { u with localOk := true }).arrive 6).tryRelease.settle := by
  simp [State.localStep, hs, hl]

/-- The local step releases a SAFE whose tide step stands or is waived, and that nothing holds. -/
theorem State.localStep_released (ht : s.slu.tideOk = true ∨ s.slu.waive = 1) (hu : s.unheld) :
    Sluice.Released s s.localStep.slu := by
  rw [State.localStep_eq hs hl]
  simpa [Sluice.Released] using
    State.tryRelease_released (s := (s.updSlu fun u => { u with localOk := true }).arrive 6) (by simpa using hs)
      (State.stepsMet_of_local (by simpa using ht) (by simp)) (by simpa [State.unheld] using hu)

/-- The local step of a SAFE that stays is recorded. -/
theorem State.localStep_kept
    (h : s.slu.tideOk = false ∧ s.slu.waive ≠ 1 ∨ s.slu.safeIn = true ∨ s.slu.det ≠ 0) :
    s.localStep.slu.safe = true ∧ s.localStep.slu.localOk = true ∧ s.localStep.slu.cause = s.slu.cause := by
  have hr : ((s.updSlu fun u => { u with localOk := true }).arrive 6).tryRelease =
      (s.updSlu fun u => { u with localOk := true }).arrive 6 := by
    rcases h with ⟨ht, hw⟩ | h
    · exact State.tryRelease_of_unmet (State.stepsMet_of_no_tide (by simpa using ht) (by simpa using hw))
    · exact State.tryRelease_of_held (by simpa using h)
  rw [State.localStep_eq hs hl, hr]
  simp [hs]

end

/-! ### Served writes of SLU_PERMIT and PAN_SLU -/

section
variable (s : State) (p : Party) (key : Option (Fin 5)) (r : Rg)

@[simp] theorem State.writing_slu : (s.writing p key r).slu = s.slu := by rw [State.writing_eq]

/-- A served write leaves what RUN and the release depend on as it was. -/
theorem State.released_of_writing {u : Sluice} (h : Sluice.Released (s.writing p key r) u) : Sluice.Released s u := by
  rw [State.writing_eq] at h
  cases p <;> exact h

end

theorem State.putReg1_sluPermit (s : State) (p : Party) {v : Word} (hv : bitOf v 0 = true) :
    s.putReg1 p .sys .sluPermit v = s.localStep := if_pos hv

/-- PAN_SLU with PERMIT; FIRE would win over it. -/
theorem State.putReg1_panSlu (s : State) (p : Party) (n : Fin 4) {v : Word} (hf : bitOf v 0 = false) (hv : bitOf v 1 = true) :
    s.putReg1 p (.win n) (.panSlu n) v = s.localStep :=
  (if_neg (ne_true_of_eq_false hf)).trans (if_pos hv)

/-- A write of SLU_PERMIT with its key and SLUICE. -/
theorem leads_sluPermit {s : State} {p : Party} {v : Word} {P : State → Prop} (hs : served s p .sys)
    (ha : s.keyArmed 0 p = true) (hc : s.hasCap 0 .sluice = true) (hv : bitOf v 0 = true)
    (hP : ∀ u, LikeState u (s.writing p (some 0) .sluPermit).localStep → P u) : Leads (.sluPermitGo p .sys v) s P := by
  have e := (s.writing p (some 0) .sluPermit).putReg1_sluPermit p hv
  exact leads_keyed_write (o := 0x070) (r := .sluPermit) rfl hs rfl rfl ha (State.capMissing_of_hasCap rfl hc)
    (by rw [e]; exact State.localStep_keeps (.refl false _)) (by rwa [e])

/-- A write of PAN_SLU with PERMIT and without FIRE, its key and SLUICE. -/
theorem leads_panSluPermit {s : State} {p : Party} {n : Fin 4} {v : Word} {P : State → Prop} (hs : served s p (.win n))
    (ho : s.winClosed n = false) (ha : s.keyArmed (Via.win n).scope p = true) (hc : s.hasCap n .sluice = true)
    (hf : bitOf v 0 = false) (hv : bitOf v 1 = true)
    (hP : ∀ u, LikeState u (s.writing p (some (Via.win n).scope) (.panSlu n)).localStep → P u) :
    Leads (.sluPermitGo p (.win n) v) s P := by
  have e := (s.writing p (some (Via.win n).scope) (.panSlu n)).putReg1_panSlu p n hf hv
  have hr : s.regAt (.win n) 0x034 = .panSlu n := by rw [State.regAt, ho]; rfl
  exact leads_keyed_write (o := 0x034) (r := .panSlu n) rfl hs hr rfl ha (State.capMissing_of_hasCap rfl hc)
    (by rw [e]; exact State.localStep_keeps (.refl false _)) (by rwa [e])

/-- What a command that gives the local release step does to a SAFE without that step. -/
def Permits (c : Instr) (s : State) : Prop :=
  s.slu.safe = true → s.slu.localOk = false →
    (s.slu.tideOk = true ∨ s.slu.waive = 1 → s.slu.safeIn = false → s.slu.det = 0 → Leads c s fun u => Sluice.Released s u.slu) ∧
    (s.slu.tideOk = false → s.slu.waive ≠ 1 → Leads c s fun u =>
      u.slu.safe = true ∧ u.slu.localOk = true ∧ u.slu.cause = s.slu.cause) ∧
    (s.slu.safeIn = true ∨ s.slu.det ≠ 0 → Leads c s fun u =>
      u.slu.safe = true ∧ u.slu.localOk = true ∧ u.slu.cause = s.slu.cause)

/-- A served write whose effect is the local step permits. -/
theorem permits_of_localStep {c : Instr} {s : State} {p : Party} {key : Option (Fin 5)} {r : Rg}
    (h : ∀ P : State → Prop, (∀ u, LikeState u (s.writing p key r).localStep → P u) → Leads c s P) : Permits c s := by
  intro hs hl
  have kept := State.localStep_kept (s := s.writing p key r) (by simpa using hs) (by simpa using hl)
  simp only [State.writing_slu] at kept
  refine ⟨fun ht hi hd => h _ fun u hu => ?_, fun ht hw => h _ fun u hu => ?_, fun hb => h _ fun u hu => ?_⟩ <;> rw [hu.slu]
  · exact s.released_of_writing p key r (State.localStep_released (by simpa using hs) (by simpa using hl) (by simpa using ht)
      (by simpa [State.unheld] using ⟨hi, hd⟩))
  · exact kept (.inl ⟨ht, hw⟩)
  · exact kept (.inr hb)

/-! ### The end of bursts and of what blocked (R225, R232) -/

theorem bitOf_clearBit {n : Nat} (w : BitVec n) (i j : Nat) (hj : j < n) :
    bitOf (putBit w i false) j = (bitOf w j && j != i) := by
  rw [bitOf_putBit _ _ _ _ hj]
  by_cases h : i = j
  · simp [h]
  · simp [h, Ne.symm h]

/-- The shutdown path without the SAFE_IN and the detected bursts that have ended. -/
def Sluice.unblocked (u : Sluice) (safeIn plc pair : Bool) : Sluice :=
  { u with safeIn := u.safeIn && !safeIn, det := putBit (putBit u.det 0 (bitOf u.det 0 && !plc)) 1 (bitOf u.det 1 && !pair) }

theorem State.unblock_eq (s : State) (safeIn plc pair : Bool) :
    s.unblock safeIn plc pair =
      if s.pow.state = .reset then s.updSlu fun u => u.unblocked safeIn plc pair
      else (s.updSlu fun u => u.unblocked safeIn plc pair).tryRelease.settle := rfl

theorem Sluice.unblocked_det (u : Sluice) (safeIn plc pair : Bool) :
    bitOf (u.unblocked safeIn plc pair).det 0 = (bitOf u.det 0 && !plc) ∧
      bitOf (u.unblocked safeIn plc pair).det 1 = (bitOf u.det 1 && !pair) := by
  simp [Sluice.unblocked, bitOf_putBit]

/-- When all that blocked has ended, nothing holds the release. -/
theorem State.unheld_unblocked {s : State} {safeIn plc pair : Bool} (hi : s.slu.safeIn = true → safeIn = true)
    (h0 : bitOf s.slu.det 0 = true → plc = true) (h1 : bitOf s.slu.det 1 = true → pair = true) :
    (s.updSlu fun u => u.unblocked safeIn plc pair).unheld := by
  obtain ⟨d0, d1⟩ := s.slu.unblocked_det safeIn plc pair
  refine ⟨by simpa [Sluice.unblocked] using hi, BitVec.eq_of_getLsbD_eq fun i hlt => ?_⟩
  match i, hlt with
  | 0, _ => exact d0.trans (by simpa using h0)
  | 1, _ => exact d1.trans (by simpa using h1)

/-! ### The statement -/

/-- Settles O57: a keyed write is served, so its effect is the local step; every way back ends in `State.tryRelease`. That TIDEOK and
LOCALOK read 0 after a release is log 44. -/
theorem sluiceReleaseAndKeepAlive : Obligations.SluiceReleaseAndKeepAlive := by
  unfold Obligations.SluiceReleaseAndKeepAlive
  intro s
  refine ⟨?permit, ?panPermit, ?unblocked, ?unmet, ?burstEnd, ?lapse, fun h => congrArg Host.Outcome.next (if_pos h)⟩
  case permit => exact fun p v hs ha hc hv => permits_of_localStep fun P => leads_sluPermit hs ha hc hv
  case panPermit =>
    exact fun p n v hs ho ha hc hf hv => permits_of_localStep fun P => leads_panSluPermit hs ho ha hc hf hv
  case unblocked =>
    intro safeIn plc pair hn hs hm hi h0 h1
    refine ⟨_, rfl, ?_⟩
    rw [State.unblock_eq, if_neg hn]
    exact State.tryRelease_released (s := s.updSlu fun u => u.unblocked safeIn plc pair) hs hm (State.unheld_unblocked hi h0 h1)
  case unmet =>
    intro safeIn plc pair hm
    refine ⟨_, rfl, ?_⟩
    have hm' : (s.updSlu fun u => u.unblocked safeIn plc pair).stepsMet = false := hm
    rw [State.unblock_eq, State.tryRelease_of_unmet hm']
    have hd := s.slu.unblocked_det safeIn plc pair
    split
    · exact ⟨rfl, rfl, hd⟩
    · simpa using ⟨rfl, rfl, hd⟩
  case burstEnd =>
    intro port
    cases port <;> exact ⟨_, rfl, rfl, fun i hi => bitOf_clearBit s.slu.burst _ i hi⟩
  case lapse =>
    intro hn
    refine ⟨_, congrArg Host.Outcome.next (if_neg hn), ?_⟩
    exact ⟨State.settle_slu_fresh _, (State.settle_run _).trans (State.runLevel_of_stale rfl), State.settle_slu_safe _⟩

end Sys2Proof.Machine

/-! SUPPORT. What a reset leaves and keeps, and what start-up gives (chapter 23), and the proof of their statement. -/

namespace Sys2Proof.Machine

open Sys2Proof.Safety

/-! ### What a reset keeps (R173, R254, R688) -/

@[simp] theorem Sluice.afterReset_safe (u : Sluice) (keep : Bool) : (u.afterReset keep).safe = (keep && u.safe) := by
  cases keep <;> rfl
@[simp] theorem Sluice.afterReset_cause (u : Sluice) (keep : Bool) :
    (u.afterReset keep).cause = if keep then u.cause else 0 := by
  cases keep <;> rfl
@[simp] theorem Sluice.afterReset_run (u : Sluice) (keep : Bool) : (u.afterReset keep).run = false := by
  cases keep <;> rfl
@[simp] theorem Sluice.afterReset_fresh (u : Sluice) (keep : Bool) : (u.afterReset keep).fresh = false := by
  cases keep <;> rfl
@[simp] theorem PortState.afterReset_guard (x : PortState) (keep : Bool) : (x.afterReset keep).guard = (keep && x.guard) := by
  cases keep <;> rfl
@[simp] theorem PortState.afterReset_tecCnt (x : PortState) (keep : Bool) : (x.afterReset keep).tecCnt = 0 := by
  cases keep <;> rfl

/-- SYS_RSTCAUSE has the bit of the cause, and PIN where a TAP instruction holds the reset too. -/
theorem State.rstCauses_eq (s : State) (k : Fin 6) :
    s.rstCauses k = BitVec.ofNat 6 (2 ^ k.val) ||| (if k.val ≠ 0 ∧ s.pow.tapHold = true then 2 else 0) := by
  unfold State.rstCauses
  generalize s.pow.tapHold = hold
  revert k hold
  decide

theorem State.resetWith_portsOff (s : State) (k : Nat) : (s.resetWith k).portsOff = true := by
  show (!bitOf Line.reset.plcCtl 0 && !bitOf Line.reset.pairCtl 0) = true
  decide

/-- `u` is the state after a reset of `s` with bit `k` of SYS_RSTCAUSE, which keeps SAFE and the guards where `keep` says so. -/
def State.ResetTo (s u : State) (k : Nat) (keep : Bool) : Prop :=
  u.pow.state = .reset ∧ u.pow.ready = false ∧
    u.sys.rstCause = BitVec.ofNat 6 (2 ^ k) ||| (if k ≠ 0 ∧ s.pow.tapHold = true then 2 else 0) ∧
    u.sys.panLock = false ∧ u.sys.dbgLock = false ∧ u.mem = [] ∧ u.alloc = State.reset.alloc ∧ u.eng = State.reset.eng ∧
    u.irq = State.reset.irq ∧ u.tide = State.reset.tide ∧ u.pans = State.reset.pans ∧ u.flt = State.reset.flt ∧
    u.sched = State.reset.sched ∧ u.cal = State.reset.cal ∧ u.slu.safe = (keep && s.slu.safe) ∧
    u.slu.cause = (if keep then s.slu.cause else 0) ∧ u.slu.run = false ∧ u.slu.fresh = false ∧
    u.line.plc.guard = (keep && s.line.plc.guard) ∧ u.line.pair.guard = (keep && s.line.pair.guard) ∧
    u.line.plc.tecCnt = 0 ∧ u.portsOff = true ∧ u.otp.words = s.otp.words ∧ u.pending = s.pending

theorem State.resetWith_resetTo (s : State) (k : Fin 6) :
    s.ResetTo (s.resetWith k) k (k.val != rcPor && k.val != rcSup) :=
  ⟨rfl, rfl, s.rstCauses_eq k, rfl, rfl, rfl, rfl, rfl, rfl, rfl, rfl, rfl, rfl, rfl, s.slu.afterReset_safe _,
    s.slu.afterReset_cause _, s.slu.afterReset_run _, s.slu.afterReset_fresh _, s.line.plc.afterReset_guard _,
    s.line.pair.afterReset_guard _, s.line.plc.afterReset_tecCnt _,
    s.resetWith_portsOff k, rfl, rfl⟩

/-! ### The test access port (R861, R862) -/

theorem State.viaTap_of_vio {s : State} (h : s.pow.vioOk = true) (t : State) : s.viaTap t = t := if_pos h
theorem State.viaTap_of_no_vio {s : State} (h : s.pow.vioOk = false) (t : State) : s.viaTap t = s :=
  if_neg (ne_true_of_eq_false h)

/-! ### Arrivals while the core runs leave none waiting -/

section
variable {s : State} (h : s.coreRuns = true)
include h

theorem State.coreRuns_congr {u : State} (hp : u.pow = s.pow) : u.coreRuns = true := by
  rw [State.coreRuns, hp]
  exact h

/-- An arrival in a state that still has the power and the waiting arrivals of `s`. -/
theorem State.arrive_deferred {u : State} {k : Nat} (hp : u.pow = s.pow) (hd : u.irq.deferred = s.irq.deferred) :
    (u.arrive k).irq.deferred = s.irq.deferred := by
  have hu := State.coreRuns_congr h hp
  by_cases hk : srcExists k = true
  · simpa [State.arrive, hk, hu, Irq.arrive, apply_ite Irq.deferred] using hd
  · simpa [State.arrive, hk] using hd

theorem State.updRun_deferred : s.updRun.irq.deferred = s.irq.deferred := by
  unfold State.updRun
  split
  · rfl
  · exact State.arrive_deferred h rfl rfl

theorem State.updLife_deferred : s.updLife.irq.deferred = s.irq.deferred := by
  unfold State.updLife
  split
  · rfl
  · exact State.arrive_deferred h rfl rfl

theorem State.updUnrel_deferred : s.updUnrel.irq.deferred = s.irq.deferred := by
  unfold State.updUnrel
  dsimp only
  repeat' split
  · rfl
  · exact State.arrive_deferred h rfl rfl
  · rfl

theorem State.updSearch_deferred : s.updSearch.irq.deferred = s.irq.deferred := by
  unfold State.updSearch
  dsimp only
  split
  · rfl
  · split
    · rfl
    · exact State.arrive_deferred h rfl rfl

theorem State.settle_deferred : s.settle.irq.deferred = s.irq.deferred := by
  have h1 := State.coreRuns_congr h s.updRun_pow
  have h2 := State.coreRuns_congr h1 s.updRun.updLife_pow
  have h3 := State.coreRuns_congr h2 s.updRun.updLife.updUnrel_pow
  calc s.settle.irq.deferred = s.updRun.updLife.updUnrel.irq.deferred := State.updSearch_deferred h3
    _ = s.updRun.updLife.irq.deferred := State.updUnrel_deferred h2
    _ = s.updRun.irq.deferred := State.updLife_deferred h1
    _ = s.irq.deferred := State.updRun_deferred h

theorem State.safeLatch_deferred (cause : Nat) : (s.safeLatch cause).irq.deferred = s.irq.deferred := by
  refine (State.settle_deferred ?_).trans (State.arrive_deferred h rfl rfl)
  exact State.coreRuns_congr h (State.arrive_pow _ 6)

theorem State.tryRelease_deferred : s.tryRelease.irq.deferred = s.irq.deferred := by
  unfold State.tryRelease
  split
  · exact State.arrive_deferred h rfl rfl
  · rfl

end

theorem State.foldl_arrive_deferred (l : List Nat) {s : State} (h : s.coreRuns = true) :
    (l.foldl State.arrive s).irq.deferred = s.irq.deferred := by
  induction l generalizing s with
  | nil => rfl
  | cons k l ih =>
    rw [List.foldl_cons, ih (State.coreRuns_congr h (s.arrive_pow k)), State.arrive_deferred h rfl rfl]

/-- The arrivals that waited take place; none waits after them. -/
theorem State.flushDeferred_deferred {s : State} (h : s.coreRuns = true) : s.flushDeferred.irq.deferred = [] :=
  State.foldl_arrive_deferred _ (s := s.updIrq fun q => { q with deferred := [] }) h

/-! ### ROM initialisation (R792, R794) -/

theorem State.setOtpErr_otpErr (s : State) : s.setOtpErr.sys.otpErr = true := by
  unfold State.setOtpErr
  split
  · assumption
  · rw [State.arrive_sys]; rfl

/-- What the OTP words give, when word 0 passes its check. -/
theorem Otp.read_of_good (o : Otp) {bad : BitVec 16} (h : bad.getLsbD 0 = false) :
    (o.read bad).addr.toNat = o.words[0].toNat % 64 ∧ (o.read bad).waive.toNat = o.words[0].toNat / 64 % 4 ∧
      (o.read bad).authReq = o.words[0].getLsbD 8 ∧ (o.read bad).dbgOff = o.words[0].getLsbD 9 ∧
      (o.read bad).romOnly = o.words[0].getLsbD 10 := by
  simp [Otp.read, bitOf, bitsOf, h, Nat.shiftRight_eq_div_pow, -BitVec.getLsbD_eq_getElem]

/-- The values that a word 0 which fails its check gives. -/
theorem Otp.read_of_bad (o : Otp) {bad : BitVec 16} (h : bad.getLsbD 0 = true) :
    (o.read bad).addr = 0 ∧ (o.read bad).waive = 0 ∧ (o.read bad).authReq = true ∧ (o.read bad).dbgOff = true ∧
      (o.read bad).romOnly = true := by
  simp [Otp.read, bitOf, h]

/-- The local step is waived only when OTP word 0 says so. -/
theorem Otp.read_waive_ne_two (o : Otp) (bad : BitVec 16) (h : o.words[0].toNat / 64 % 4 ≠ 2) : (o.read bad).waive ≠ 2 := by
  intro hw
  cases hb : bad.getLsbD 0
  · exact h (by rw [← (o.read_of_good hb).2.1, hw]; rfl)
  · rw [(o.read_of_bad hb).2.1] at hw
    exact absurd hw (by decide)

/-- The state as ROM initialisation leaves it, with the core running. -/
def State.initialised (s : State) (bad : BitVec 16) : State :=
  { s with otp := s.otp.read bad, mem := [], pow := { s.pow with state := .run, ready := true, pllLock := true }
           line := { s.line with addr := (s.otp.read bad).addr }, slu := { s.slu with waive := (s.otp.read bad).waive } }

/-- The same with OTPERR, and with the arrivals that waited. -/
def State.booted (s : State) (bad : BitVec 16) : State :=
  (if bad = 0 then s.initialised bad else (s.initialised bad).setOtpErr).flushDeferred

section
variable (s : State) (bad : BitVec 16)

@[simp] theorem State.booted_pow : (s.booted bad).pow = { s.pow with state := .run, ready := true, pllLock := true } := by
  simp [State.booted, apply_ite State.pow, State.initialised]
@[simp] theorem State.booted_slu : (s.booted bad).slu = { s.slu with waive := (s.otp.read bad).waive } := by
  simp [State.booted, apply_ite State.slu, State.initialised]
@[simp] theorem State.booted_line : (s.booted bad).line = { s.line with addr := (s.otp.read bad).addr } := by
  simp [State.booted, apply_ite State.line, State.initialised]
@[simp] theorem State.booted_otp : (s.booted bad).otp = s.otp.read bad := by
  simp [State.booted, apply_ite State.otp, State.initialised]
@[simp] theorem State.booted_mem : (s.booted bad).mem = [] := by
  simp [State.booted, apply_ite State.mem, State.initialised]

theorem State.booted_otpErr (h : bad ≠ 0) : (s.booted bad).sys.otpErr = true := by
  rw [State.booted, if_neg h, State.flushDeferred_sys, State.setOtpErr_otpErr]

theorem State.booted_deferred : (s.booted bad).irq.deferred = [] := by
  refine State.flushDeferred_deferred ?_
  rw [State.coreRuns]
  simp [apply_ite State.pow, State.initialised]

end

/-- The shutdown path starts again: a SAFE_IN that is asserted latches (R222), else a release that waited takes effect (R232). -/
def State.resumeSafe (s : State) : State := if s.slu.safeIn then s.safeLatch causePin else s.tryRelease

theorem State.startUp_of_reset {s : State} (bad : BitVec 16) (hr : s.pow.state = .reset) (ht : s.pow.tapHold = false) :
    s.startUp bad = (s.booted bad).resumeSafe.settle := by
  have hb : (s.pow.state != .reset || s.pow.tapHold) = false := by simp [hr, ht]
  have hi : (s.booted bad).slu.safeIn = s.slu.safeIn := by rw [State.booted_slu]
  rw [State.resumeSafe, hi]
  exact if_neg (ne_true_of_eq_false hb)

theorem State.startUp_of_held {s : State} (bad : BitVec 16) (h : s.pow.state ≠ .reset ∨ s.pow.tapHold = true) :
    s.startUp bad = s :=
  if_pos (by simpa using h)

/-! ### The shutdown path after a reset -/

@[simp] theorem State.resumeSafe_pow (s : State) : s.resumeSafe.pow = s.pow := by
  simp [State.resumeSafe, State.safeLatch, State.tryRelease, apply_ite State.pow]
@[simp] theorem State.resumeSafe_otp (s : State) : s.resumeSafe.otp = s.otp := by
  simp [State.resumeSafe, State.safeLatch, State.tryRelease, apply_ite State.otp]
@[simp] theorem State.resumeSafe_mem (s : State) : s.resumeSafe.mem = s.mem := by
  simp [State.resumeSafe, State.safeLatch, State.tryRelease, apply_ite State.mem]
@[simp] theorem State.resumeSafe_otpErr (s : State) : s.resumeSafe.sys.otpErr = s.sys.otpErr := by
  simp [State.resumeSafe, State.safeLatch, State.tryRelease, apply_ite State.sys, apply_ite Sys.otpErr]
@[simp] theorem State.resumeSafe_addr (s : State) : s.resumeSafe.line.addr = s.line.addr := by
  simp [State.resumeSafe, State.safeLatch, State.tryRelease, apply_ite State.line, apply_ite Line.addr]
@[simp] theorem State.resumeSafe_waive (s : State) : s.resumeSafe.slu.waive = s.slu.waive := by
  simp [State.resumeSafe, State.safeLatch, State.tryRelease, apply_ite State.slu, apply_ite Sluice.waive]

theorem State.resumeSafe_deferred {s : State} (h : s.coreRuns = true) : s.resumeSafe.irq.deferred = s.irq.deferred := by
  unfold State.resumeSafe
  split
  · exact State.safeLatch_deferred h causePin
  · exact State.tryRelease_deferred h

/-- An asserted SAFE_IN latches with its CAUSE bit. -/
theorem State.resumeSafe_of_safeIn {s : State} (h : s.slu.safeIn = true) :
    s.resumeSafe.slu.safe = true ∧ bitOf s.resumeSafe.slu.cause 0 = true := by
  simp [State.resumeSafe, h, State.safeLatch, causePin, bitOf_putBit]

/-- A SAFE that still needs its local step stays. -/
theorem State.resumeSafe_of_no_local {s : State} (hs : s.slu.safe = true) (hl : s.slu.localOk = false) (hw : s.slu.waive ≠ 2) :
    s.resumeSafe.slu.safe = true := by
  cases h : s.slu.safeIn
  · rw [State.resumeSafe, h, if_neg Bool.false_ne_true, State.tryRelease_of_unmet (State.stepsMet_of_no_local hl hw), hs]
  · exact (State.resumeSafe_of_safeIn h).1

/-! ### The statement -/

/-- Settles O58: every reset is `State.resetWith` of its cause, and start-up is the initialised state with the shutdown path started
again. That RESET_N between 200 ns and 1 us may or may not reset is log 7, the levels that a reset keeps and BELOW after a supply reset
are logs 4 and 50, and the latch of a SAFE_IN that is still asserted at HPI_READY is log 64. -/
theorem resetsAndStartUp : Obligations.ResetsAndStartUp := by
  unfold Obligations.ResetsAndStartUp
  intro s
  refine ⟨⟨_, rfl, s.resetWith_resetTo 0⟩, fun ns => ⟨?pin, ?short, ?between⟩, ⟨_, rfl, s.resetWith_resetTo 2, Bool.or_true _⟩,
    ?watchdog, ?noWatchdog, ?testOn, ?testOff, ?noVio, ?ready, ?held⟩
  case pin =>
    exact fun h => ⟨_, if_pos h, s.resetWith_resetTo 1⟩
  case short =>
    exact fun h => (if_neg (by omega)).trans (if_pos h)
  case between =>
    intro hlo hhi
    refine ⟨_, (if_neg (by omega)).trans (if_neg (by omega)), ?_⟩
    split
    · exact .inl (s.takeFree.resetWith_resetTo 1)
    · exact .inr rfl
  case watchdog =>
    exact fun h => ⟨_, congrArg Host.Outcome.next (if_pos h), s.resetWith_resetTo 5⟩
  case noWatchdog =>
    exact fun h => congrArg Host.Outcome.next (if_neg (ne_true_of_eq_false h))
  case testOn =>
    exact fun h => ⟨_, congrArg Host.Outcome.next (State.viaTap_of_vio h _), s.resetWith_resetTo 1, rfl⟩
  case testOff =>
    intro h c hc
    rcases List.mem_pair.mp hc with rfl | rfl <;> exact congrArg Host.Outcome.next (State.viaTap_of_vio h _)
  case noVio =>
    intro h c hc
    simp only [List.mem_cons, List.not_mem_nil, or_false] at hc
    rcases hc with rfl | rfl | rfl <;> exact congrArg Host.Outcome.next (State.viaTap_of_no_vio h _)
  case ready =>
    intro bad hr ht
    refine ⟨_, congrArg Host.Outcome.next (State.startUp_of_reset bad hr ht), ?_⟩
    have hc : (s.booted bad).coreRuns = true := by rw [State.coreRuns, State.booted_pow]; rfl
    have hd : (s.booted bad).resumeSafe.settle.irq.deferred = [] := by
      rw [State.settle_deferred (State.coreRuns_congr hc (State.resumeSafe_pow _)), State.resumeSafe_deferred hc,
        State.booted_deferred]
    simp only [State.settle_pow, State.settle_mem, hd, State.settle_line_addr, State.settle_slu_waive, State.settle_otp,
      State.settle_sys_otpErr, State.settle_slu_safe, State.settle_slu_cause, State.resumeSafe_pow, State.resumeSafe_mem,
      State.resumeSafe_addr, State.resumeSafe_waive, State.resumeSafe_otp, State.resumeSafe_otpErr, State.booted_pow,
      State.booted_mem, State.booted_line, State.booted_otp, State.booted_slu, true_and]
    refine ⟨s.otp.read_of_good, s.otp.read_of_bad, s.booted_otpErr bad, fun hi => ?_, fun hs hl hw => ?_⟩
    · exact State.resumeSafe_of_safeIn (by simpa using hi)
    · exact State.resumeSafe_of_no_local (by simpa using hs) (by simpa using hl) (by simpa using s.otp.read_waive_ne_two bad hw)
  case held =>
    exact fun bad h => congrArg Host.Outcome.next (State.startUp_of_held bad h)

end Sys2Proof.Machine

/-! SUPPORT. What a write of SCHn_CTL and the COMMITTED transition do to the schedule table (chapter 7), and the proof of their
statement. -/

namespace Sys2Proof.Machine

open Sys2Proof.Safety

/-! ### The bits of SCHn_CTL (Table 7-2) -/

theorem bitsOf_congr {m n : Nat} {w : BitVec m} {x : BitVec n} {lo len : Nat}
    (h : ∀ i, i < len → w.getLsbD (lo + i) = x.getLsbD (lo + i)) : bitsOf w lo len = bitsOf x lo len := by
  refine Nat.eq_of_testBit_eq fun i => ?_
  rw [testBit_bitsOf, testBit_bitsOf]
  by_cases hi : i < len
  · rw [h i hi]
  · simp [hi]

/-- ACT, LATE and EVT as a write of SCHn_CTL leaves them. -/
def schCtlOf (v : Word) : BitVec 9 := BitVec.ofNat 9 (v.toNat &&& 0x13F)

/-- A field below ARM of a written word does not see the ARM that the command names. -/
theorem bitsOf_putBit_of_le {n : Nat} (w : BitVec n) (b : Bool) {i lo len : Nat} (h : lo + len ≤ i) (hn : lo + len ≤ n) :
    bitsOf (putBit w i b) lo len = bitsOf w lo len := by
  refine bitsOf_congr fun j hj => ?_
  have hb := bitOf_putBit w i (lo + j) b (by omega)
  rwa [if_neg (by omega)] at hb

theorem schCtlOf_getLsbD (v : Word) (i : Nat) : (schCtlOf v).getLsbD i = ((0x13F : Nat).testBit i && v.getLsbD i) := by
  rw [schCtlOf, BitVec.getLsbD_ofNat, Nat.testBit_and]
  by_cases hi : i < 9
  · simp [hi, BitVec.getLsbD, Bool.and_comm]
  · have hpow : 2 ^ 9 ≤ 2 ^ i := Nat.pow_le_pow_right (by decide) (Nat.le_of_not_lt hi)
    have h : (0x13F : Nat).testBit i = false := Nat.testBit_lt_two_pow (Nat.lt_of_lt_of_le (by decide) hpow)
    simp [hi, h]

theorem schCtlOf_act (v : Word) : bitsOf (schCtlOf v) 0 4 = bitsOf v 0 4 := by
  refine bitsOf_congr fun i hi => ?_
  rw [schCtlOf_getLsbD]
  interval_cases i <;> rfl

theorem schCtlOf_latePol (v : Word) : bitsOf (schCtlOf v) 4 2 = bitsOf v 4 2 := by
  refine bitsOf_congr fun i hi => ?_
  rw [schCtlOf_getLsbD]
  interval_cases i <;> rfl

theorem schCtlOf_evt (v : Word) : bitOf (schCtlOf v) 8 = bitOf v 8 := schCtlOf_getLsbD v 8

/-! ### One entry of the schedule table -/

/-- The schedule table of `u` is that of `s` with `x` as entry `e`. -/
def State.PutsEntry (s u : State) (e : Fin 32) (x : SchEntry) : Prop := u.sched.ent = s.sched.ent.set e.val x e.isLt

section
variable {s t u : State} {e : Fin 32} {x : SchEntry}

theorem State.PutsEntry.self (h : s.PutsEntry u e x) : u.sched.ent[e] = x := by
  simp [show u.sched.ent = _ from h]

theorem State.PutsEntry.other (h : s.PutsEntry u e x) (f : Fin 32) (hf : f ≠ e) : u.sched.ent[f] = s.sched.ent[f] := by
  rw [show u.sched.ent = _ from h]
  exact Vector.getElem_set_ne _ _ fun k => hf (Fin.ext k.symm)

theorem State.putsEntry_updSch (s : State) (e : Fin 32) (f : SchEntry → SchEntry) :
    s.PutsEntry (s.updSch e f) e (f s.sched.ent[e]) := rfl

theorem State.PutsEntry.updSch (h : s.PutsEntry u e x) (f : SchEntry → SchEntry) : s.PutsEntry (u.updSch e f) e (f x) := by
  have hx := h.self
  unfold State.PutsEntry at h ⊢
  rw [State.updSch_sched, tabUpd, hx, h, Vector.set_set]

/-- A step that leaves the schedule alone. -/
theorem State.PutsEntry.of_sched (h : s.PutsEntry u e x) (hu : t.sched = u.sched) : s.PutsEntry t e x := by
  unfold State.PutsEntry at h ⊢
  rw [hu, h]

end

/-- A completed entry: IDLE with its RESULT, its slot given back (R271). -/
def SchEntry.ended (x : SchEntry) (r : Nat) : SchEntry :=
  { x with state := .idle, result := BitVec.ofNat 4 r, slot := none, armedBy := none }

@[simp] theorem State.schEvent_sched (s : State) (e : Fin 32) : (s.schEvent e).sched = s.sched := by
  simp [State.schEvent]

theorem State.schComplete_sched (s : State) (e : Fin 32) (r : Nat) :
    (s.schComplete e r).sched = (s.updSch e fun x => x.ended r).sched := by
  simp only [State.schComplete, apply_ite State.sched, State.schEvent_sched, ite_self]
  rfl

theorem State.PutsEntry.schComplete {s u : State} {e : Fin 32} {x : SchEntry} (h : s.PutsEntry u e x) (r : Nat) :
    s.PutsEntry (u.schComplete e r) e (x.ended r) :=
  (h.updSch fun x => x.ended r).of_sched (u.schComplete_sched e r)

/-! ### The event of an entry (R271) -/

theorem schOwner_congr {s u : State} (h : u.sys.panLock = s.sys.panLock) (ha : u.alloc = s.alloc) : u.schOwner = s.schOwner :=
  funext fun k => packOwner_congr h ha 23 k

theorem State.schLocal_lt (s : State) (e : Fin 32) : s.schLocal e < 32 := by
  have h : s.schLocal e ≤ (List.range e.val).length := List.length_filter_le _ _
  rw [List.length_range] at h
  exact Nat.lt_of_le_of_lt h e.isLt

/-- The event sets the entry's bit of PAN_SCHEV in its pan. -/
theorem State.schEvent_schev (s : State) (e : Fin 32) :
    bitOf (s.schEvent e).pans[s.schOwner e].schev (s.schLocal e) = true := by
  simp [State.schEvent, bitOf_putBit _ _ _ _ (s.schLocal_lt e)]

/-- A completion that MISSED, LATE, BADARG or REFUSED reports raises the event, whatever EVT. -/
theorem State.schComplete_schev (s : State) (e : Fin 32) {n : Fin 4} {j r : Nat} (hn : s.schOwner e = n)
    (hj : s.schLocal e = j) (hr : r = rsMissed ∨ r = rsLate ∨ r = rsBadarg ∨ r = rsRefused) :
    bitOf (s.schComplete e r).pans[n].schev j = true := by
  subst hn hj
  have h : r = rsMissed ∨ r = rsLate ∨ r = rsBadarg ∨ r = rsRefused ∨ (r = rsOntime ∧ s.sched.ent[e].evt) := by tauto
  rw [State.schComplete, if_pos h]
  exact State.schEvent_schev _ e

/-! ### A write with ARM = 1 (R258-R260) -/

/-- What the checks of a write of SCHn_CTL find (R259, R264). -/
def State.armFinds (s : State) (p : Party) (e : Fin 32) (v : Word) : ArmCheck :=
  if bitsOf v 0 4 = 0 ∨ 6 < bitsOf v 0 4 ∨ bitsOf v 4 2 = 3 then .bad
  else s.checkArm (s.schOwner e) p.holder (bitsOf v 0 4) s.sched.ent[e].opnd

/-- The settings that a write gives an entry, with the fault that a refused operand raises. -/
def State.armNoted (s : State) (p : Party) (e : Fin 32) (v : Word) : State :=
  let s1 := s.updSch e fun x => { x with ctl := schCtlOf v }
  match s.armFinds p e v with
  | .access => s1.panFault (s.schOwner e) fltAccess
  | .cap => s1.panFault (s.schOwner e) fltCap
  | _ => s1

section
variable (s : State) (p : Party) (e : Fin 32) (v : Word)

theorem State.armNoted_puts : s.PutsEntry (s.armNoted p e v) e { s.sched.ent[e] with ctl := schCtlOf v } := by
  have h := s.putsEntry_updSch e fun x => { x with ctl := schCtlOf v }
  unfold State.armNoted
  dsimp only
  split
  · exact h.of_sched (State.panFault_sched _ _ _)
  · exact h.of_sched (State.panFault_sched _ _ _)
  · exact h

theorem State.armNoted_schOwner : (s.armNoted p e v).schOwner = s.schOwner := by
  unfold State.armNoted
  dsimp only
  split <;> exact schOwner_congr (by simp) (by simp)

theorem State.armNoted_schLocal : (s.armNoted p e v).schLocal e = s.schLocal e :=
  congrArg (fun owner => localNo owner e.val) (s.armNoted_schOwner p e v)

theorem State.schArm_of_not_idle (h : s.sched.ent[e].state ≠ .idle) :
    s.schArm p e v = s.updSch e fun x => { x with wrej := true } :=
  if_pos (bne_iff_ne.mpr h)

theorem State.takeTx_sched (u : State) (who : Option (Fin 8)) (g : Nat) :
    (u.takeTx e who g).sched = (u.updSch e fun x => { x with slot := some g, armedBy := who }).sched := by
  rw [State.takeTx, State.updSch_sched, State.updSch_sched]
  simp only [State.putSlotWord_sched]

/-- The slot of a TX entry that is armed passes to LINE; another entry takes none. -/
def State.armTakes (s u : State) (p : Party) (e : Fin 32) (v : Word) : State :=
  if bitsOf v 0 4 = 1 then
    match s.slotGlobal (s.schOwner e) (bitsOf s.sched.ent[e].opnd 0 11) with
    | some g => u.takeTx e p.holder g
    | none => u
  else u

/-- An ARM of an IDLE entry: BADARG, or ARMED, at once under its late policy when its instant is past. -/
theorem State.schArm_of_idle (hi : s.sched.ent[e].state = .idle) :
    s.schArm p e v =
      if s.armFinds p e v != .ok || 200000000 ≤ s.sched.ent[e].tick.toNat || !s.sys.panLock then
        (s.armNoted p e v).schComplete e rsBadarg
      else
        let u := s.armTakes ((s.armNoted p e v).updSch e fun x => { x with state := .armed }) p e v
        if s.isPast s.sched.ent[e].instant then u.schLate e else u :=
  if_neg fun hn => bne_iff_ne.mp hn hi

theorem State.schArm_of_refused (hi : s.sched.ent[e].state = .idle)
    (h : s.armFinds p e v ≠ .ok ∨ 200000000 ≤ s.sched.ent[e].tick.toNat ∨ s.sys.panLock = false) :
    s.schArm p e v = (s.armNoted p e v).schComplete e rsBadarg := by
  rw [s.schArm_of_idle p e v hi, if_pos (by simpa [or_assoc] using h)]

theorem State.schArm_of_accepted (hi : s.sched.ent[e].state = .idle) (hc : s.armFinds p e v = .ok)
    (ht : s.sched.ent[e].tick.toNat < 200000000) (hl : s.sys.panLock = true) (hp : s.isPast s.sched.ent[e].instant = false) :
    s.schArm p e v = s.armTakes ((s.armNoted p e v).updSch e fun x => { x with state := .armed }) p e v := by
  rw [s.schArm_of_idle p e v hi, if_neg (by simpa [hc, hl] using ht)]
  exact if_neg (ne_true_of_eq_false hp)

/-- An entry that takes a slot, or none, changes in the slot and its holder alone. -/
theorem State.armTakes_puts {u : State} {x : SchEntry} (h : s.PutsEntry u e x) :
    ∃ g who, s.PutsEntry (s.armTakes u p e v) e { x with slot := g, armedBy := who } := by
  unfold State.armTakes
  split
  · split
    next g _ =>
      have hg := h.updSch fun x => { x with slot := some g, armedBy := p.holder }
      exact ⟨some g, p.holder, hg.of_sched (u.takeTx_sched e p.holder g)⟩
    next => exact ⟨x.slot, x.armedBy, h⟩
  · exact ⟨x.slot, x.armedBy, h⟩

end

/-! ### A write with ARM = 0, and the COMMITTED transition (R260, R261, R279) -/

@[simp] theorem State.writeStatus_sched (s : State) (g code : Nat) (r : Record) : (s.writeStatus g code r).sched = s.sched := by
  unfold State.writeStatus
  cases r.sof <;> cases r.words <;> simp

@[simp] theorem State.giveBack_sched (s : State) (g : Nat) (who : Option (Fin 8)) : (s.giveBack g who).sched = s.sched := by
  cases who <;> simp [State.giveBack, State.passSlot]

@[simp] theorem State.cplEvent_sched (s : State) (n : Fin 4) (q : TxQueue) : (s.cplEvent n q).sched = s.sched := by
  unfold State.cplEvent
  split <;> simp

@[simp] theorem State.cplEvent_mem (s : State) (n : Fin 4) (q : TxQueue) : (s.cplEvent n q).mem = s.mem := by
  unfold State.cplEvent
  split <;> simp

@[simp] theorem State.reportTx_sched (s : State) (n q : Fin 4) (code : Nat) : (s.reportTx n q code).sched = s.sched := by
  simp [State.reportTx, State.arriveOwn, apply_ite State.sched]

@[simp] theorem State.reportTx_mem (s : State) (n q : Fin 4) (code : Nat) : (s.reportTx n q code).mem = s.mem := by
  simp [State.reportTx, State.arriveOwn, apply_ite State.mem]

@[simp] theorem State.schComplete_mem (s : State) (e : Fin 32) (r : Nat) : (s.schComplete e r).mem = s.mem := by
  simp [State.schComplete, State.schEvent, apply_ite State.mem]

@[simp] theorem State.finishTx_sched (s : State) (n q : Fin 4) (g code : Nat) (who : Option (Fin 8)) (r : Record) :
    (s.finishTx n q g code who r).sched = s.sched := by
  simp [State.finishTx]

@[simp] theorem State.dropTx_sched (s : State) (e : Fin 32) (code : Nat) : (s.dropTx e code).sched = s.sched := by
  unfold State.dropTx
  dsimp only
  split <;> simp

/-- A replaced field leaves the bits below it. -/
theorem toNat_putBits_mod {n : Nat} (w : BitVec n) {k lo : Nat} (len v : Nat) (hk : k ≤ lo) (hn : k ≤ n) :
    (putBits w lo len v).toNat % 2 ^ k = w.toNat % 2 ^ k := by
  have hle : bitsOf w lo len <<< lo ≤ w.toNat := by
    rw [bitsOf, Nat.shiftLeft_eq, Nat.shiftRight_eq_div_pow]
    exact (Nat.mul_le_mul_right _ (Nat.mod_le _ _)).trans (Nat.div_mul_le_self _ _)
  obtain ⟨a, ha⟩ : 2 ^ k ∣ bitsOf w lo len <<< lo := by
    rw [Nat.shiftLeft_eq]; exact Dvd.dvd.mul_left (Nat.pow_dvd_pow 2 hk) _
  obtain ⟨b, hb⟩ : 2 ^ k ∣ (v % 2 ^ len) <<< lo := by
    rw [Nat.shiftLeft_eq]; exact Dvd.dvd.mul_left (Nat.pow_dvd_pow 2 hk) _
  rw [putBits, BitVec.toNat_ofNat, Nat.mod_mod_of_dvd _ (Nat.pow_dvd_pow 2 hn), hb, Nat.add_mul_mod_self_left]
  rw [ha] at hle ⊢
  conv_rhs => rw [← Nat.sub_add_cancel hle, Nat.add_mul_mod_self_left]

@[simp] theorem State.slotWord_putSlotWord (s : State) (g w : Nat) (v : Word) : (s.putSlotWord g w v).slotWord g w = v :=
  memWord_memPutWord _ _ _

/-- A slot that changes hands keeps the low bits of its status word. -/
theorem State.passSlot_status_mod (s : State) (g own othr : Nat) {k : Nat} (hk : k ≤ 11) :
    ((s.passSlot g own othr).slotWord g 2).toNat % 2 ^ k = (s.slotWord g 2).toNat % 2 ^ k := by
  rw [State.passSlot, State.slotWord_putSlotWord, toNat_putBits_mod _ _ _ hk (by omega),
    toNat_putBits_mod _ _ _ (by omega) (by omega)]

theorem State.giveBack_status_mod (s : State) (g : Nat) (who : Option (Fin 8)) {k : Nat} (hk : k ≤ 11) :
    ((s.giveBack g who).slotWord g 2).toNat % 2 ^ k = (s.slotWord g 2).toNat % 2 ^ k := by
  cases who <;> exact s.passSlot_status_mod g _ _ hk

theorem toNat_flag_mod {i : Nat} (b : Bool) {k : Nat} (hk : k ≤ i) (hi : i < 32) : (flag i b).toNat % 2 ^ k = 0 := by
  cases b
  · simp [flag]
  · rw [flag, if_pos rfl, BitVec.toNat_ofNat, Nat.mod_mod_of_dvd _ (Nat.pow_dvd_pow 2 (hk.trans hi.le)), Nat.one_shiftLeft]
    exact Nat.mod_eq_zero_of_dvd (Nat.pow_dvd_pow 2 hk)

/-- The STATUS of an item that completes without a launch. -/
theorem State.writeStatus_waiting_status (s : State) (g : Nat) {code : Nat} (port : LinePort) (hc : code < 32) :
    ((s.writeStatus g code (.waiting port none)).slotWord g 2).toNat % 2 ^ 5 = code := by
  have hz : (putBits (s.slotWord g 2) 0 11 0).toNat % 2 ^ 5 = 0 := by
    simp only [putBits, bitsOf_zero, BitVec.toNat_ofNat, Nat.shiftLeft_zero, Nat.zero_mod, Nat.add_zero]
    omega
  have hf : (field 0 code).toNat % 2 ^ 5 = code := by
    simp only [field, Nat.shiftLeft_zero, BitVec.toNat_ofNat]
    omega
  show ((s.putSlotWord g 2 _).slotWord g 2).toNat % 2 ^ 5 = code
  rw [State.slotWord_putSlotWord]
  simp (disch := decide) only [BitVec.toNat_or, Nat.or_mod_two_pow, hz, hf, toNat_flag_mod, Nat.zero_or, Nat.or_zero]

theorem State.dropTx_of_slot (s : State) (e : Fin 32) {g : Nat} (code : Nat) (hg : s.sched.ent[e].slot = some g) :
    s.dropTx e code = s.finishTx (s.schOwner e) s.sched.ent[e].txq g code s.sched.ent[e].armedBy
      (.waiting (s.tq (s.schOwner e) s.sched.ent[e].txq).port none) := by
  unfold State.dropTx
  dsimp only
  rw [hg]

/-- An armed TX entry that is disarmed leaves its status in its slot (R260). -/
theorem State.dropTx_status (s : State) (e : Fin 32) {g code : Nat} (hg : s.sched.ent[e].slot = some g) (hc : code < 32) :
    ((s.dropTx e code).slotWord g 2).toNat % 2 ^ 5 = code := by
  rw [s.dropTx_of_slot e code hg, State.finishTx, State.slotWord, State.reportTx_mem]
  exact (State.giveBack_status_mod _ g _ (by decide)).trans (s.writeStatus_waiting_status g _ hc)

/-! #### SCHn_CTL with ARM = 0 -/

section
variable {s : State} {e : Fin 32} (v : Word)

theorem State.schDisarm_of_idle (h : s.sched.ent[e].state = .idle) :
    s.schDisarm e v = s.updSch e fun x => { x with ctl := schCtlOf v } := by
  unfold State.schDisarm
  rw [h]
  rfl

theorem State.schDisarm_of_committed (h : s.sched.ent[e].state = .committed) :
    s.schDisarm e v = s.updSch e fun x => { x with wrej := true } := by
  unfold State.schDisarm
  rw [h]

/-- The COMMITTED transition wins over a disarming write of the same core cycle (R279). -/
theorem State.schDisarm_of_due (h : s.sched.ent[e].state = .armed) (hd : s.commitDue e = true) :
    s.schDisarm e v = s.updSch e fun x => { x with state := .committed, wrej := true } := by
  unfold State.schDisarm
  rw [h]
  exact if_pos hd

theorem State.schDisarm_of_armed (h : s.sched.ent[e].state = .armed) (hd : s.commitDue e = false) :
    s.schDisarm e v =
      ((s.dropTx e stAborted).schComplete e rsCancelled).updSch e fun x => { x with ctl := schCtlOf v } := by
  unfold State.schDisarm
  rw [h]
  exact if_neg (ne_true_of_eq_false hd)

end

/-! ### The state in which a served write of SCHn_CTL acts -/

section
variable (s : State) (p : Party) (key : Option (Fin 5)) (r : Rg)

@[simp] theorem State.writing_sched : (s.writing p key r).sched = s.sched := by rw [State.writing_eq]
@[simp] theorem State.writing_panLock : (s.writing p key r).sys.panLock = s.sys.panLock := by rw [State.writing_eq]
@[simp] theorem State.writing_schOwner : (s.writing p key r).schOwner = s.schOwner := by rw [State.writing_eq]; rfl
@[simp] theorem State.writing_schLocal (e : Fin 32) : (s.writing p key r).schLocal e = s.schLocal e := by
  rw [State.writing_eq]; rfl
@[simp] theorem State.writing_isPast (i : Instant) : (s.writing p key r).isPast i = s.isPast i := by
  rw [State.writing_eq]; rfl
@[simp] theorem State.writing_commitDue (e : Fin 32) : (s.writing p key r).commitDue e = s.commitDue e := by
  rw [State.writing_eq]; rfl
@[simp] theorem State.writing_checkArm (n : Fin 4) (who : Option (Fin 8)) (act : Nat) (o : Word) :
    (s.writing p key r).checkArm n who act o = s.checkArm n who act o := by
  rw [State.writing_eq]; rfl

end

section
variable {s : State} {p : Party} {e : Fin 32} {v : Word}

theorem State.armFinds_writing (key : Option (Fin 5)) (r : Rg) (b : Bool) :
    (s.writing p key r).armFinds p e (putBit v 31 b) = s.armFinds p e v := by
  simp only [State.armFinds, State.writing_checkArm, State.writing_schOwner, State.writing_sched,
    bitsOf_putBit_of_le v b (i := 31) (lo := 0) (len := 4) (by decide) (by decide),
    bitsOf_putBit_of_le v b (i := 31) (lo := 4) (len := 2) (by decide) (by decide)]

theorem State.writing_puts {key : Option (Fin 5)} {r : Rg} {u : State} {x : SchEntry}
    (h : (s.writing p key r).PutsEntry u e x) : s.PutsEntry u e x := by
  unfold State.PutsEntry at h ⊢
  rwa [State.writing_sched] at h

/-- A write that changes one entry alone. -/
theorem State.puts_of_write {r : Rg} {u : State} {f : SchEntry → SchEntry} (h : LikeState u ((s.writing p none r).updSch e f)) :
    s.PutsEntry u e (f s.sched.ent[e]) := by
  have hput := State.writing_puts ((State.putsEntry_updSch _ e f).of_sched h.sched)
  rwa [State.writing_sched] at hput

theorem State.schCtl_of_arm (s : State) (p : Party) (e : Fin 32) (v : Word) :
    s.schCtl p e (putBit v 31 true) = s.schArm p e (putBit v 31 true) :=
  if_pos (by rw [bitOf_putBit _ _ _ _ (by decide), if_pos rfl])

theorem State.schCtl_of_disarm (s : State) (p : Party) (e : Fin 32) (v : Word) :
    s.schCtl p e (putBit v 31 false) = s.schDisarm e (putBit v 31 false) :=
  if_neg (by rw [bitOf_putBit _ _ _ _ (by decide), if_pos rfl]; decide)

section
variable {n : Fin 4} {k : Fin 32} {P : State → Prop} (hs : served s p (.win n)) (hr : s.regAt (.win n) (schCtlAt k) = .schCtl e)
include hs hr

/-- A served write of SCHn_CTL. -/
theorem leads_schCtl {c : Instr} (he : exec c s = .next (s.partyWrite p (.win n) (schCtlAt k) v))
    (hP : ∀ u, LikeState u ((s.writing p none (.schCtl e)).schCtl p e v) → P u) : Leads c s P :=
  leads_open_write he hs hr rfl rfl (State.schCtl_keeps p e v (.refl false _)) hP

theorem leads_scheduleArm (hP : ∀ u, LikeState u ((s.writing p none (.schCtl e)).schArm p e (putBit v 31 true)) → P u) :
    Leads (.scheduleArm p n k v) s P :=
  leads_schCtl hs hr rfl (by rwa [State.schCtl_of_arm])

theorem leads_scheduleDisarm (hP : ∀ u, LikeState u ((s.writing p none (.schCtl e)).schDisarm e (putBit v 31 false)) → P u) :
    Leads (.scheduleDisarm p n k v) s P :=
  leads_schCtl hs hr rfl (by rwa [State.schCtl_of_disarm])

end

/-! ### What each write leaves in the schedule table -/

/-- The settings that a command's write leaves, whatever ARM it writes. -/
theorem schCtlOf_putBit (v : Word) (b : Bool) :
    bitsOf (schCtlOf (putBit v 31 b)) 0 4 = bitsOf v 0 4 ∧ bitsOf (schCtlOf (putBit v 31 b)) 4 2 = bitsOf v 4 2 ∧
      bitOf (schCtlOf (putBit v 31 b)) 8 = bitOf v 8 := by
  refine ⟨?_, ?_, ?_⟩
  · rw [schCtlOf_act, bitsOf_putBit_of_le _ _ (by decide) (by decide)]
  · rw [schCtlOf_latePol, bitsOf_putBit_of_le _ _ (by decide) (by decide)]
  · rw [schCtlOf_evt, bitOf_putBit _ _ _ _ (by decide), if_neg (by decide)]

theorem State.schArm_puts_of_accepted (hi : s.sched.ent[e].state = .idle) (hc : s.armFinds p e v = .ok)
    (ht : s.sched.ent[e].tick.toNat < 200000000) (hl : s.sys.panLock = true) (hp : s.isPast s.sched.ent[e].instant = false) :
    ∃ g who, s.PutsEntry (s.schArm p e v) e
      { s.sched.ent[e] with ctl := schCtlOf v, state := .armed, slot := g, armedBy := who } := by
  rw [s.schArm_of_accepted p e v hi hc ht hl hp]
  exact s.armTakes_puts p e v ((s.armNoted_puts p e v).updSch fun x => { x with state := .armed })

theorem State.schArm_puts_of_refused (hi : s.sched.ent[e].state = .idle)
    (h : s.armFinds p e v ≠ .ok ∨ 200000000 ≤ s.sched.ent[e].tick.toNat ∨ s.sys.panLock = false) :
    s.PutsEntry (s.schArm p e v) e (({ s.sched.ent[e] with ctl := schCtlOf v } : SchEntry).ended rsBadarg) := by
  rw [s.schArm_of_refused p e v hi h]
  exact (s.armNoted_puts p e v).schComplete rsBadarg

/-- A refused arm raises the entry's event (R259). -/
theorem State.schArm_schev_of_refused (hi : s.sched.ent[e].state = .idle)
    (h : s.armFinds p e v ≠ .ok ∨ 200000000 ≤ s.sched.ent[e].tick.toNat ∨ s.sys.panLock = false) :
    bitOf (s.schArm p e v).pans[s.schOwner e].schev (s.schLocal e) = true := by
  rw [s.schArm_of_refused p e v hi h]
  exact State.schComplete_schev _ e (congrFun (s.armNoted_schOwner p e v) e.val) (s.armNoted_schLocal p e v) (by simp)

theorem State.schDisarm_puts_of_armed (h : s.sched.ent[e].state = .armed) (hd : s.commitDue e = false) :
    s.PutsEntry (s.schDisarm e v) e { s.sched.ent[e].ended rsCancelled with ctl := schCtlOf v } := by
  have hdrop : s.PutsEntry (s.dropTx e stAborted) e s.sched.ent[e] := by
    rw [State.PutsEntry, State.dropTx_sched]
    exact (Vector.set_getElem_self e.isLt).symm
  rw [State.schDisarm_of_armed v h hd]
  exact (hdrop.schComplete rsCancelled).updSch fun x => { x with ctl := schCtlOf v }

theorem State.schDisarm_status_of_armed (h : s.sched.ent[e].state = .armed) (hd : s.commitDue e = false) {g : Nat}
    (hg : s.sched.ent[e].slot = some g) : (s.schDisarm e v).slotWord g 2 &&& 0x1F = 4 := by
  have hm : (s.schDisarm e v).mem = (s.dropTx e stAborted).mem := by
    rw [State.schDisarm_of_armed v h hd, State.updSch_mem, State.schComplete_mem]
  have hw := s.dropTx_status e (code := stAborted) hg (by decide)
  rw [State.slotWord, ← hm] at hw
  refine BitVec.eq_of_toNat_eq ?_
  rw [BitVec.toNat_and]
  exact (Nat.and_two_pow_sub_one_eq_mod _ 5).trans hw

end

/-- What refuses an arm (R259), as the statement lists it. -/
theorem State.armRefused_of {s : State} {p : Party} {e : Fin 32} {v : Word}
    (h : s.checkArm (s.schOwner e) p.holder (bitsOf v 0 4) s.sched.ent[e].opnd ≠ .ok ∨ bitsOf v 4 2 = 3 ∨ s.sys.panLock = false ∨
      200000000 ≤ s.sched.ent[e].tick.toNat) :
    s.armFinds p e v ≠ .ok ∨ 200000000 ≤ s.sched.ent[e].tick.toNat ∨ s.sys.panLock = false := by
  rcases h with h | h | h | h
  · left
    unfold State.armFinds
    split
    · decide
    · exact h
  · exact .inl (by simp [State.armFinds, h])
  · exact .inr (.inr h)
  · exact .inr (.inl h)

/-! ### The statement -/

/-- Settles O37: a served write of SCHn_CTL is `State.schCtl` on the state in which the access acts, and each branch of it puts one
entry into the schedule table and leaves the others. -/
theorem scheduleArming : Obligations.ScheduleArming := by
  unfold Obligations.ScheduleArming
  intro s p n k e v hs hr
  dsimp only
  have hsched : ∀ f : Fin 32, (s.writing p none (.schCtl e)).sched.ent[f] = s.sched.ent[f] := by simp
  have hdue := s.writing_commitDue p none (.schCtl e) e
  refine ⟨?arm, ?refused, ?busy, ?settings, ?due, ?disarm, ?committed, ?commit, ?early⟩
  case arm =>
    intro hi hl h1 h6 hp ht hc hpast ho
    have hf : s.armFinds p e v = .ok := by
      rw [State.armFinds, if_neg (by omega), ho]
      exact hc
    refine leads_scheduleArm hs hr fun u hu => ?_
    obtain ⟨g, who, h⟩ := State.schArm_puts_of_accepted (s := s.writing p none (.schCtl e)) (v := putBit v 31 true)
      ((congrArg SchEntry.state (hsched e)).trans hi) ((State.armFinds_writing none _ true).trans hf)
      (by rwa [hsched]) (by simpa using hl) (by rwa [hsched, State.writing_isPast])
    have hput := State.writing_puts (h.of_sched hu.sched)
    obtain ⟨hact, hlate, hevt⟩ := schCtlOf_putBit v true
    rw [hsched] at hput
    rw [hput.self]
    exact ⟨rfl, hact, hlate, hevt, rfl, rfl, rfl, hput.other⟩
  case refused =>
    intro hi ho hbad
    rw [← ho] at hbad
    have hbad' : (s.writing p none (.schCtl e)).armFinds p e (putBit v 31 true) ≠ .ok ∨
        200000000 ≤ (s.writing p none (.schCtl e)).sched.ent[e].tick.toNat ∨
        (s.writing p none (.schCtl e)).sys.panLock = false := by
      rw [State.armFinds_writing, hsched, State.writing_panLock]
      exact State.armRefused_of hbad
    refine leads_scheduleArm hs hr fun u hu => ?_
    have hi' := (congrArg SchEntry.state (hsched e)).trans hi
    have hput := State.writing_puts ((State.schArm_puts_of_refused hi' hbad').of_sched hu.sched)
    have hev := State.schArm_schev_of_refused hi' hbad'
    rw [← hu.pans, State.writing_schLocal] at hev
    subst ho
    refine ⟨?_, ?_, hput.other, ?_⟩
    · rw [hput.self]; rfl
    · rw [hput.self]; rfl
    · simpa using hev
  case busy =>
    intro h
    refine leads_scheduleArm hs hr fun u hu => ?_
    rw [State.schArm_of_not_idle _ _ _ _ (by rwa [hsched])] at hu
    have hput := State.puts_of_write hu
    exact ⟨hput.self, hput.other⟩
  case settings =>
    intro h
    refine leads_scheduleDisarm hs hr fun u hu => ?_
    rw [State.schDisarm_of_idle _ (by rwa [hsched])] at hu
    have hput := State.puts_of_write hu
    rw [hput.self]
    exact ⟨rfl, (schCtlOf_putBit v false).1, hput.other⟩
  case due =>
    intro h hd
    refine leads_scheduleDisarm hs hr fun u hu => ?_
    rw [State.schDisarm_of_due _ (by rwa [hsched]) (hdue.trans hd)] at hu
    have hput := State.puts_of_write hu
    exact ⟨hput.self, hput.other⟩
  case disarm =>
    intro h hd
    have h' := (congrArg SchEntry.state (hsched e)).trans h
    refine leads_scheduleDisarm hs hr fun u hu => ?_
    have hput := State.writing_puts ((State.schDisarm_puts_of_armed h' (hdue.trans hd)).of_sched hu.sched)
    refine ⟨?_, ?_, hput.other, fun g hg => ?_⟩
    · rw [hput.self]; rfl
    · rw [hput.self]; rfl
    · rw [State.slotWord, hu.mem]
      exact State.schDisarm_status_of_armed h' (hdue.trans hd) (by rwa [hsched])
  case committed =>
    intro h
    refine leads_scheduleDisarm hs hr fun u hu => ?_
    rw [State.schDisarm_of_committed _ (by rwa [hsched])] at hu
    have hput := State.puts_of_write hu
    exact ⟨hput.self, hput.other⟩
  case commit =>
    intro hrun h hd
    have hc : (s.coreRuns && s.sched.ent[e].state == .armed && s.commitDue e) = true := by
      rw [hrun, h, State.commitDue, decide_eq_true hd]; rfl
    have hput := s.putsEntry_updSch e fun x => { x with state := .committed }
    exact ⟨_, congrArg Host.Outcome.next (if_pos hc), hput.self, hput.other, rfl, rfl⟩
  case early =>
    intro hd hreach
    have hc : ¬(s.coreRuns && s.sched.ent[e].state == .armed && s.commitDue e) = true := by
      rw [State.commitDue, hreach, decide_eq_false (Nat.not_le.2 hd), Bool.or_self, Bool.and_false]
      decide
    exact congrArg Host.Outcome.next (if_neg hc)

end Sys2Proof.Machine

/-! SUPPORT. An entry that fires with a reserved ACT, and the refutation of the statement about the schedule's actions (chapter 7). -/

namespace Sys2Proof.Machine

open Sys2Proof.Safety

section
variable {s : State} {e : Fin 32}

/-- An entry fires on time as IRQ (R269): the arrival, then its completion. -/
theorem State.schFire_of_irq (h : s.sched.ent[e].act = 5) :
    s.schFire e false = ((s.updSch e fun x => { x with unsync := s.tide.lock != .locked }).arrive
      (bitsOf s.sched.ent[e].opnd 0 7)).schComplete e rsOntime := by
  unfold State.schFire
  rw [h]
  rfl

/-- An entry whose ACT is 0 fires as CHANNEL does: `State.schFire` has no other meaning for a reserved ACT. -/
theorem State.schFire_of_no_act (h : s.sched.ent[e].act = 0) :
    s.schFire e false = (s.updSch e fun x => { x with unsync := s.tide.lock != .locked }).fireChannel e false := by
  unfold State.schFire
  rw [h]
  rfl

/-- On a busy port an allowed plan waits for the bus idle, and its entry stays COMMITTED (log 26). -/
theorem State.fireChannel_state_of_busy {late : Bool} {plan : Nat} (hp : s.planOf s.sched.ent[e].opnd = some plan)
    (ha : s.planAllowed plan = true) (hen : s.portEn .plc = true) (hu : s.line.plc.use = .sending) :
    (s.fireChannel e late).sched.ent[e].state = .committed := by
  have hb : (s.portEn .plc && s.line.plc.use != .idle && s.line.plc.use != .waitTen && s.line.plc.use != .suspended) = true := by
    rw [hen, hu]; rfl
  unfold State.fireChannel
  rw [hp]
  dsimp only
  rw [ha, hb, Bool.not_true, if_neg Bool.false_ne_true, if_pos rfl]
  exact congrArg SchEntry.state (s.putsEntry_updSch e fun x => { x with state := .committed }).self

theorem State.fireDue_of_due (hs : s.sched.ent[e].state = .committed) (hr : s.reached s.sched.ent[e].instant = true)
    (hp : s.line.chanPend = []) : s.fireDue e = s.schFire e false := by
  have hd : (s.sched.ent[e].state == .committed && s.reached s.sched.ent[e].instant &&
      !(s.line.chanPend.any fun c => c.1 == e)) = true := by
    rw [hs, hr, hp]; rfl
  exact if_pos hd

/-- An IRQ entry that fires, or is not due, leaves every other entry. -/
theorem State.fireDue_other_of_irq (h : s.sched.ent[e].act = 5) {f : Fin 32} (hf : f ≠ e) :
    (s.fireDue e).sched.ent[f] = s.sched.ent[f] := by
  have hput := s.putsEntry_updSch e fun x => { x with unsync := s.tide.lock != .locked }
  have hdone := (hput.of_sched (State.arrive_sched _ (bitsOf s.sched.ent[e].opnd 0 7))).schComplete rsOntime
  rw [← State.schFire_of_irq h] at hdone
  unfold State.fireDue
  dsimp only
  split
  · exact hdone.other f hf
  · rfl

end

/-- Entries 0 and 1 of P0, COMMITTED and due at one instant, while the PLC port sends: entry 0 has ACT 0 and names plan 6, entry 1 is
an IRQ. R259 refuses to arm an ACT of 0. -/
def noActDue : State :=
  let s : State := { State.reset with pow := { State.reset.pow with state := .run, pllLock := true } }
  ((s.updSch 0 fun x => { x with state := .committed, opnd := 6 }).updSch 1 fun x =>
    { x with state := .committed, ctl := 5, opnd := 96 }).updLine fun l =>
      { l with plcCtl := 1, plc := { l.plc with use := .sending } }

theorem noActDue_fires : noActDue.fireDue 0 = noActDue.schFire 0 false :=
  State.fireDue_of_due (by decide) (by decide) rfl

theorem noActDue_first : (noActDue.fireDue 0).sched.ent[(0 : Fin 32)].state = .committed := by
  rw [noActDue_fires, State.schFire_of_no_act (by decide)]
  exact State.fireChannel_state_of_busy (plan := 6) (by decide) (by decide) (by decide) (by decide)

theorem noActDue_second : (noActDue.fireDue 0).sched.ent[(1 : Fin 32)].act = 5 := by
  rw [noActDue_fires]
  decide

theorem noActDue_exec : exec (.schIrqAction 1) noActDue = .next ((noActDue.fireDue 0).fireDue 1) := by
  have hd : (noActDue.coreRuns && noActDue.sched.ent[(1 : Fin 32)].state == .committed &&
      noActDue.reached noActDue.sched.ent[(1 : Fin 32)].instant && noActDue.sched.ent[(1 : Fin 32)].act == 5) = true := by decide
  have hb : noActDue.firesBefore 1 = [0] := by decide
  have hf : noActDue.fireIf 1 5 = (noActDue.fireDue 0).fireDue 1 := by
    unfold State.fireIf
    dsimp only
    rw [if_pos hd, hb]
    rfl
  exact congrArg Host.Outcome.next hf

/-- Refutes O38: of two entries of one pan and instant, the lower-numbered one is not IDLE after the higher one's command when it has
ACT 0 and the PLC port sends. The order clause leaves out ACT 6 alone, and an entry with a reserved ACT waits for the bus idle as a
CHANNEL entry does. No run reaches the state, since R259 refuses such an arm; the statement does not have that premise. -/
theorem not_scheduleActions : ¬ Obligations.ScheduleActions := by
  unfold Obligations.ScheduleActions
  rintro ⟨h, -⟩
  have hpend : noActDue.line.chanPend = [] := rfl
  have hnone : ∀ k : Fin 32, ∀ c ∈ noActDue.line.chanPend, c.1 ≠ k := by simp [hpend]
  obtain ⟨-, horder, -⟩ := h noActDue 1 (by decide) (by decide) (hnone 1)
  obtain ⟨u, hu, hidle⟩ := horder 0 (by decide) (by decide) (by decide) (by decide) (by decide) (hnone 0) (by decide) (by decide)
  have hcommitted : ((noActDue.fireDue 0).fireDue 1).sched.ent[(0 : Fin 32)].state = .committed := by
    rw [State.fireDue_other_of_irq noActDue_second (by decide)]
    exact noActDue_first
  rw [noActDue_exec] at hu
  cases hu
  rw [hcommitted] at hidle
  cases hidle

end Sys2Proof.Machine

/-! SUPPORT. What PANLOCK and the reset of a pan leave (chapter 8), and the proof of their statement. -/

namespace Sys2Proof.Machine

open Sys2Proof.Safety

/-! ### The state in which a served write of SYS_LOCK, SYS_PANRST or PAN_CTL acts -/

section
variable (s : State) (p : Party) (key : Option (Fin 5)) (r : Rg)

@[simp] theorem State.writing_alloc : (s.writing p key r).alloc = s.alloc := by rw [State.writing_eq]
@[simp] theorem State.writing_pans : (s.writing p key r).pans = s.pans := by rw [State.writing_eq]
@[simp] theorem State.writing_eng : (s.writing p key r).eng = s.eng := by rw [State.writing_eq]
@[simp] theorem State.writing_mem : (s.writing p key r).mem = s.mem := by rw [State.writing_eq]
@[simp] theorem State.writing_dbgLock : (s.writing p key r).sys.dbgLock = s.sys.dbgLock := by rw [State.writing_eq]
@[simp] theorem State.writing_allocCheck : (s.writing p key r).allocCheck = s.allocCheck := by rw [State.writing_eq]; rfl
@[simp] theorem State.writing_panEn (n : Fin 4) : (s.writing p key r).panEn n = s.panEn n := by rw [State.writing_eq]; rfl
@[simp] theorem State.writing_thrOwner : (s.writing p key r).thrOwner = s.thrOwner := by rw [State.writing_eq]; rfl
@[simp] theorem State.writing_lockOwner : (s.writing p key r).lockOwner = s.lockOwner := by rw [State.writing_eq]; rfl

end

/-! ### The scrub of a pan's memory (R296, R317) -/

/-- Memory after several ranges are zeroed: a byte of one of them reads zero, and so does one that read zero before. -/
theorem memGet_foldl_memZero {α : Type} (lo hi : α → Nat) (b : Nat) (l : List α) (m : List Host.Cell) :
    (∀ x ∈ l, lo x ≤ b → b < hi x → memGet (l.foldl (fun m x => memZero m (lo x) (hi x)) m) b = 0) ∧
      (memGet m b = 0 → memGet (l.foldl (fun m x => memZero m (lo x) (hi x)) m) b = 0) := by
  induction l generalizing m with
  | nil => simp
  | cons y l ih =>
    obtain ⟨hmem, hzero⟩ := ih (memZero m (lo y) (hi y))
    refine ⟨fun x hx hl hh => ?_, fun h => hzero ?_⟩
    · rcases List.mem_cons.1 hx with rfl | hx
      · exact hzero (by rw [memGet_memZero, if_pos ⟨hl, hh⟩])
      · exact hmem x hx hl hh
    · rw [memGet_memZero, h, ite_self]

/-- Byte `b` lies in the scratch RAM or in a brine unit of pan `n`. -/
def State.PanByte (s : State) (n : Fin 4) (b : Nat) : Prop :=
  inRegion (s.scratchRegion n) b = true ∨
    ∃ k : Nat, k < 42 ∧ s.unitOwner k = n ∧ slotAddr (32 * k) 0 ≤ b ∧ b < slotAddr (32 * k + 32) 0

theorem State.PanByte.congr {s u : State} {n : Fin 4} {b : Nat} (h : s.PanByte n b) (hl : u.sys.panLock = s.sys.panLock)
    (ha : u.alloc = s.alloc) : u.PanByte n b := by
  have hr : u.scratchRegion n = s.scratchRegion n := by simp only [State.scratchRegion, State.allocWord, ha]
  have ho : u.unitOwner = s.unitOwner := funext fun k => packOwner_congr hl ha 12 k
  rwa [State.PanByte, hr, ho]

@[simp] theorem State.scrubPan_sys (s : State) (n : Fin 4) : (s.scrubPan n).sys = s.sys := rfl
@[simp] theorem State.scrubPan_alloc (s : State) (n : Fin 4) : (s.scrubPan n).alloc = s.alloc := rfl

theorem State.scrubPan_memGet_of_zero (s : State) (n : Fin 4) {b : Nat} (h : memGet s.mem b = 0) :
    memGet (s.scrubPan n).mem b = 0 := by
  simp only [State.scrubPan, memGet_memZero, (memGet_foldl_memZero _ _ b _ s.mem).2 h, ite_self]

theorem State.scrubPan_memGet_of_panByte (s : State) (n : Fin 4) {b : Nat} (h : s.PanByte n b) :
    memGet (s.scrubPan n).mem b = 0 := by
  simp only [State.scrubPan, memGet_memZero]
  rcases h with h | ⟨k, hk, ho, hb⟩
  · exact if_pos (by simpa [inRegion] using h)
  · have hmem : k ∈ (List.range 42).filter fun u => s.unitOwner u == n := by simp [hk, ho]
    rw [(memGet_foldl_memZero (fun u => slotAddr (32 * u) 0) (fun u => slotAddr (32 * u + 32) 0) b _ s.mem).1 k hmem hb.1 hb.2,
      ite_self]

/-- The scrub of several pans zeroes the memory of each. -/
theorem State.foldl_scrubPan_memGet (b : Nat) (l : List (Fin 4)) (s : State) :
    (memGet s.mem b = 0 → memGet (l.foldl State.scrubPan s).mem b = 0) ∧
      (∀ n ∈ l, s.PanByte n b → memGet (l.foldl State.scrubPan s).mem b = 0) := by
  induction l generalizing s with
  | nil => simp
  | cons m l ih =>
    obtain ⟨hzero, hpan⟩ := ih (s.scrubPan m)
    refine ⟨fun h => hzero (s.scrubPan_memGet_of_zero m h), fun n hn h => ?_⟩
    rcases List.mem_cons.1 hn with rfl | hn
    · exact hzero (s.scrubPan_memGet_of_panByte n h)
    · exact hpan n hn (h.congr rfl rfl)

/-! ### PANLOCK (R295, R296) -/

@[simp] theorem State.passSlot_sys (s : State) (g own othr : Nat) : (s.passSlot g own othr).sys = s.sys := rfl
@[simp] theorem State.passSlot_alloc (s : State) (g own othr : Nat) : (s.passSlot g own othr).alloc = s.alloc := rfl

@[simp] theorem State.lockSlots_sys (s : State) : s.lockSlots.sys = s.sys := by
  unfold State.lockSlots
  exact foldl_keeps State.sys _ (fun s g => by simp only [apply_ite State.sys, State.passSlot_sys, ite_self]) _ s
@[simp] theorem State.lockSlots_alloc (s : State) : s.lockSlots.alloc = s.alloc := by
  unfold State.lockSlots
  exact foldl_keeps State.alloc _ (fun s g => by simp only [apply_ite State.alloc, State.passSlot_alloc, ite_self]) _ s
@[simp] theorem State.lockMailboxes_sys (s : State) : s.lockMailboxes.sys = s.sys := by
  unfold State.lockMailboxes
  exact foldl_keeps State.sys _ (fun t k => by simp only [apply_ite State.sys, State.passSlot_sys, ite_self]) _ s
@[simp] theorem State.lockMailboxes_alloc (s : State) : s.lockMailboxes.alloc = s.alloc := by
  unfold State.lockMailboxes
  exact foldl_keeps State.alloc _ (fun t k => by simp only [apply_ite State.alloc, State.passSlot_alloc, ite_self]) _ s

/-- Where the scrub of PANLOCK begins: the slots that threads hold and the mailboxes passed on, the allocation frozen. -/
def State.frozen (s : State) : State :=
  s.lockMailboxes.lockSlots.updSys fun y => { y with panLock := true, scrub := true, allocErr := 0 }

theorem State.frozen_sys (s : State) : s.frozen.sys = { s.sys with panLock := true, scrub := true, allocErr := 0 } := by
  rw [State.frozen, State.updSys_sys, State.lockSlots_sys, State.lockMailboxes_sys]

theorem State.frozen_alloc (s : State) : s.frozen.alloc = s.alloc := by
  rw [State.frozen, State.updSys_alloc, State.lockSlots_alloc, State.lockMailboxes_alloc]

/-- The scrub of P1 to P3. -/
def State.scrubbed (s : State) : State := ([1, 2, 3] : List (Fin 4)).foldl State.scrubPan s

theorem State.scrubbed_sys (s : State) : s.scrubbed.sys = s.sys := foldl_keeps State.sys _ State.scrubPan_sys _ s
theorem State.scrubbed_alloc (s : State) : s.scrubbed.alloc = s.alloc := foldl_keeps State.alloc _ State.scrubPan_alloc _ s

theorem State.lockNow_eq (s : State) : s.lockNow = s.lockRest s.frozen.scrubbed := rfl

theorem State.lockRest_sys (s u : State) : (s.lockRest u).sys = u.sys := rfl
theorem State.lockRest_alloc (s u : State) : (s.lockRest u).alloc = u.alloc := rfl
theorem State.lockRest_mem (s u : State) : (s.lockRest u).mem = u.mem := rfl

/-- P1 to P3 begin at their reset values. -/
theorem State.lockRest_pan (s u : State) {m : Fin 4} (hm : m ≠ 0) : (s.lockRest u).pans[m] = s.freshPan m := by
  have h : m.val ≠ 0 := fun e => hm (Fin.ext e)
  rw [State.lockRest, tabMapIdx_get, if_neg h, idx, Fin.ofNat_val_eq_self]

theorem State.lockNow_sys (s : State) : s.lockNow.sys = { s.sys with panLock := true, scrub := true, allocErr := 0 } := by
  rw [State.lockNow_eq, State.lockRest_sys, State.scrubbed_sys, State.frozen_sys]

theorem State.lockNow_alloc (s : State) : s.lockNow.alloc = s.alloc := by
  rw [State.lockNow_eq, State.lockRest_alloc, State.scrubbed_alloc, State.frozen_alloc]

theorem State.lockNow_tq (s : State) {m : Fin 4} (hm : m ≠ 0) : s.lockNow.pans[m].tq = .replicate 4 .reset := by
  rw [State.lockNow_eq, State.lockRest_pan s _ hm]
  rfl

/-- What the scrub has zeroed, what PANLOCK does after it leaves zero. -/
theorem State.lockRest_memGet (s u : State) {m : Fin 4} (hm : m ≠ 0) {b : Nat} (h : (s.lockRest u.scrubbed).PanByte m b) :
    memGet (s.lockRest u.scrubbed).mem b = 0 := by
  have hmem : ∀ m : Fin 4, m ≠ 0 → m ∈ ([1, 2, 3] : List (Fin 4)) := by decide
  rw [State.lockRest_mem]
  refine (State.foldl_scrubPan_memGet b [1, 2, 3] u).2 m (hmem m hm) (h.congr ?_ ?_)
  · rw [State.lockRest_sys, State.scrubbed_sys]
  · rw [State.lockRest_alloc, State.scrubbed_alloc]

theorem State.lockNow_memGet (s : State) {m : Fin 4} (hm : m ≠ 0) {b : Nat} (h : s.lockNow.PanByte m b) :
    memGet s.lockNow.mem b = 0 := by
  rw [State.lockNow_eq] at h ⊢
  exact State.lockRest_memGet s s.frozen hm h

theorem State.startCycle_sys (s : State) : s.startCycle.sys = s.sys := rfl
theorem State.startCycle_alloc (s : State) : s.startCycle.alloc = s.alloc := rfl
theorem State.startCycle_pans (s : State) : s.startCycle.pans = s.pans := rfl
theorem State.startCycle_mem (s : State) : s.startCycle.mem = s.mem := rfl

theorem State.allocCheck_le (s : State) : s.allocCheck ≤ 4 := by
  unfold State.allocCheck
  repeat' split
  all_goals decide

theorem State.panLockWrite_of_good {s : State} (hl : s.sys.panLock = false) (hc : s.allocCheck = 0) :
    s.panLockWrite = s.lockNow.startCycle := by
  simp [State.panLockWrite, hl, hc]

theorem State.panLockWrite_of_bad {s : State} (hl : s.sys.panLock = false) (hc : s.allocCheck ≠ 0) :
    s.panLockWrite = { s with sys := { s.sys with allocErr := BitVec.ofNat 3 s.allocCheck } } := by
  simp [State.panLockWrite, hl, hc]

/-- SYS_LOCK written with PANLOCK = 1 and its key. -/
theorem leads_panlock {s : State} {p : Party} {P : State → Prop} (hs : served s p .sys) (ha : s.keyArmed 0 p = true)
    (hP : ∀ u, LikeState u (s.writing p (some 0) .sysLock).panLockWrite → P u) : Leads (.panlock p) s P :=
  leads_keyed_write (o := 0x00C) (r := .sysLock) rfl hs rfl rfl ha rfl (State.panLockWrite_keeps (.refl false _)) hP

/-! ### A pan reset (R316, R317) -/

/-- `u` is `s` after the reset of pan `n`, its end apart. -/
def State.AfterPanReset (s : State) (n : Fin 4) (u : State) : Prop :=
  u.pans[n].rstBusy = true ∧ u.pans[n].gen = s.pans[n].gen + 1 ∧
    (∀ t : Fin 8, s.thrPan t = n → u.eng.thr[t].state = .halted) ∧ (∀ l : Fin 32, s.lockOwner l = n → u.eng.locks[l] = none) ∧
    (∀ e : Fin 32, s.schOwner e = n → u.sched.ent[e].state = .idle) ∧ u.pans[n].sreg = s.pans[n].sreg ∧
    (∀ m : Fin 4, m ≠ n → u.pans[m] = s.pans[m]) ∧ u.alloc = s.alloc ∧ u.tide = s.tide

/-- The check of a thread's wait leaves every other thread as it is. -/
theorem State.checkWait_thr_of_ne (s : State) {t x : Fin 8} (h : t ≠ x) : (s.checkWait t).eng.thr[x] = s.eng.thr[x] := by
  unfold State.checkWait State.takeEvents State.endWait
  split
  · dsimp only
    split
    · rfl
    · rw [updThr_thr, if_neg h, putG_thr, if_neg fun k => h k.1, updThr_thr, if_neg h]
  · rfl

theorem State.checkWait_of_halted {s : State} {t : Fin 8} (h : s.eng.thr[t].state = .halted) : s.checkWait t = s := by
  unfold State.checkWait
  rw [h]

/-- A halted thread stays as it is when the waits are checked. -/
theorem State.settleWaits_thr_of_halted {s : State} {x : Fin 8} (h : s.eng.thr[x].state = .halted) :
    s.settleWaits.eng.thr[x] = s.eng.thr[x] := by
  unfold State.settleWaits
  generalize List.finRange 8 = l
  induction l generalizing s with
  | nil => rfl
  | cons t l ih =>
    have hx : (s.checkWait t).eng.thr[x] = s.eng.thr[x] := by
      by_cases ht : t = x
      · rw [State.checkWait_of_halted (ht ▸ h)]
      · exact s.checkWait_thr_of_ne ht
    rw [List.foldl_cons, ih (by rw [hx, h]), hx]

section
variable (s : State) (n : Fin 4)

/-- The bridge queues and last-gasp frames lie in the line's part of the state. -/
theorem State.resetBridge_eq : s.resetBridge n = { s with line := (s.resetBridge n).line } := by
  unfold State.resetBridge
  dsimp only
  split <;> split <;> rfl

/-- Steps 2 to 5 of the reset of pan `n`: the frames it bridges, its threads, entries, sources and timers. -/
def State.resetUnits : State := ((((s.resetBridge n).resetThreads n).resetEntries n).resetSources n).resetTimers n

theorem State.resetUnits_pans : (s.resetUnits n).pans = s.pans := by
  rw [State.resetUnits, State.resetBridge_eq]; rfl
theorem State.resetUnits_alloc : (s.resetUnits n).alloc = s.alloc := by
  rw [State.resetUnits, State.resetBridge_eq]; rfl
theorem State.resetUnits_tide : (s.resetUnits n).tide = s.tide := by
  rw [State.resetUnits, State.resetBridge_eq]; rfl
theorem State.resetUnits_thr :
    (s.resetUnits n).eng.thr =
      tabMapIdx s.eng.thr fun t th => if s.thrOwner t = n then { Thread.reset with panRst := true } else th := by
  rw [State.resetUnits, State.resetBridge_eq]; rfl
theorem State.resetUnits_locks :
    (s.resetUnits n).eng.locks = tabMapIdx s.eng.locks fun l o => if s.lockOwner l = n then none else o := by
  rw [State.resetUnits, State.resetBridge_eq]; rfl
theorem State.resetUnits_ent :
    (s.resetUnits n).sched.ent = tabMapIdx s.sched.ent fun k e => if s.schOwner k = n then .reset else e := by
  rw [State.resetUnits, State.resetBridge_eq]; rfl

variable (tx rx : Nat)

@[simp] theorem State.resetPanRegs_eng : (s.resetPanRegs n tx rx).eng = s.eng := rfl
@[simp] theorem State.resetPanRegs_sched : (s.resetPanRegs n tx rx).sched = s.sched := rfl
@[simp] theorem State.resetPanRegs_alloc : (s.resetPanRegs n tx rx).alloc = s.alloc := rfl
@[simp] theorem State.resetPanRegs_tide : (s.resetPanRegs n tx rx).tide = s.tide := rfl

theorem State.resetPanRegs_pan_of_ne {m : Fin 4} (h : n ≠ m) : (s.resetPanRegs n tx rx).pans[m] = s.pans[m] :=
  tabUpd_get_of_ne s.pans n m _ h

theorem State.resetPanRegs_pan_self :
    (s.resetPanRegs n tx rx).pans[n].rstBusy = true ∧ (s.resetPanRegs n tx rx).pans[n].gen = s.pans[n].gen + 1 ∧
      (s.resetPanRegs n tx rx).pans[n].sreg = s.pans[n].sreg := by
  simp only [State.resetPanRegs, State.mapHosts_pans, State.updSys_pans, State.updPan_pans, tabUpd_get, if_true, and_self]

end

/-- The same with step 6, the pan's own registers. -/
def State.resetBegun (s : State) (n : Fin 4) : State := (s.resetUnits n).resetPanRegs n (s.txCount n) (s.rxCount n)

/-- Step 7: the scrub of its memory begins, and the waits are checked. -/
theorem State.panReset_of_enabled {s : State} {n : Fin 4} (he : s.panEn n = true) (hb : s.pans[n].rstBusy = false) :
    s.panReset n = ((s.resetBegun n).scrubPan n).settleWaits := by
  unfold State.panReset
  rw [he, hb]
  rfl

theorem State.resetBegun_after (s : State) (n : Fin 4) : s.AfterPanReset n (s.resetBegun n) := by
  obtain ⟨hbusy, hgen, hsreg⟩ := (s.resetUnits n).resetPanRegs_pan_self n (s.txCount n) (s.rxCount n)
  rw [State.resetUnits_pans] at hgen hsreg
  refine ⟨hbusy, hgen, fun t ht => ?_, fun l hl => ?_, fun e he => ?_, hsreg, fun m hm => ?_, ?_, ?_⟩
  · rw [State.resetBegun, State.resetPanRegs_eng, State.resetUnits_thr, tabMapIdx_get, if_pos ht]
    rfl
  · rw [State.resetBegun, State.resetPanRegs_eng, State.resetUnits_locks, tabMapIdx_get, if_pos hl]
  · rw [State.resetBegun, State.resetPanRegs_sched, State.resetUnits_ent, tabMapIdx_get, if_pos he]
    rfl
  · rw [State.resetBegun, State.resetPanRegs_pan_of_ne _ _ _ _ hm.symm, State.resetUnits_pans]
  · rw [State.resetBegun, State.resetPanRegs_alloc, State.resetUnits_alloc]
  · rw [State.resetBegun, State.resetPanRegs_tide, State.resetUnits_tide]

/-- The check of the waits wakes no thread of the pan, and a scrub changes memory alone. -/
theorem State.AfterPanReset.scrubbed {s u : State} {n : Fin 4} (h : s.AfterPanReset n u) :
    s.AfterPanReset n (u.scrubPan n).settleWaits := by
  obtain ⟨hbusy, hgen, hthr, hlock, hent, hsreg, hother, halloc, htide⟩ := h
  simp only [State.AfterPanReset, State.settleWaits_pans, State.settleWaits_eng_locks, State.settleWaits_sched,
    State.settleWaits_alloc, State.settleWaits_tide]
  refine ⟨hbusy, hgen, fun t ht => ?_, hlock, hent, hsreg, hother, halloc, htide⟩
  have hhalt : (u.scrubPan n).eng.thr[t].state = .halted := hthr t ht
  rw [State.settleWaits_thr_of_halted hhalt, hhalt]

theorem State.panReset_after {s : State} {n : Fin 4} (he : s.panEn n = true) (hb : s.pans[n].rstBusy = false) :
    s.AfterPanReset n (s.panReset n) := by
  rw [State.panReset_of_enabled he hb]
  exact (s.resetBegun_after n).scrubbed

/-- SYS_PANRST with the bit of one pan resets that pan alone. -/
theorem State.panResets_of_one (s : State) (n : Fin 4) {v : Word} (hv : v.toNat % 16 = 2 ^ n.val) :
    s.panResets v = s.panReset n := by
  have hbit : ∀ m : Fin 4, bitOf v m.val = decide (n = m) := by
    intro m
    have h : (v.toNat % 2 ^ 4).testBit m.val = (2 ^ n.val).testBit m.val := congrArg (Nat.testBit · m.val) hv
    rw [Nat.testBit_mod_two_pow, Nat.testBit_two_pow] at h
    simpa [bitOf, BitVec.getLsbD, m.isLt, Fin.ext_iff] using h
  simp only [State.panResets, allPans, List.foldl, hbit]
  fin_cases n <;> rfl

/-- What a reset leaves of `s`, seen through the state in which the write acts and the record of the transaction. -/
theorem State.AfterPanReset.of_writing {s w u : State} {p : Party} {key : Option (Fin 5)} {r : Rg} {n : Fin 4}
    (h : (s.writing p key r).AfterPanReset n w) (hu : LikeState u w) : s.AfterPanReset n u := by
  obtain ⟨hbusy, hgen, hthr, hlock, hent, hsreg, hother, halloc, htide⟩ := h
  simp only [State.thrPan, State.writing_pans, State.writing_thrOwner, State.writing_lockOwner, State.writing_schOwner,
    State.writing_alloc, State.writing_tide] at hgen hthr hlock hent hsreg hother halloc htide
  rw [State.AfterPanReset, hu.pans, hu.eng, hu.sched, hu.alloc, hu.tide]
  exact ⟨hbusy, hgen, hthr, hlock, hent, hsreg, hother, halloc, htide⟩

section
variable {s : State} {p : Party} {n : Fin 4} {v : Word} (he : s.panEn n = true) (hb : s.pans[n].rstBusy = false)
include he hb

theorem State.writing_panReset (key : Option (Fin 5)) (r : Rg) :
    (s.writing p key r).AfterPanReset n ((s.writing p key r).panReset n) :=
  State.panReset_after (by rwa [State.writing_panEn]) (by rwa [State.writing_pans])

/-- SYS_PANRST written with its key. -/
theorem leads_sysPanrst (hs : served s p .sys) (ha : s.keyArmed 0 p = true) (hv : v.toNat % 16 = 2 ^ n.val) :
    Leads (.sysPanrst p v) s (s.AfterPanReset n) := by
  have e : (s.writing p (some 0) .sysPanrst).putReg1 p .sys .sysPanrst v = _ := State.panResets_of_one _ n hv
  refine leads_keyed_write (o := 0x020) (r := .sysPanrst) rfl hs rfl rfl ha rfl (State.panResets_keeps v (.refl false _))
    fun u hu => ?_
  rw [e] at hu
  exact (State.writing_panReset he hb _ _).of_writing hu

/-- PAN_CTL written with RESET and the key of the window. -/
theorem leads_panCtlReset (hs : served s p (.win n)) (ho : s.winClosed n = false)
    (ha : s.keyArmed (Via.win n).scope p = true) (hv : v.getLsbD 8 = true) :
    Leads (.panCtlReset p n v) s (s.AfterPanReset n) := by
  have hr : s.regAt (.win n) 0x004 = .panCtl n := by rw [State.regAt, ho]; rfl
  have e : (s.writing p (some (Via.win n).scope) (.panCtl n)).putReg1 p (.win n) (.panCtl n) v = _ := if_pos hv
  refine leads_keyed_write (o := 0x004) (r := .panCtl n) rfl hs hr rfl ha rfl (State.writePanCtl_keeps p n v (.refl false _))
    fun u hu => ?_
  rw [e] at hu
  exact (State.writing_panReset he hb _ _).of_writing hu

end

/-- A fault changes PAN_FAULT of its pan. -/
theorem State.panFault_pan_self (s : State) (n : Fin 4) (b : Nat) :
    (s.panFault n b).pans[n] = { s.pans[n] with fault := putBit s.pans[n].fault b true } := by
  rw [State.panFault, State.arrive_pans, State.updPan_pans, tabUpd_get, if_pos rfl]

/-- Step 8: the window opens, and PAN_FAULT.RST tells. -/
theorem State.panResetDone_of_busy {s : State} {n : Fin 4} (h : s.pans[n].rstBusy = true) :
    s.panResetDone n = (s.updPan n fun p => { p with rstBusy := false }).panFault n fltRst :=
  if_pos h

/-! ### The statement -/

/-- Settles O44: PANLOCK by what the scrub zeroes and the fresh pans hold, a pan reset by what each of its steps leaves. -/
theorem panlockAndPanReset : Obligations.PanlockAndPanReset := by
  unfold Obligations.PanlockAndPanReset
  intro s p n v
  refine ⟨fun hs ha hl => ⟨fun hc => ?good, fun hc => ?bad⟩, fun hr => ⟨_, congrArg Host.Outcome.next (if_pos hr), rfl⟩,
    fun he hb => ⟨fun hs ha hv => leads_sysPanrst he hb hs ha hv, fun hs ho ha hv => leads_panCtlReset he hb hs ho ha hv⟩,
    fun hr hb => ?done⟩
  case good =>
    refine leads_panlock hs ha fun u hu => ?_
    rw [State.panLockWrite_of_good ((State.writing_panLock ..).trans hl) ((State.writing_allocCheck ..).trans hc)] at hu
    have hsys := hu.sys
    rw [State.startCycle_sys, State.lockNow_sys] at hsys
    have halloc := hu.alloc.trans (State.startCycle_alloc _)
    refine ⟨by rw [hsys], by rw [hsys], by rw [hsys], ?_, ?_, fun m hm => ⟨?_, fun b h => ?_⟩⟩
    · rw [halloc, State.lockNow_alloc, State.writing_alloc]
    · rw [hsys]
      exact State.writing_dbgLock ..
    · rw [hu.pans, State.startCycle_pans]
      exact State.lockNow_tq _ hm
    · rw [hu.mem, State.startCycle_mem]
      refine State.lockNow_memGet _ hm (State.PanByte.congr h ?_ halloc.symm)
      rw [hsys, State.lockNow_sys]
  case bad =>
    refine leads_panlock hs ha fun u hu => ?_
    rw [State.panLockWrite_of_bad ((State.writing_panLock ..).trans hl) (by rwa [State.writing_allocCheck]),
      State.writing_allocCheck] at hu
    have hcode : s.allocCheck < 2 ^ 3 := Nat.lt_of_le_of_lt s.allocCheck_le (by decide)
    refine ⟨?_, ?_, hu.alloc.trans (State.writing_alloc ..), hu.pans.trans (State.writing_pans ..),
      hu.mem.trans (State.writing_mem ..), hu.eng.trans (State.writing_eng ..), hu.sched.trans (State.writing_sched ..)⟩
    · rw [hu.sys]
      exact (State.writing_panLock ..).trans hl
    · rw [hu.sys, BitVec.toNat_ofNat, Nat.mod_eq_of_lt hcode]
  case done =>
    refine ⟨_, congrArg Host.Outcome.next (if_pos hr), ?_⟩
    rw [State.panResetDone_of_busy hb]
    have hpan : ((s.updPan n fun p => { p with rstBusy := false }).panFault n fltRst).pans[n] =
        { s.pans[n] with rstBusy := false, fault := putBit s.pans[n].fault fltRst true } := by
      rw [State.panFault_pan_self, State.updPan_pans, tabUpd_get, if_pos rfl]
    refine ⟨by rw [hpan], State.panFault_fault _ n fltRst (by decide), by rw [hpan], ?_⟩
    rw [State.panFault_mem, State.updPan_mem]

end Sys2Proof.Machine

/-! SUPPORT. What a power-on reset leaves, and the proof of its statement. -/

namespace Sys2Proof.Machine

theorem memWord_nil (a : Nat) : memWord [] a = 0 := by
  simp only [memWord, memGet_nil]
  rfl

/-- A slot of memory that lists no byte belongs to HOST (R371). -/
theorem State.slotOwn_of_mem_nil {s : State} (h : s.mem = []) (g : Nat) : s.slotOwn g = ownHost := by
  have hw : s.slotWord g 2 = 0 := by
    rw [State.slotWord, h, memWord_nil]
  rw [State.slotOwn, hw]
  rfl

/-- Settles O4: by the reset values of each part; the tables hold one reset entry throughout. -/
theorem resetState : Obligations.ResetState := by
  unfold Obligations.ResetState
  refine ⟨⟨rfl, rfl, rfl, rfl, rfl, rfl, rfl, rfl, rfl, rfl, rfl, fun t => ?threads, fun l => ?locks, fun e => ?entries,
    fun n q => ?queues, fun g _ => ?slots⟩, Memory.wf_nil, rfl, rfl⟩
  case threads => exact congrArg Thread.state (Vector.getElem_replicate t.isLt)
  case locks => exact Vector.getElem_replicate l.isLt
  case entries => exact congrArg SchEntry.state (Vector.getElem_replicate e.isLt)
  case queues =>
    have hp : State.reset.pans[n] = .reset := Vector.getElem_replicate n.isLt
    have htq : State.reset.tq n q = .reset := by
      rw [State.tq, hp]
      exact Vector.getElem_replicate q.isLt
    have hrxf : State.reset.rxf n q = .reset := by
      rw [State.rxf, hp]
      exact Vector.getElem_replicate q.isLt
    rw [htq, hrxf]
    decide
  case slots => exact State.slotOwn_of_mem_nil rfl g

end Sys2Proof.Machine

/-! SUPPORT. Writes of the system block's registers and bits by their addresses (chapters 8, 13, 18, 19), and the proof of their
statement. -/

namespace Sys2Proof.Machine

open Sys2Proof.Safety

/-! ### The system block in a party's own map (Tables 0-10 and 13-5) -/

/-- Where the system block's registers begin in a party's map, and where those of its bits begin. -/
def sysRegBase : Party → Nat
  | .host _ => 0
  | .thread _ => 0x51000
def sysBitBase : Party → Nat
  | .host _ => 0x8000
  | .thread _ => 0x68000

theorem hostPlace_sysReg {o : Nat} (ho : o < 0x1000) : hostPlace o = .reg .sys o := if_pos ho

theorem hostPlace_sysBit {o b : Nat} (h4 : o % 4 = 0) (ho : o < 0x400) (hb : b < 32) :
    hostPlace (0x8000 + 32 * o + 4 * b) = .bit .sys o b := by
  have e1 : (0x8000 + 32 * o + 4 * b - 0x8000) / 128 * 4 = o := by omega
  have e2 : (0x8000 + 32 * o + 4 * b) % 128 / 4 = b := by omega
  simp only [hostPlace, e1, e2]
  rw [if_neg (by omega), if_neg (by omega), if_neg (by omega), if_pos (by omega)]

/-- P0's threads reach the system block (R301). -/
theorem State.thrPlace_sysReg (s : State) {o : Nat} (ho : o < 0x1000) :
    s.thrPlace 0 (0x51000 + o) = some (.reg .sys o, 0) := by
  have e : 0x51000 + o - 0x51000 = o := by omega
  simp only [State.thrPlace, e, if_true]
  repeat rw [if_neg (by omega)]
  rw [if_pos (by omega)]

theorem State.thrPlace_sysBit (s : State) {o b : Nat} (h4 : o % 4 = 0) (ho : o < 0x400) (hb : b < 32) :
    s.thrPlace 0 (0x68000 + 32 * o + 4 * b) = some (.bit .sys o b, 0) := by
  have e1 : (0x68000 + 32 * o + 4 * b - 0x68000) / 128 * 4 = o := by omega
  have e2 : (0x68000 + 32 * o + 4 * b) % 128 / 4 = b := by omega
  simp only [State.thrPlace, e1, e2, if_true]
  repeat rw [if_neg (by omega)]
  rw [if_pos (by omega)]

/-- A port that reaches the system block reaches each of its registers and bits. -/
theorem State.hostRight_sys {s : State} {h : HostPort} {a : Nat} (hs : s.viaRight h .sys = .yes)
    (ha : (∃ o, hostPlace a = .reg .sys o) ∨ ∃ o b, hostPlace a = .bit .sys o b) : s.hostRight h a = .yes := by
  rw [← hs]
  rcases ha with ⟨o, ha⟩ | ⟨o, b, ha⟩ <;> simp only [State.viaRight, State.hostRight, ha] <;> rfl

/-- An aligned store at a place that takes stores: a missing capability, else its effect. -/
theorem State.thrStoreAt_of_place {s : State} {t : Fin 8} {a : Nat} {x : Place × Nat} (v : Word)
    (hx : s.thrPlace (s.thrPan t) a = some x) (h4 : a % 4 = 0) (hst : x.1.stores = true) :
    s.thrStoreAt t a v = if s.thrCapMissing t x v then s.threadFault t fcCapability else s.thrWrite t x v := by
  have ha : wordAddr a = a := by rw [wordAddr, h4, Nat.sub_zero]
  simp only [State.thrStoreAt, ha, hx, h4, hst, Bool.not_true, Bool.false_eq_true, if_false, ne_eq, not_true_eq_false]

theorem State.asThread_of_issues {s : State} {t : Fin 8} (k : State → State) (hr : s.coreRuns = true)
    (hi : s.eng.thr[t].issues = true) : s.asThread t k = (k s).swReset :=
  if_pos (by rw [hr, hi]; rfl)

theorem State.thrPan_of_reaches {s : State} {t : Fin 8} (h : s.thrReaches t .sys = true) : s.thrPan t = 0 := by
  simpa [State.thrReaches] using h

section
variable {s : State} {p : Party} (hs : served s p .sys)
include hs

/-- A write at the address of a system register is a write of that register. -/
theorem partyWriteAt_sysReg {a : BitVec 24} {o : Nat} (v : Word) (h4 : o % 4 = 0) (ho : o < 0x1000)
    (ha : a.toNat = sysRegBase p + o) : s.partyWriteAt p a v = s.partyWrite p .sys o v := by
  obtain ⟨-, -, hp⟩ := hs
  cases p with
  | host h =>
    obtain ⟨hv, hsv, hy, htx⟩ := hp
    have ha' : a.toNat = o := ha.trans (Nat.zero_add o)
    have hpl := hostPlace_sysReg ho
    have hright : (s.endRequest false).hostRight h o = .yes := State.hostRight_sys hy (.inl ⟨o, hpl⟩)
    have hvia : (s.endRequest false).viaRight h .sys = .yes := hy
    have halign : alignCode a = lcOk := if_pos (ha' ▸ h4)
    simp only [State.partyWriteAt, State.partyWrite, halign, transact_plain s h true _ hv hsv htx, ha', State.hostWriteWord, hright,
      hvia, hpl, State.hostRegWrite, Bool.false_and, Bool.false_eq_true, if_false]
  | thread t =>
    obtain ⟨hr, hi, hy⟩ := hp
    have ha' : a.toNat = 0x51000 + o := ha
    have hx : s.thrPlace (s.thrPan t) (0x51000 + o) = some (.reg .sys o, 0) := by
      rw [State.thrPan_of_reaches hy, s.thrPlace_sysReg ho]
    simp only [State.partyWriteAt, State.partyWrite, State.asThread_of_issues _ hr hi, ha',
      State.thrStoreAt_of_place v hx (by omega) rfl, hy, Bool.not_true, Bool.false_eq_true, if_false]

/-- A write at the address of a bit of a system register is a write of that bit. -/
theorem partyWriteAt_sysBit {a : BitVec 24} {o b : Nat} (v : Word) (h4 : o % 4 = 0) (ho : o < 0x400) (hb : b < 32)
    (ha : a.toNat = sysBitBase p + 32 * o + 4 * b) : s.partyWriteAt p a v = s.partyBit p .sys o b (bitOf v 0) := by
  obtain ⟨-, -, hp⟩ := hs
  cases p with
  | host h =>
    obtain ⟨hv, hsv, hy, htx⟩ := hp
    have ha' : a.toNat = 0x8000 + 32 * o + 4 * b := ha
    have hpl := hostPlace_sysBit h4 ho hb
    have hright : (s.endRequest false).hostRight h (0x8000 + 32 * o + 4 * b) = .yes := State.hostRight_sys hy (.inr ⟨o, b, hpl⟩)
    have hvia : (s.endRequest false).viaRight h .sys = .yes := hy
    have halign : alignCode a = lcOk := if_pos (by omega)
    simp only [State.partyWriteAt, State.partyBit, halign, transact_plain s h true _ hv hsv htx, ha', State.hostWriteWord, hright,
      hvia, hpl]
  | thread t =>
    obtain ⟨hr, hi, hy⟩ := hp
    have ha' : a.toNat = 0x68000 + 32 * o + 4 * b := ha
    have hx : s.thrPlace (s.thrPan t) (0x68000 + 32 * o + 4 * b) = some (.bit .sys o b, 0) := by
      rw [State.thrPan_of_reaches hy, s.thrPlace_sysBit h4 ho hb]
    have hbit : bitOf (flag 0 (bitOf v 0)) 0 = bitOf v 0 := by cases bitOf v 0 <;> rfl
    have hcap : s.thrCapMissing t (.bit .sys o b, 0) (flag 0 (bitOf v 0)) = s.thrCapMissing t (.bit .sys o b, 0) v := by
      simp only [State.thrCapMissing, hbit]
    have hput : s.thrWrite t (.bit .sys o b, 0) (flag 0 (bitOf v 0)) = s.thrWrite t (.bit .sys o b, 0) v := by
      simp only [State.thrWrite, hbit]
    simp only [State.partyWriteAt, State.partyBit, State.asThread_of_issues _ hr hi, ha',
      State.thrStoreAt_of_place v hx (by omega) rfl, hy, Bool.not_true, Bool.false_eq_true, if_false, hcap, hput]

/-- A served write of a bit that needs no capability acts in the state of the access. -/
theorem partyBit_served {o b : Nat} {x : Bool} (hc : s.aliasCapMissing p .sys (s.regAt .sys o) b x = false)
    (hw : ((accessState s p).aliasWrite p .sys (s.regAt .sys o) b x).2.sys.swPend = false) :
    LikeState (s.partyBit p .sys o b x) ((accessState s p).aliasWrite p .sys (s.regAt .sys o) b x).2 := by
  obtain ⟨-, -, hp⟩ := hs
  cases p with
  | host h =>
    obtain ⟨hv, hsv, hy, htx⟩ := hp
    have hvia : (s.endRequest false).viaRight h .sys = .yes := hy
    simp only [State.partyBit, transact_plain s h true _ hv hsv htx, hvia]
    exact likeState_endTx _ _ _ _ hw
  | thread t =>
    obtain ⟨hr, hi, hy⟩ := hp
    have hbit : bitOf (flag 0 x) 0 = x := by cases x <;> rfl
    have hpend : (s.aliasWrite (.thread t) .sys (s.regAt .sys o) b x).2.sys.swPend = false := hw
    simp only [State.partyBit, State.asThread_of_issues _ hr hi, hy, State.thrCapMissing, hbit, hc, Bool.and_false, Bool.not_true,
      Bool.false_eq_true, if_false, State.thrWrite, State.swReset, hpend]
    exact likeState_refl _

/-- A system register that takes no key and needs no capability, written by its address. -/
theorem leads_sysReg {a : BitVec 24} {o : Nat} {r : Rg} {v : Word} {P : State → Prop} (h4 : o % 4 = 0) (ho : o < 0x1000)
    (ha : a.toNat = sysRegBase p + o) (hr : s.sysReg o = r) (hk : keyScope .sys r = none) (hc : s.capMissing .sys r v = false)
    (hw : Keeps false (s.writing p none r) ((s.writing p none r).putReg1 p .sys r v))
    (hP : ∀ u, LikeState u ((s.writing p none r).putReg1 p .sys r v) → P u) : Leads (.registerWrite p a v) s P :=
  leads_open_write (congrArg Host.Outcome.next (partyWriteAt_sysReg hs v h4 ho ha)) hs hr hk hc hw hP

/-- A bit of such a register written by its own address (R664), where the effect is `w`. -/
theorem leads_sysBit {a : BitVec 24} {o b : Nat} {r : Rg} {v : Word} {w : State} {P : State → Prop} (h4 : o % 4 = 0)
    (ho : o < 0x400) (hb : b < 32) (ha : a.toNat = sysBitBase p + 32 * o + 4 * b) (hr : s.sysReg o = r)
    (hc : s.aliasCapMissing p .sys r b (bitOf v 0) = false) (he : ((accessState s p).aliasWrite p .sys r b (bitOf v 0)).2 = w)
    (hw : w.sys.swPend = false) (hP : ∀ u, LikeState u w → P u) : Leads (.aliasWrite p a v) s P := by
  subst hr he
  exact ⟨_, congrArg Host.Outcome.next (partyWriteAt_sysBit hs v h4 ho hb ha), hP _ (partyBit_served hs hc hw)⟩

end

/-! ### The stored bits of a register (R666) -/

theorem getLsbD_merge (m old new : Word) (i : Nat) :
    (merge m old new).getLsbD i = if m.getLsbD i then new.getLsbD i else old.getLsbD i := by
  by_cases hi : i < 32
  · cases h : m.getLsbD i <;> simp [merge, h, hi, -BitVec.getLsbD_eq_getElem]
  · simp [BitVec.getLsbD_of_ge _ i (Nat.le_of_not_lt hi)]

/-- The stored bits of a register after one of them is written by its own address: that bit changes alone. -/
theorem getLsbD_merge_putBit {m : Word} {b : Nat} (hb : m.getLsbD b = true) (old : Word) (x : Bool) {i : Nat} (hi : i < 32) :
    (merge m old (putBit (old &&& m) b x)).getLsbD i = if i = b then x else old.getLsbD i := by
  have hput := bitOf_putBit (old &&& m) b i x hi
  unfold bitOf at hput
  rw [getLsbD_merge, hput, BitVec.getLsbD_and]
  by_cases h : b = i
  · subst h
    rw [hb, if_pos rfl, if_pos rfl, if_pos rfl]
  · rw [if_neg h, if_neg (Ne.symm h)]
    cases m.getLsbD i <;> simp

/-! ### Allocation words (R292) -/

theorem State.writeAlloc_of_open {s : State} (hl : s.sys.panLock = false) (k : Fin 48) (v : Word) :
    (s.writeAlloc k v).alloc = tabUpd s.alloc k fun w => merge (allocMask k.val) w v := by
  rw [State.writeAlloc, if_neg (ne_true_of_eq_false hl)]
  dsimp only
  split <;> rfl

theorem State.writeAlloc_of_locked {s : State} (hl : s.sys.panLock = true) (k : Fin 48) (v : Word) :
    s.writeAlloc k v = s.panFault 0 fltAccess :=
  if_pos hl

theorem State.sysReg_alloc (s : State) (k : Fin 48) : s.sysReg (0x140 + 4 * k.val) = .alloc k := by
  have hk := k.isLt
  have e : (0x140 + 4 * k.val - 0x140) / 4 = k.val := by omega
  simp only [State.sysReg, e]
  rw [if_pos (by omega), idx, Fin.ofNat_val_eq_self]

section
variable {s : State} {p : Party} {a : BitVec 24} {k : Fin 48} {v : Word} (hs : served s p .sys)
  (ha : a.toNat = sysRegBase p + (0x140 + 4 * k.val))
include hs ha

/-- A PAN_ALLOC word written by its address. -/
theorem leads_allocWrite {P : State → Prop} (hP : ∀ u, LikeState u ((s.writing p none (.alloc k)).writeAlloc k v) → P u) :
    Leads (.registerWrite p a v) s P :=
  leads_sysReg hs (by omega) (by omega) ha (s.sysReg_alloc k) rfl rfl (State.writeAlloc_keeps k v (.refl false _)) hP

theorem leads_allocWrite_of_open (hl : s.sys.panLock = false) : Leads (.registerWrite p a v) s fun u =>
    u.alloc[k] = merge (allocMask k.val) s.alloc[k] v ∧ ∀ j : Fin 48, j ≠ k → u.alloc[j] = s.alloc[j] := by
  refine leads_allocWrite hs ha fun u hu => ?_
  have halloc := hu.alloc
  rw [State.writeAlloc_of_open ((State.writing_panLock ..).trans hl), State.writing_alloc] at halloc
  rw [halloc]
  exact ⟨by rw [tabUpd_get, if_pos rfl], fun j hj => tabUpd_get_of_ne _ _ _ _ hj.symm⟩

/-- A frozen word stays, and the write sets PAN_FAULT.ACCESS of P0. -/
theorem leads_allocWrite_of_locked (hl : s.sys.panLock = true) : Leads (.registerWrite p a v) s fun u =>
    u.alloc = s.alloc ∧ bitOf u.pans[(0 : Fin 4)].fault 0 = true := by
  refine leads_allocWrite hs ha fun u hu => ?_
  rw [State.writeAlloc_of_locked ((State.writing_panLock ..).trans hl)] at hu
  refine ⟨?_, ?_⟩
  · rw [hu.alloc, State.panFault_alloc, State.writing_alloc]
  · rw [hu.pans]
    exact State.panFault_fault _ 0 fltAccess (by decide)

end

/-! ### SYS_CTL and SUP_CTL, whole and by a bit -/

/-- SYS_CTL written with `v`; RUN and the lifecycle follow (R238). -/
def State.putSysCtl (s : State) (v : Word) : State := (s.updSys fun y => { y with ctl := merge 3 y.ctl v }).settle

/-- SUP_CTL written with `v`. -/
def State.putSupCtl (s : State) (v : Word) : State := s.updPow fun x => { x with supCtl := merge 1 x.supCtl v }

theorem State.putReg1_sysCtl (s : State) (p : Party) (v : Word) : s.putReg1 p .sys .sysCtl v = s.putSysCtl v := rfl

theorem State.regValue_sysCtl (s : State) (p : Party) : s.regValue p .sys .sysCtl = s.sys.ctl := by
  have h : s.regValue p .sys .sysCtl = s.sys.ctl ||| 0#32 ||| 0#32 := rfl
  rw [h, BitVec.or_zero, BitVec.or_zero]

theorem State.regValue_supCtl (s : State) (p : Party) : s.regValue p .sys .supCtl = s.pow.supCtl := by
  have h : s.regValue p .sys .supCtl = s.pow.supCtl ||| 0#32 ||| 0#32 := rfl
  rw [h, BitVec.or_zero, BitVec.or_zero]

section
variable (s : State) (p : Party)

@[simp] theorem accessState_ctl : (accessState s p).sys.ctl = s.sys.ctl := by cases p <;> rfl
@[simp] theorem accessState_supCtl : (accessState s p).pow.supCtl = s.pow.supCtl := by cases p <;> rfl
@[simp] theorem State.writing_ctl (key : Option (Fin 5)) (r : Rg) : (s.writing p key r).sys.ctl = s.sys.ctl := by
  rw [State.writing_eq]
@[simp] theorem State.writing_supCtl (key : Option (Fin 5)) (r : Rg) : (s.writing p key r).pow.supCtl = s.pow.supCtl := by
  rw [State.writing_eq]
  exact accessState_supCtl s p

theorem State.aliasWrite_sysCtl {b : Nat} (hb : b < 2) (x : Bool) :
    ((accessState s p).aliasWrite p .sys .sysCtl b x).2 =
      (s.writing p none .sysCtl).putSysCtl (putBit (s.sys.ctl &&& 3) b x) := by
  have hbit : bitOf (3 : Word) b = true := by interval_cases b <;> rfl
  rw [← accessState_ctl s p, ← State.regValue_sysCtl _ p]
  exact if_pos hbit

theorem State.aliasWrite_supCtl (x : Bool) :
    ((accessState s p).aliasWrite p .sys .supCtl 0 x).2 =
      (s.writing p none .supCtl).putSupCtl (putBit (s.pow.supCtl &&& 1) 0 x) := by
  rw [← accessState_supCtl s p, ← State.regValue_supCtl _ p]
  rfl

theorem State.aliasCapMissing_of_free {r : Rg} {b : Nat} {x : Bool} (h : ∀ v, writeCap r v = none) :
    s.aliasCapMissing p .sys r b x = false := by
  simp [State.aliasCapMissing, State.capMissing, h]

end

section
variable {s : State} {p : Party} {a : BitVec 24} {v : Word} (hs : served s p .sys)
include hs

theorem leads_sysCtl (ha : a.toNat = sysRegBase p + 4) : Leads (.registerWrite p a v) s fun u =>
    u.sys.ctl = merge 3 s.sys.ctl v ∧ u.mem = s.mem ∧ u.alloc = s.alloc := by
  refine leads_sysReg hs (r := .sysCtl) rfl (by decide) ha rfl rfl rfl ?_ fun u hu => ?_
  · exact State.settle_keeps (State.updSys_keeps _ rfl rfl rfl (.refl false _))
  · rw [State.putReg1_sysCtl] at hu
    rw [hu.sys, hu.mem, hu.alloc]
    simp [State.putSysCtl]

theorem leads_sysCtlBit {b : Nat} (hb : b < 2) (ha : a.toNat = sysBitBase p + 32 * 4 + 4 * b) :
    Leads (.aliasWrite p a v) s fun u =>
      ∀ i, i < 32 → u.sys.ctl.getLsbD i = if i = b then v.getLsbD 0 else s.sys.ctl.getLsbD i := by
  refine leads_sysBit hs rfl (by decide) (by omega) ha rfl (s.aliasCapMissing_of_free p fun _ => rfl)
    (s.aliasWrite_sysCtl p hb (bitOf v 0)) ?_ fun u hu i hi => ?_
  · rw [State.putSysCtl, State.settle_sys_swPend]
    exact (State.writing_swPend ..).trans hs.1
  · have hbit : (3 : Word).getLsbD b = true := by interval_cases b <;> rfl
    have hctl : u.sys.ctl = merge 3 s.sys.ctl (putBit (s.sys.ctl &&& 3) b (bitOf v 0)) := by
      rw [hu.sys]
      simp [State.putSysCtl]
    rw [hctl, getLsbD_merge_putBit hbit _ _ hi]
    rfl

theorem leads_supCtlBit (ha : a.toNat = sysBitBase p + 32 * 0x40 + 4 * 0) : Leads (.aliasWrite p a v) s fun u =>
    ∀ i, i < 32 → u.pow.supCtl.getLsbD i = if i = 0 then v.getLsbD 0 else s.pow.supCtl.getLsbD i := by
  refine leads_sysBit hs rfl (by decide) (by decide) ha rfl (s.aliasCapMissing_of_free p fun _ => rfl)
    (s.aliasWrite_supCtl p (bitOf v 0)) ?_ fun u hu i hi => ?_
  · exact (State.writing_swPend ..).trans hs.1
  · have hctl : u.pow.supCtl = merge 1 s.pow.supCtl (putBit (s.pow.supCtl &&& 1) 0 (bitOf v 0)) := by
      rw [hu.pow, State.putSupCtl, State.updPow_pow, State.writing_supCtl]
    rw [hctl, getLsbD_merge_putBit rfl _ _ hi]
    rfl

end

/-! ### The statement -/

/-- Settles O47: an address of the system block in a party's map is a write of its register, or of one
stored bit, which the register's mask confines to that bit. -/
theorem registerAndAliasWrites : Obligations.RegisterAndAliasWrites := by
  unfold Obligations.RegisterAndAliasWrites
  intro s p v hs
  refine ⟨fun a ha => ?ctl, fun a k ha => ?alloc, fun a b hb ha => ?ctlBit, fun a ha => ?supBit⟩
  case ctl => exact leads_sysCtl hs (ha.trans (by cases p <;> rfl))
  case alloc =>
    have ha' : a.toNat = sysRegBase p + (0x140 + 4 * k.val) := by
      rw [← Nat.add_assoc]
      exact ha.trans (by cases p <;> rfl)
    exact ⟨leads_allocWrite_of_open hs ha', leads_allocWrite_of_locked hs ha'⟩
  case ctlBit => exact leads_sysCtlBit hs hb (ha.trans (by cases p <;> rfl))
  case supBit => exact leads_supCtlBit hs (ha.trans (by cases p <;> rfl))

end Sys2Proof.Machine

/-! SUPPORT. Fields of a slot's status word, and the holder that a write of it gives the slot (chapter 9). -/

namespace Sys2Proof.Machine

/-! ### Fields of a word after a field is replaced or merged -/

/-- The bits of a word with one field replaced. -/
theorem getLsbD_putBits {n : Nat} (w : BitVec n) {lo len : Nat} (v : Nat) {i : Nat} (hi : i < n) :
    (putBits w lo len v).getLsbD i =
      if lo ≤ i ∧ i < lo + len then v.testBit (i - lo) else w.getLsbD i := by
  have hsplit : w.toNat = 2 ^ lo * (2 ^ len * (w.toNat >>> (lo + len)) + bitsOf w lo len) + w.toNat % 2 ^ lo := by
    rw [bitsOf, Nat.shiftRight_add, Nat.shiftRight_eq_div_pow _ len, Nat.div_add_mod, Nat.shiftRight_eq_div_pow, Nat.div_add_mod]
  have hput : w.toNat - (bitsOf w lo len <<< lo) + ((v % 2 ^ len) <<< lo) =
      2 ^ lo * (2 ^ len * (w.toNat >>> (lo + len)) + v % 2 ^ len) + w.toNat % 2 ^ lo := by
    rw [Nat.shiftLeft_eq, Nat.shiftLeft_eq, Nat.mul_comm _ (2 ^ lo), Nat.mul_comm _ (2 ^ lo)]
    rw [Nat.mul_add] at hsplit ⊢
    omega
  rw [putBits, BitVec.getLsbD_ofNat, hput, Nat.testBit_two_pow_mul_add _ (Nat.mod_lt _ (Nat.two_pow_pos _)),
    Nat.testBit_two_pow_mul_add _ (Nat.mod_lt _ (Nat.two_pow_pos _)), Nat.testBit_mod_two_pow, Nat.testBit_mod_two_pow,
    Nat.testBit_shiftRight, BitVec.getLsbD]
  by_cases h1 : i < lo
  · simp [hi, h1, Nat.not_le.mpr h1]
  · by_cases h2 : i < lo + len
    · simp [hi, h1, h2, Nat.le_of_not_lt h1, show i - lo < len by omega]
    · simp [hi, h1, h2, show ¬ i - lo < len by omega, show lo + len + (i - lo - len) = i by omega]

theorem bitsOf_putBits_self {n : Nat} (w : BitVec n) {lo len : Nat} (v : Nat) (hn : lo + len ≤ n) :
    bitsOf (putBits w lo len v) lo len = v % 2 ^ len := by
  refine Nat.eq_of_testBit_eq fun i => ?_
  rw [testBit_bitsOf, Nat.testBit_mod_two_pow]
  by_cases hi : i < len
  · rw [getLsbD_putBits w v (by omega), if_pos (by omega), Nat.add_sub_cancel_left]
  · simp [hi]

/-- A field above a replaced one stays. -/
theorem bitsOf_putBits_above {n : Nat} (w : BitVec n) {lo len a b : Nat} (v : Nat) (h : lo + len ≤ a) (hn : a + b ≤ n) :
    bitsOf (putBits w lo len v) a b = bitsOf w a b :=
  bitsOf_congr fun i hi => by rw [getLsbD_putBits w v (by omega), if_neg (by omega)]

/-- A field under the mask takes what is written. -/
theorem bitsOf_merge {m : Word} (old new : Word) {lo len : Nat} (h : ∀ i, i < len → m.getLsbD (lo + i) = true) :
    bitsOf (merge m old new) lo len = bitsOf new lo len :=
  bitsOf_congr fun i hi => by rw [getLsbD_merge, h i hi, if_pos rfl]

/-! ### Pan-local numbers (R290) -/

theorem owner_of_owned {count k g : Nat} {owner : Nat → Fin 4} {n : Fin 4} (h : (owned count owner n)[k]? = some g) :
    owner g = n := by
  simpa using (List.mem_filter.1 (List.mem_of_getElem? h)).2

/-- The pan's `k`-th resource has the pan-local number `k`. -/
theorem localNo_of_owned {count k g : Nat} {owner : Nat → Fin 4} {n : Fin 4} (h : (owned count owner n)[k]? = some g) :
    localNo owner g = k := by
  have hown := owner_of_owned h
  obtain ⟨d, rfl⟩ : ∃ d, count = g + (d + 1) := by
    have hlt : g < count := List.mem_range.1 (List.mem_filter.1 (List.mem_of_getElem? h)).1
    exact ⟨count - g - 1, by omega⟩
  have hat : (owned (g + (d + 1)) owner n)[localNo owner g]? = some g := by
    rw [owned, List.range_add, List.filter_append, localNo, hown, List.getElem?_append_right (Nat.le_refl _), Nat.sub_self,
      List.range_succ_eq_map, List.map_cons, List.filter_cons_of_pos (by simp [hown])]
    rfl
  have hlt := (List.getElem?_eq_some_iff.1 hat).1
  exact (List.getElem?_inj hlt (List.nodup_range.filter _)).1 (hat.trans h.symm)

theorem State.packOwner_congr {s u : State} (hl : u.sys.panLock = s.sys.panLock) (ha : u.alloc = s.alloc) :
    u.packOwner = s.packOwner := by
  funext base k
  simp only [State.packOwner, State.allocWord, hl, ha]

theorem State.slotOwner_congr {s u : State} (hl : u.sys.panLock = s.sys.panLock) (ha : u.alloc = s.alloc) (g : Nat) :
    u.slotOwner g = s.slotOwner g := by
  simp only [State.slotOwner, State.unitOwner, State.packOwner_congr hl ha]

theorem State.panThreads_congr {s u : State} (hl : u.sys.panLock = s.sys.panLock) (ha : u.alloc = s.alloc) (n : Fin 4) :
    u.panThreads n = s.panThreads n := by
  simp only [State.panThreads, owned, State.thrOwner, State.packOwner_congr hl ha]

/-! ### Slot words and holders (R337, R339) -/

theorem State.slotWord_congr {s u : State} (h : u.mem = s.mem) (g w : Nat) : u.slotWord g w = s.slotWord g w := by
  rw [State.slotWord, h, State.slotWord]

theorem State.slotOwn_congr {s u : State} (h : u.mem = s.mem) (g : Nat) : u.slotOwn g = s.slotOwn g := by
  rw [State.slotOwn, State.slotWord_congr h, State.slotOwn]

/-- A word of a slot written leaves every other word of every slot. -/
theorem State.slotWord_putSlotWord_of_ne (s : State) {g w h x : Nat} (v : Word) (hw : w < 24) (hx : x < 24) (hne : g ≠ h ∨ w ≠ x) :
    (s.putSlotWord g w v).slotWord h x = s.slotWord h x :=
  memWord_memPutWord_of_ne _ _ _ _ (by simp only [slotAddr]; omega)

/-- A slot that changes hands has the holder it is passed to. -/
theorem State.slotOwn_passSlot_self (s : State) (g own othr : Nat) : (s.passSlot g own othr).slotOwn g = own % 4 := by
  rw [State.slotOwn, State.passSlot, State.slotWord_putSlotWord, bitsOf_putBits_above _ _ (by decide) (by decide),
    bitsOf_putBits_self _ _ (by decide)]
  rfl

theorem State.slotOwn_passSlot_of_ne (s : State) {g h : Nat} (own othr : Nat) (hne : g ≠ h) :
    (s.passSlot g own othr).slotOwn h = s.slotOwn h :=
  congrArg (bitsOf · 14 2) (s.slotWord_putSlotWord_of_ne _ (by decide) (by decide) (.inl hne))

/-- Every slot of a list, once passed, has the holder the list is passed to; so has one that had it already. -/
theorem State.slotOwn_passSlots {g own : Nat} (othr : Nat) (hown : own < 4) (gs : List Nat) (s : State)
    (h : g ∈ gs ∨ s.slotOwn g = own) : (s.passSlots gs own othr).slotOwn g = own := by
  induction gs generalizing s with
  | nil => exact h.resolve_left List.not_mem_nil
  | cons x gs ih =>
    refine ih (s.passSlot x own othr) ?_
    by_cases hx : x = g
    · subst hx
      exact .inr ((s.slotOwn_passSlot_self x own othr).trans (Nat.mod_eq_of_lt hown))
    · rw [s.slotOwn_passSlot_of_ne own othr hx]
      exact h.imp_left fun hg => (List.mem_cons.1 hg).resolve_left (Ne.symm hx)

@[simp] theorem State.passSlots_pans (s : State) (gs : List Nat) (own othr : Nat) : (s.passSlots gs own othr).pans = s.pans :=
  foldl_keeps State.pans (fun s g => s.passSlot g own othr) (fun _ _ => rfl) gs s

/-- A slot whose status word names a thread of the slot's pan is held by it. -/
theorem State.slotHeldBy_of_status {s : State} {g : Nat} {x : Fin 8}
    (hx : (s.panThreads (s.slotOwner g))[s.slotThr g]? = some x.val) (ho : s.slotOwn g = ownThread) : s.slotHeldBy g x = true := by
  have h1 : s.thrOwner x = s.slotOwner g := owner_of_owned hx
  have h2 : s.thrLocal x = s.slotThr g := localNo_of_owned hx
  simp [State.slotHeldBy, h1, h2, ho]

end Sys2Proof.Machine

/-! SUPPORT. A party's write of a slot's status word (R339, R340, R359), and the proof of its statement. -/

namespace Sys2Proof.Machine

open Sys2Proof.Safety

/-! ### What a write of W2 does -/

section
variable {s : State} {p : Party} {g : Nat} (v : Word)

/-- A mailbox takes SEEN alone (R359). -/
theorem State.writeSlot_of_mailbox (ho : s.slotOwn g = ownLine) (hm : s.mailboxOf g = true) (hv : bitOf v 9 = true) :
    (s.writeSlot p g 2 v).2 = s.putSlotWord g 2 (putBit (s.slotWord g 2) 9 true) := by
  simp [State.writeSlot, ho, hm, hv]

theorem State.slotOwn_ne_line_of_holds (h : s.holds p g = true) : s.slotOwn g ≠ ownLine := by
  cases p with
  | host _ =>
    have ho : s.slotOwn g = ownHost := by simpa using (Bool.and_eq_true_iff.1 h).1
    rw [ho]
    decide
  | thread t =>
    have ho : s.slotOwn g = ownThread := by simpa using (Bool.and_eq_true_iff.1 (Bool.and_eq_true_iff.1 h).1).2
    rw [ho]
    decide

theorem State.writeSlot_of_holder (h : s.holds p g = true) : (s.writeSlot p g 2 v).2 = (s.writeW2 g v).2 := by
  simp [State.writeSlot, h, State.slotOwn_ne_line_of_holds h]

/-- A write by a party that does not hold the slot is not performed (R339). -/
theorem State.writeSlot_of_stranger (h : s.holds p g = false) (hm : s.slotOwn g = ownLine → s.mailboxOf g = false) :
    (s.writeSlot p g 2 v).2 = s.ownRef (s.slotOwner g) := by
  have hbox : (s.slotOwn g == ownLine && s.mailboxOf g) = false := by
    by_cases ho : s.slotOwn g = ownLine
    · simp [hm ho]
    · simp [ho]
  simp [State.writeSlot, h, hbox]

/-! ### The holder's write (R340) -/

variable {v}

theorem State.writeW2_to_host (hv : bitsOf v 14 2 = 0) :
    (s.writeW2 g v).2 = s.putSlotWord g 2 (merge 0xFA00 (s.slotWord g 2) v) := by
  simp [State.writeW2, hv, ownThread]

theorem State.writeW2_to_thread (hv : bitsOf v 14 2 = 1) {x : Fin 8}
    (hx : (s.panThreads (s.slotOwner g))[bitsOf v 11 3]? = some x.val) (hl : s.charge x < s.limit x) :
    (s.writeW2 g v).2 = s.putSlotWord g 2 (merge 0xFA00 (s.slotWord g 2) v) := by
  simp [State.writeW2, hv, hx, Nat.not_le.2 hl, idx]

/-- A write that names no new holder, or a thread at its limit, is not performed. -/
theorem State.writeW2_refused
    (h : 2 ≤ bitsOf v 14 2 ∨ (bitsOf v 14 2 = 1 ∧ ((s.panThreads (s.slotOwner g))[bitsOf v 11 3]? = none ∨
      ∃ x : Fin 8, (s.panThreads (s.slotOwner g))[bitsOf v 11 3]? = some x.val ∧ s.limit x ≤ s.charge x ∧
        s.slotHeldBy g x = false))) :
    (s.writeW2 g v).2 = s.ownRef (s.slotOwner g) := by
  rcases h with h | ⟨h, hx | ⟨x, hx, hl, hh⟩⟩
  · simp [State.writeW2, h]
  · simp [State.writeW2, h, hx, ownThread]
  · simp [State.writeW2, h, hx, hl, hh, idx, ownThread]

end

theorem State.ownRef_self (s : State) (n : Fin 4) : (s.ownRef n).pans[n].ownRef = true := by
  rw [State.ownRef, State.updPan_pans, tabUpd_get, if_pos rfl]

/-! ### A served access to a slot -/

/-- A party's access to a slot is served: a host port has VIO, is past HPI_READY, has the right to the slot and no transaction open; a
thread issues, and its pan owns the slot. -/
def State.SlotServed (s : State) (p : Party) (g : Nat) : Prop :=
  match p with
  | .host h => s.pow.vioOk = true ∧ s.serves = true ∧ s.hostRight h (slotAddr g 2) = .yes ∧ s.host[h.ix].tx = none
  | .thread t => s.coreRuns = true ∧ s.eng.thr[t].issues = true ∧ s.slotOwner g = s.thrPan t

theorem hostPlace_slotAddr {g w : Nat} (hg : g < 1344) (hw : w < 24) : hostPlace (slotAddr g w) = .brine g w := by
  have e1 : (0x20000 + 96 * g + 4 * w - 0x20000) / 96 = g := by omega
  have e2 : (0x20000 + 96 * g + 4 * w - 0x20000) % 96 / 4 = w := by omega
  simp only [hostPlace, slotAddr, e1, e2]
  repeat rw [if_neg (by omega)]
  rw [if_pos (by omega)]

/-- A write to a slot changes memory and the pans' records alone. -/
theorem State.writeSlot_eq (s : State) (p : Party) (g w : Nat) (v : Word) :
    (s.writeSlot p g w v).2 = { s with mem := (s.writeSlot p g w v).2.mem, pans := (s.writeSlot p g w v).2.pans } := by
  unfold State.writeSlot State.writeW2
  dsimp only
  split_ifs <;> rfl

/-- What it changes does not depend on the request for LISTEN or SLEEP, in which alone the state of an access differs. -/
theorem accessState_writeSlot (s : State) (p : Party) (g w : Nat) (v : Word) :
    ((accessState s p).writeSlot p g w v).2.mem = (s.writeSlot p g w v).2.mem ∧
      ((accessState s p).writeSlot p g w v).2.pans = (s.writeSlot p g w v).2.pans := by
  cases p with
  | host h =>
    simp only [State.writeSlot, State.writeW2, apply_ite Prod.snd, apply_ite State.mem, apply_ite State.pans]
    exact ⟨rfl, rfl⟩
  | thread t => exact ⟨rfl, rfl⟩

theorem leads_slotWrite {s : State} {p : Party} {g : Fin 1344} {v : Word} {c : Instr} {P : State → Prop}
    (he : exec c s = .next (s.partySlotWrite p g 2 v)) (hsw : s.sys.swPend = false) (ha : s.SlotServed p g)
    (hP : ∀ u : State, u.sys.panLock = s.sys.panLock → u.alloc = s.alloc → u.mem = (s.writeSlot p g 2 v).2.mem →
      u.pans = (s.writeSlot p g 2 v).2.pans → P u) : Leads c s P := by
  have hw : ((accessState s p).writeSlot p g 2 v).2.sys.swPend = false :=
    (State.writeSlot_keeps p g 2 v (.refl false _)).swPend_false (by cases p <;> exact hsw)
  have hu : LikeState (s.partySlotWrite p g 2 v) ((accessState s p).writeSlot p g 2 v).2 := by
    cases p with
    | host h =>
      obtain ⟨hv, hs, hy, ho⟩ := ha
      have hy' : (s.endRequest false).hostRight h (slotAddr g 2) = .yes := hy
      simp only [State.partySlotWrite, transact_plain s h true _ hv hs ho, State.hostWriteWord, hy',
        hostPlace_slotAddr g.isLt (by decide : 2 < 24)]
      exact likeState_endTx _ _ _ _ hw
    | thread t =>
      obtain ⟨hr, hi, hn⟩ := ha
      simp only [State.partySlotWrite, State.asThread_of_issues _ hr hi, hn, beq_self_eq_true, if_true, State.swReset]
      exact (if_neg (ne_true_of_eq_false hw)).symm ▸ likeState_refl _
  obtain ⟨hmem, hpans⟩ := accessState_writeSlot s p g 2 v
  refine ⟨_, he, hP _ ?_ ?_ (hu.mem.trans hmem) (hu.pans.trans hpans)⟩
  · rw [hu.sys, State.writeSlot_eq]
    cases p <;> rfl
  · rw [hu.alloc, State.writeSlot_eq]
    cases p <;> rfl

/-! ### The statement -/

/-- Settles O42: by the outcomes of a write of W2, that of the holder by the holder it names. -/
theorem passingASlot : Obligations.PassingASlot := by
  unfold Obligations.PassingASlot
  intro s p slot v hsw g hacc n old line
  have ha : s.SlotServed p g := by cases p <;> exact hacc
  refine ⟨fun hh => ⟨fun hv => ?toHost, fun hv x hx hl => ?toThread, fun hv => ?refused⟩, fun hl hm => ?mailbox, fun hh hm => ?stranger⟩
  case toHost =>
    refine leads_slotWrite rfl hsw ha fun u _ _ hmem hpans => ?_
    rw [State.writeSlot_of_holder v hh, State.writeW2_to_host hv] at hmem hpans
    have hw : u.slotWord g 2 = merge 0xFA00 old v := (State.slotWord_congr hmem g 2).trans (State.slotWord_putSlotWord ..)
    refine ⟨hw, ?_, hpans, fun w hw24 hw2 => ?_⟩
    · rw [State.slotOwn, hw, bitsOf_merge old v (by decide)]
      exact hv
    · exact (State.slotWord_congr hmem g w).trans (s.slotWord_putSlotWord_of_ne _ (by decide) hw24 (.inr hw2.symm))
  case toThread =>
    refine leads_slotWrite rfl hsw ha fun u hlock halloc hmem _ => ?_
    rw [State.writeSlot_of_holder v hh, State.writeW2_to_thread hv hx hl] at hmem
    have hw : u.slotWord g 2 = merge 0xFA00 old v := (State.slotWord_congr hmem g 2).trans (State.slotWord_putSlotWord ..)
    refine ⟨hw, State.slotHeldBy_of_status ?_ ?_⟩
    · rw [State.slotThr, hw, bitsOf_merge old v (by decide), State.slotOwner_congr hlock halloc, State.panThreads_congr hlock halloc]
      exact hx
    · rw [State.slotOwn, hw, bitsOf_merge old v (by decide)]
      exact hv
  case refused =>
    refine leads_slotWrite rfl hsw ha fun u _ _ hmem hpans => ?_
    rw [State.writeSlot_of_holder v hh, State.writeW2_refused hv] at hmem hpans
    exact ⟨hmem, hpans ▸ s.ownRef_self n⟩
  case mailbox =>
    have hv : bitOf (putBit v 9 true) 9 = true := by rw [bitOf_putBit _ _ _ _ (by decide), if_pos rfl]
    refine leads_slotWrite rfl hsw ha fun u _ _ hmem hpans => ?_
    rw [State.writeSlot_of_mailbox _ hl hm hv] at hmem hpans
    refine ⟨(State.slotWord_congr hmem g 2).trans (State.slotWord_putSlotWord ..), fun a ha => ?_, hpans⟩
    rw [hmem]
    exact memGet_memPutWord_of_ne _ _ _ _ (by simp only [slotAddr]; omega)
  case stranger =>
    refine leads_slotWrite rfl hsw ha fun u _ _ hmem hpans => ?_
    rw [State.writeSlot_of_stranger v hh hm] at hmem hpans
    exact ⟨hmem, hpans ▸ s.ownRef_self n⟩

end Sys2Proof.Machine

/-! SUPPORT. The control registers of queues and FIFOs (R343, R354, R355), and the proof of their statement. -/

namespace Sys2Proof.Machine

open Sys2Proof.Safety

/-! ### One queue and one FIFO of a pan -/

section
variable (s : State) (n q : Fin 4)

@[simp] theorem State.updTq_tq (f : TxQueue → TxQueue) : (s.updTq n q f).tq n q = f (s.tq n q) := by
  simp [State.tq, tabUpd_get, -Fin.getElem_fin]

theorem State.updTq_tq_of_ne {r : Fin 4} (f : TxQueue → TxQueue) (h : q ≠ r) : (s.updTq n q f).tq n r = s.tq n r := by
  simp [State.tq, tabUpd_get, h, -Fin.getElem_fin]

@[simp] theorem State.updTq_rxf (r : Fin 4) (f : TxQueue → TxQueue) : (s.updTq n q f).rxf n r = s.rxf n r := by
  simp [State.rxf, tabUpd_get, -Fin.getElem_fin]

@[simp] theorem State.updRxf_rxf (f : RxFifo → RxFifo) : (s.updRxf n q f).rxf n q = f (s.rxf n q) := by
  simp [State.rxf, tabUpd_get, -Fin.getElem_fin]

theorem State.updRxf_rxf_of_ne {r : Fin 4} (f : RxFifo → RxFifo) (h : q ≠ r) : (s.updRxf n q f).rxf n r = s.rxf n r := by
  simp [State.rxf, tabUpd_get, h, -Fin.getElem_fin]

@[simp] theorem State.updRxf_tq (r : Fin 4) (f : RxFifo → RxFifo) : (s.updRxf n q f).tq n r = s.tq n r := by
  simp [State.tq, tabUpd_get, -Fin.getElem_fin]

variable {s n q}

theorem State.tq_congr {u : State} (h : u.pans = s.pans) (n q : Fin 4) : u.tq n q = s.tq n q := by
  rw [State.tq, h, State.tq]

theorem State.rxf_congr {u : State} (h : u.pans = s.pans) (n q : Fin 4) : u.rxf n q = s.rxf n q := by
  rw [State.rxf, h, State.rxf]

/-- The rings that a queue's ring must not meet are not its own. -/
theorem State.ringOk_updTq (f : TxQueue → TxQueue) (base depth : Nat) :
    (s.updTq n q f).ringOk n q base depth = s.ringOk n q base depth := by
  have hrings : (s.updTq n q f).otherRings n q = s.otherRings n q := by
    unfold State.otherRings
    simp only [State.updTq_rxf]
    refine congrArg₂ (· ++ ·) (List.flatMap_congr fun r _ => ?_) rfl
    by_cases h : q = r
    · simp [h]
    · rw [State.updTq_tq_of_ne s n q f h]
      rfl
  simp only [State.ringOk, hrings]
  rfl

theorem State.ringOk_updRxf (f : RxFifo → RxFifo) (base depth : Nat) :
    (s.updRxf n q f).ringOk n (q.val + 4) base depth = s.ringOk n (q.val + 4) base depth := by
  have hrings : (s.updRxf n q f).otherRings n (q.val + 4) = s.otherRings n (q.val + 4) := by
    unfold State.otherRings
    simp only [State.updRxf_tq]
    refine congrArg₂ (· ++ ·) rfl (List.flatMap_congr fun r _ => ?_)
    by_cases h : q = r
    · simp [h]
    · rw [State.updRxf_rxf_of_ne s n q f h]
      rfl
  simp only [State.ringOk, hrings]
  rfl

end

/-! ### A change of TQn_CTL.EN (R343) -/

theorem TxQueue.en_putBit (tq : TxQueue) (b : Bool) : TxQueue.en { tq with ctl := putBit tq.ctl 0 b } = b :=
  (bitOf_putBit tq.ctl 0 0 b (by decide)).trans (if_pos rfl)

section
variable {s : State} {n q : Fin 4}

theorem State.tqSetEn_of_same {on : Bool} (h : (s.tq n q).en = on) : s.tqSetEn n q on = s :=
  if_pos (by rw [h, beq_self_eq_true])

theorem State.tqSetEn_of_allowed (hoff : (s.tq n q).en = false) (hok : s.ringOk n q (s.tq n q).base (s.tq n q).depth = true) :
    s.tqSetEn n q true =
      (s.updTq n q fun tq => { tq with ctl := putBit tq.ctl 0 true, trunc := 0, done := [], items := [] }).passSlots
        (s.ringSlots n (s.tq n q).base (s.tq n q).depth) ownLine 0 := by
  simp [State.tqSetEn, hoff, hok]

theorem State.tqSetEn_of_refused (hoff : (s.tq n q).en = false) (hok : s.ringOk n q (s.tq n q).base (s.tq n q).depth = false) :
    s.tqSetEn n q true = s.updTq n q fun tq => { tq with cfgErr := true } := by
  simp [State.tqSetEn, hoff, hok]

theorem State.tqSetEn_of_empty (hon : (s.tq n q).en = true) (hi : (s.tq n q).items = []) (hd : (s.tq n q).done = [])
    (ho : (s.tq n q).opened = none) :
    s.tqSetEn n q false =
      (s.updTq n q fun tq => { tq with ctl := putBit tq.ctl 0 false }).passSlots
        (s.ringSlots n (s.tq n q).base (s.tq n q).depth) ownHost 0 := by
  simp [State.tqSetEn, hon, hi, hd, ho]

/-! ### TQn_CTL (R753) -/

/-- A queue whose fields but EN are as a write of TQn_CTL leaves them. -/
def State.tqWritten (s : State) (n q : Fin 4) (v : Word) : State :=
  s.updTq n q fun tq => { tq with ctl := (s.tqFields n q v).1, cfgErr := tq.cfgErr || (s.tqFields n q v).2 }

theorem State.tqCtl_of_no_flush {v : Word} (h : bitOf v 3 = false) :
    s.tqCtl n q v = (s.tqWritten n q v).tqSetEn n q (bitOf v 0) := by
  simp only [State.tqCtl, h, Bool.false_eq_true, if_false]
  rfl

theorem State.tqCtl_of_flush {v : Word} (h : bitOf v 3 = true) :
    s.tqCtl n q v = ((s.flushQueue n q).2.tqWritten n q v).tqSetEn n q (bitOf v 0) := by
  simp only [State.tqCtl, h, if_true]
  rfl

section
variable (s n q) (v : Word)

@[simp] theorem State.tqWritten_tq :
    (s.tqWritten n q v).tq n q =
      { s.tq n q with ctl := (s.tqFields n q v).1, cfgErr := (s.tq n q).cfgErr || (s.tqFields n q v).2 } := by
  rw [State.tqWritten, State.updTq_tq]

theorem State.tqWritten_en : ((s.tqWritten n q v).tq n q).en = (s.tq n q).en := by
  rw [State.tqWritten_tq]
  show (s.tqFields n q v).1.getLsbD 0 = (s.tq n q).ctl.getLsbD 0
  simp only [State.tqFields, getLsbD_merge]
  refine if_neg ?_
  split_ifs <;> decide

theorem State.tqWritten_ring :
    ((s.tqWritten n q v).tq n q).base = (s.tq n q).base ∧ ((s.tqWritten n q v).tq n q).depth = (s.tq n q).depth := by
  rw [State.tqWritten_tq]
  exact ⟨rfl, rfl⟩

theorem State.tqWritten_ringOk (base depth : Nat) : (s.tqWritten n q v).ringOk n q base depth = s.ringOk n q base depth :=
  State.ringOk_updTq _ _ _

end

variable {v : Word} (hf : bitOf v 3 = false)
include hf

theorem State.tqCtl_of_allowed (hv : bitOf v 0 = true) (hoff : (s.tq n q).en = false)
    (hok : s.ringOk n q (s.tq n q).base (s.tq n q).depth = true) :
    s.tqCtl n q v =
      ((s.tqWritten n q v).updTq n q fun tq => { tq with ctl := putBit tq.ctl 0 true, trunc := 0, done := [], items := [] }).passSlots
        (s.ringSlots n (s.tq n q).base (s.tq n q).depth) ownLine 0 := by
  have hring := s.tqWritten_ring n q v
  rw [State.tqCtl_of_no_flush hf, hv, State.tqSetEn_of_allowed ((s.tqWritten_en n q v).trans hoff)]
  · rw [hring.1, hring.2]
    rfl
  · rw [State.tqWritten_ringOk, hring.1, hring.2, hok]

theorem State.tqCtl_of_refused (hv : bitOf v 0 = true) (hoff : (s.tq n q).en = false)
    (hok : s.ringOk n q (s.tq n q).base (s.tq n q).depth = false) :
    s.tqCtl n q v = (s.tqWritten n q v).updTq n q fun tq => { tq with cfgErr := true } := by
  have hring := s.tqWritten_ring n q v
  rw [State.tqCtl_of_no_flush hf, hv, State.tqSetEn_of_refused ((s.tqWritten_en n q v).trans hoff)]
  rw [State.tqWritten_ringOk, hring.1, hring.2, hok]

theorem State.tqCtl_of_empty (hv : bitOf v 0 = false) (hon : (s.tq n q).en = true) (hi : (s.tq n q).items = [])
    (hd : (s.tq n q).done = []) (ho : (s.tq n q).opened = none) :
    s.tqCtl n q v =
      ((s.tqWritten n q v).updTq n q fun tq => { tq with ctl := putBit tq.ctl 0 false }).passSlots
        (s.ringSlots n (s.tq n q).base (s.tq n q).depth) ownHost 0 := by
  have hring := s.tqWritten_ring n q v
  rw [State.tqCtl_of_no_flush hf, hv, State.tqSetEn_of_empty ((s.tqWritten_en n q v).trans hon)]
  · rw [hring.1, hring.2]
    rfl
  all_goals rw [State.tqWritten_tq]; assumption

end

/-! ### A flush (R354) -/

@[simp] theorem State.writeStatus_pans (s : State) (g code : Nat) (r : Record) : (s.writeStatus g code r).pans = s.pans := by
  unfold State.writeStatus
  cases r.sof <;> cases r.words <;> simp

@[simp] theorem State.cplEvent_pans (s : State) (n : Fin 4) (q : TxQueue) : (s.cplEvent n q).pans = s.pans := by
  unfold State.cplEvent
  split
  · exact State.setEvent_pans ..
  · rfl

@[simp] theorem State.arriveOwn_pans (s : State) (n : Fin 4) (k : Nat) : (s.arriveOwn n k).pans = s.pans := by
  unfold State.arriveOwn
  split
  · exact State.arrive_pans ..
  · rfl

section
variable (s : State) (n q : Fin 4)

/-- A completion takes the item from its queue, and leaves the open item and the control register. -/
theorem State.completeItem_tq (g code : Nat) (r : Record) :
    (s.completeItem n q g code r).tq n q =
      { s.tq n q with
          items := (s.tq n q).items.filter fun i => i.slot != g
          done := ((s.completeItem n q g code r).tq n q).done
          cnt := ((s.completeItem n q g code r).tq n q).cnt } := by
  unfold State.completeItem
  dsimp only
  split_ifs <;> simp [State.tq, tabUpd_get, Pan.forget, -Fin.getElem_fin]

/-- The completion of items in turn takes each of them. -/
theorem State.foldl_completeItem_tq {code : Nat} (r : TxItem → Record) (l : List TxItem) :
    let u := l.foldl (fun s i => s.completeItem n q i.slot code (r i)) s
    (u.tq n q).opened = (s.tq n q).opened ∧ (u.tq n q).ctl = (s.tq n q).ctl ∧
      ∀ i ∈ (u.tq n q).items, i ∈ (s.tq n q).items ∧ ∀ x ∈ l, i.slot ≠ x.slot := by
  induction l generalizing s with
  | nil => exact ⟨rfl, rfl, fun i hi => ⟨hi, nofun⟩⟩
  | cons x l ih =>
    obtain ⟨hopen, hctl, hitems⟩ := ih (s.completeItem n q x.slot code (r x))
    rw [State.completeItem_tq] at hopen hctl hitems
    refine ⟨hopen, hctl, fun i hi => ?_⟩
    obtain ⟨hmem, hne⟩ := hitems i hi
    obtain ⟨hmem, hx⟩ := List.mem_filter.1 hmem
    exact ⟨hmem, List.forall_mem_cons.2 ⟨by simpa using hx, hne⟩⟩

/-- A flush ends the open item and completes every QUEUED one; EN stays. -/
theorem State.flushQueue_tq :
    let u := (s.flushQueue n q).2
    (u.tq n q).opened = none ∧ (u.tq n q).ctl = (s.tq n q).ctl ∧ ∀ i ∈ (u.tq n q).items, i.st = .onWire := by
  obtain ⟨hopen, hctl, hitems⟩ := State.foldl_completeItem_tq (code := stFlushed)
    (s.updTq n q fun tq =>
      { tq with items := tq.items.map (fun i => if i.st == .onWire then { i with flushed := true } else i), opened := none })
    n q (fun i => .waiting (s.tq n q).port i.last) ((s.tq n q).items.filter fun i => i.st == .queued)
  rw [State.updTq_tq] at hopen hctl hitems
  refine ⟨hopen, hctl, fun i hi => ?_⟩
  obtain ⟨hmem, hne⟩ := hitems i hi
  obtain ⟨j, hj, rfl⟩ := List.mem_map.1 hmem
  cases hst : j.st with
  | onWire => simp
  | queued => exact absurd (by simp [hst]) (hne j (List.mem_filter.2 ⟨hj, by simp [hst]⟩))

end

/-- A write of TQn_CTL with FLUSH = 1 that leaves EN as it is. -/
theorem State.tqCtl_of_flush_same {s : State} {n q : Fin 4} {v : Word} (hf : bitOf v 3 = true) (hv : bitOf v 0 = (s.tq n q).en) :
    s.tqCtl n q v = (s.flushQueue n q).2.tqWritten n q v := by
  obtain ⟨-, hctl, -⟩ := s.flushQueue_tq n q
  rw [State.tqCtl_of_flush hf, hv, State.tqSetEn_of_same]
  rw [State.tqWritten_en, TxQueue.en, hctl, TxQueue.en]

/-! ### A change of RXFn_CTL.EN (R355) -/

theorem RxFifo.en_putBit (rx : RxFifo) (b : Bool) : RxFifo.en { rx with ctl := putBit rx.ctl 0 b } = b :=
  (bitOf_putBit rx.ctl 0 0 b (by decide)).trans (if_pos rfl)

section
variable {s : State} {n q : Fin 4}

theorem State.rxfSetEn_of_allowed (hoff : (s.rxf n q).en = false)
    (hok : s.ringOk n (q.val + 4) (s.rxf n q).base (s.rxf n q).depth = true) :
    s.rxfSetEn n q true =
      (s.updRxf n q fun rx => { rx with ctl := putBit rx.ctl 0 true, frames := [] }).passSlots
        (s.ringSlots n (s.rxf n q).base (s.rxf n q).depth) ownLine 0 := by
  simp [State.rxfSetEn, hoff, hok]

theorem State.rxfSetEn_of_refused (hoff : (s.rxf n q).en = false)
    (hok : s.ringOk n (q.val + 4) (s.rxf n q).base (s.rxf n q).depth = false) :
    s.rxfSetEn n q true = s.updRxf n q fun rx => { rx with cfgErr := true } := by
  simp [State.rxfSetEn, hoff, hok]

theorem State.rxfSetEn_of_enabled (hon : (s.rxf n q).en = true) :
    s.rxfSetEn n q false =
      ((s.updRxf n q fun rx => { rx with ctl := putBit rx.ctl 0 false, frames := [] }).passSlots
        (s.ringSlots n (s.rxf n q).base (s.rxf n q).depth) ownHost 0).mapHosts fun y =>
          y.dropFetch fun f => f.rxf && f.pan == n && f.q == q := by
  simp [State.rxfSetEn, hon]

end

/-! ### RXFn_CTL (R753) -/

/-- A FIFO whose fields but EN are as a write of RXFn_CTL leaves them. -/
def State.rxfWritten (s : State) (n q : Fin 4) (v : Word) : State :=
  s.updRxf n q fun rx => { rx with ctl := (s.rxfFields n q v).1, cfgErr := rx.cfgErr || (s.rxfFields n q v).2 }

theorem State.rxfCtl_eq (s : State) (n q : Fin 4) (v : Word) :
    s.rxfCtl n q v = ((s.rxfWritten n q v).rxfSetEn n q (bitOf v 0)).settleWaits := rfl

section
variable (s : State) (n q : Fin 4) (v : Word)

@[simp] theorem State.rxfWritten_rxf :
    (s.rxfWritten n q v).rxf n q =
      { s.rxf n q with ctl := (s.rxfFields n q v).1, cfgErr := (s.rxf n q).cfgErr || (s.rxfFields n q v).2 } := by
  rw [State.rxfWritten, State.updRxf_rxf]

theorem State.rxfWritten_en : ((s.rxfWritten n q v).rxf n q).en = (s.rxf n q).en := by
  rw [State.rxfWritten_rxf]
  show (s.rxfFields n q v).1.getLsbD 0 = (s.rxf n q).ctl.getLsbD 0
  simp only [State.rxfFields, getLsbD_merge]
  refine if_neg ?_
  split_ifs <;> decide

theorem State.rxfWritten_ring :
    ((s.rxfWritten n q v).rxf n q).base = (s.rxf n q).base ∧ ((s.rxfWritten n q v).rxf n q).depth = (s.rxf n q).depth := by
  rw [State.rxfWritten_rxf]
  exact ⟨rfl, rfl⟩

theorem State.rxfWritten_ringOk (base depth : Nat) :
    (s.rxfWritten n q v).ringOk n (q.val + 4) base depth = s.ringOk n (q.val + 4) base depth :=
  State.ringOk_updRxf _ _ _

end

section
variable {s : State} {n q : Fin 4} {v : Word}

theorem State.rxfCtl_of_allowed (hv : bitOf v 0 = true) (hoff : (s.rxf n q).en = false)
    (hok : s.ringOk n (q.val + 4) (s.rxf n q).base (s.rxf n q).depth = true) :
    s.rxfCtl n q v =
      (((s.rxfWritten n q v).updRxf n q fun rx => { rx with ctl := putBit rx.ctl 0 true, frames := [] }).passSlots
        (s.ringSlots n (s.rxf n q).base (s.rxf n q).depth) ownLine 0).settleWaits := by
  have hring := s.rxfWritten_ring n q v
  rw [State.rxfCtl_eq, hv, State.rxfSetEn_of_allowed ((s.rxfWritten_en n q v).trans hoff)]
  · rw [hring.1, hring.2]
    rfl
  · rw [State.rxfWritten_ringOk, hring.1, hring.2, hok]

theorem State.rxfCtl_of_refused (hv : bitOf v 0 = true) (hoff : (s.rxf n q).en = false)
    (hok : s.ringOk n (q.val + 4) (s.rxf n q).base (s.rxf n q).depth = false) :
    s.rxfCtl n q v = ((s.rxfWritten n q v).updRxf n q fun rx => { rx with cfgErr := true }).settleWaits := by
  have hring := s.rxfWritten_ring n q v
  rw [State.rxfCtl_eq, hv, State.rxfSetEn_of_refused ((s.rxfWritten_en n q v).trans hoff)]
  rw [State.rxfWritten_ringOk, hring.1, hring.2, hok]

theorem State.rxfCtl_of_disabled (hv : bitOf v 0 = false) (hon : (s.rxf n q).en = true) :
    s.rxfCtl n q v =
      ((((s.rxfWritten n q v).updRxf n q fun rx => { rx with ctl := putBit rx.ctl 0 false, frames := [] }).passSlots
        (s.ringSlots n (s.rxf n q).base (s.rxf n q).depth) ownHost 0).mapHosts fun y =>
          y.dropFetch fun f => f.rxf && f.pan == n && f.q == q).settleWaits := by
  have hring := s.rxfWritten_ring n q v
  rw [State.rxfCtl_eq, hv, State.rxfSetEn_of_enabled ((s.rxfWritten_en n q v).trans hon), hring.1, hring.2]
  rfl

end

/-! ### Served writes of TQn_CTL and RXFn_CTL -/

section
variable (s : State) (p : Party) (key : Option (Fin 5)) (r : Rg) (n q : Fin 4)

theorem State.writing_tq : (s.writing p key r).tq n q = s.tq n q := State.tq_congr (s.writing_pans p key r) n q
theorem State.writing_rxf : (s.writing p key r).rxf n q = s.rxf n q := State.rxf_congr (s.writing_pans p key r) n q
theorem State.writing_ringOk (self base depth : Nat) :
    (s.writing p key r).ringOk n self base depth = s.ringOk n self base depth := by
  rw [State.writing_eq]; rfl
theorem State.writing_ringSlots (base depth : Nat) : (s.writing p key r).ringSlots n base depth = s.ringSlots n base depth := by
  rw [State.writing_eq]; rfl

theorem State.winReg_tqCtl : s.winReg n (tqAt q 0) = .tqCtl n q := by fin_cases q <;> rfl
theorem State.winReg_rxfCtl : s.winReg n (rxfAt q 0) = .rxfCtl n q := by fin_cases q <;> rfl

theorem State.putReg1_tqCtl (v : Word) : s.putReg1 p (.win n) (.tqCtl n q) v = s.tqCtl n q v := rfl
theorem State.putReg1_rxfCtl (v : Word) : s.putReg1 p (.win n) (.rxfCtl n q) v = s.rxfCtl n q v := rfl

theorem State.regValue_tqCtl : s.regValue p (.win n) (.tqCtl n q) = (s.tq n q).ctl := by
  have h : s.regValue p (.win n) (.tqCtl n q) = 0#32 ||| 0#32 ||| (s.tq n q).ctl := rfl
  rw [h, BitVec.zero_or, BitVec.zero_or]

end

section
variable {s : State} {p : Party} {n q : Fin 4} {v : Word} {P : State → Prop} (hs : served s p (.win n)) (ho : s.winClosed n = false)
include hs ho

theorem leads_tqCtl {c : Instr} (he : exec c s = .next (s.partyWrite p (.win n) (tqAt q 0) v))
    (hP : ∀ u, LikeState u ((s.writing p none (.tqCtl n q)).tqCtl n q v) → P u) : Leads c s P :=
  leads_open_write (r := .tqCtl n q) he hs (by rw [State.regAt, ho, if_neg Bool.false_ne_true, State.winReg_tqCtl]) rfl rfl
    (by rw [State.putReg1_tqCtl]; exact State.tqCtl_keeps n q v (.refl false _)) (by rwa [State.putReg1_tqCtl])

theorem leads_rxfCtl {c : Instr} (he : exec c s = .next (s.partyWrite p (.win n) (rxfAt q 0) v))
    (hP : ∀ u, LikeState u ((s.writing p none (.rxfCtl n q)).rxfCtl n q v) → P u) : Leads c s P :=
  leads_open_write (r := .rxfCtl n q) he hs (by rw [State.regAt, ho, if_neg Bool.false_ne_true, State.winReg_rxfCtl]) rfl rfl
    (by rw [State.putReg1_rxfCtl]; exact State.rxfCtl_keeps n q v (.refl false _)) (by rwa [State.putReg1_rxfCtl])

end

/-! ### The statement -/

/-- Settles O41: EN is checked last, on the ring as it stands; a flush completes each QUEUED item in turn. -/
theorem queueAndFifoControl : Obligations.QueueAndFifoControl := by
  unfold Obligations.QueueAndFifoControl
  intro s p n q v hs ho tq rx txRing rxRing
  refine ⟨fun hoff hv hf => ⟨fun hok => ?queueOpens, fun hok => ?queueRefused⟩, fun hon hv hf hi hd hop => ?queueCloses, ?flush,
    fun hoff hv => ⟨fun hok => ?fifoOpens, fun hok => ?fifoRefused⟩, fun hon hv => ?fifoCloses⟩
  case queueOpens =>
    refine leads_tqCtl hs ho rfl fun u hu => ?_
    rw [State.tqCtl_of_allowed hf hv (by rwa [State.writing_tq]) (by rwa [State.writing_tq, State.writing_ringOk]),
      State.writing_tq, State.writing_ringSlots] at hu
    rw [State.tq_congr hu.pans, State.tq_congr (State.passSlots_pans ..), State.updTq_tq]
    refine ⟨TxQueue.en_putBit _ true, rfl, rfl, rfl, fun g hg => ?_⟩
    rw [State.slotOwn_congr hu.mem]
    exact State.slotOwn_passSlots 0 (by decide) _ _ (.inl hg)
  case queueRefused =>
    refine leads_tqCtl hs ho rfl fun u hu => ?_
    rw [State.tqCtl_of_refused hf hv (by rwa [State.writing_tq]) (by rwa [State.writing_tq, State.writing_ringOk])] at hu
    rw [State.tq_congr hu.pans, State.updTq_tq]
    refine ⟨(State.tqWritten_en ..).trans ?_, rfl, hu.mem.trans (s.writing_mem p none _)⟩
    rw [State.writing_tq]
    exact hoff
  case queueCloses =>
    refine leads_tqCtl hs ho rfl fun u hu => ?_
    rw [State.tqCtl_of_empty hf hv (by rwa [State.writing_tq]) (by rwa [State.writing_tq]) (by rwa [State.writing_tq])
      (by rwa [State.writing_tq]), State.writing_tq, State.writing_ringSlots] at hu
    rw [State.tq_congr hu.pans, State.tq_congr (State.passSlots_pans ..), State.updTq_tq]
    refine ⟨TxQueue.en_putBit _ false, fun g hg => ?_⟩
    rw [State.slotOwn_congr hu.mem]
    exact State.slotOwn_passSlots 0 (by decide) _ _ (.inl hg)
  case flush =>
    refine leads_tqCtl hs ho rfl fun u hu => ?_
    have hf : bitOf (putBit (s.regValue p (.win n) (.tqCtl n q)) 3 true) 3 = true := by
      rw [bitOf_putBit _ _ _ _ (by decide), if_pos rfl]
    have hv : bitOf (putBit (s.regValue p (.win n) (.tqCtl n q)) 3 true) 0 = tq.en := by
      rw [bitOf_putBit _ _ _ _ (by decide), if_neg (by decide), State.regValue_tqCtl, TxQueue.en]
    obtain ⟨hopen, hctl, hitems⟩ := (s.writing p none (.tqCtl n q)).flushQueue_tq n q
    rw [State.tqCtl_of_flush_same hf (by rw [State.writing_tq]; exact hv)] at hu
    rw [State.tq_congr hu.pans, State.tqWritten_en, TxQueue.en, hctl, State.writing_tq, State.tqWritten_tq]
    exact ⟨hopen, hitems, rfl⟩
  case fifoOpens =>
    refine leads_rxfCtl hs ho rfl fun u hu => ?_
    rw [State.rxfCtl_of_allowed hv (by rwa [State.writing_rxf]) (by rwa [State.writing_rxf, State.writing_ringOk]),
      State.writing_rxf, State.writing_ringSlots] at hu
    rw [State.rxf_congr hu.pans, State.rxf_congr (State.settleWaits_pans _), State.rxf_congr (State.passSlots_pans ..),
      State.updRxf_rxf]
    refine ⟨RxFifo.en_putBit _ true, rfl, fun g hg => ?_⟩
    rw [State.slotOwn_congr hu.mem, State.slotOwn_congr (State.settleWaits_mem _)]
    exact State.slotOwn_passSlots 0 (by decide) _ _ (.inl hg)
  case fifoRefused =>
    refine leads_rxfCtl hs ho rfl fun u hu => ?_
    rw [State.rxfCtl_of_refused hv (by rwa [State.writing_rxf]) (by rwa [State.writing_rxf, State.writing_ringOk])] at hu
    rw [State.rxf_congr hu.pans, State.rxf_congr (State.settleWaits_pans _), State.updRxf_rxf]
    refine ⟨(State.rxfWritten_en ..).trans ?_, rfl, (hu.mem.trans (State.settleWaits_mem _)).trans (s.writing_mem p none _)⟩
    rw [State.writing_rxf]
    exact hoff
  case fifoCloses =>
    refine leads_rxfCtl hs ho rfl fun u hu => ?_
    rw [State.rxfCtl_of_disabled hv (by rwa [State.writing_rxf]), State.writing_rxf, State.writing_ringSlots] at hu
    rw [State.rxf_congr hu.pans, State.rxf_congr (State.settleWaits_pans _), State.rxf_congr (State.mapHosts_pans ..),
      State.rxf_congr (State.passSlots_pans ..), State.updRxf_rxf]
    refine ⟨RxFifo.en_putBit _ false, rfl, fun g hg => ?_⟩
    rw [State.slotOwn_congr hu.mem, State.slotOwn_congr (State.settleWaits_mem _)]
    exact State.slotOwn_passSlots 0 (by decide) _ _ (.inl hg)

end Sys2Proof.Machine

/-! SUPPORT. A filter's four shadow words, checked, applied or discarded as one (chapter 10), and the proof of their statement. -/

namespace Sys2Proof.Machine

open Sys2Proof.Safety

/-! ### One filter -/

section
variable (s : State) (k : Fin 128) (f : Filter → Filter)

theorem State.updFlt_self : (s.updFlt k f).flt[k] = f s.flt[k] := by
  rw [State.updFlt_flt, tabUpd_get, if_pos rfl]

theorem State.updFlt_of_ne {j : Fin 128} (h : j ≠ k) : (s.updFlt k f).flt[j] = s.flt[j] :=
  tabUpd_get_of_ne _ _ _ _ h.symm

end

/-- A table one of whose entries is put back as it was. -/
theorem tabUpd_of_same {α : Type} {n : Nat} (t : Tab α n) (i : Fin n) (f : α → α) (h : f t[i] = t[i]) : tabUpd t i f = t := by
  rw [tabUpd, h]
  exact Vector.set_getElem_self _

theorem Filter.taken_ctl (x : Filter) : x.taken.ctl = putBit (x.ctlSh.getD x.ctl) 30 false := rfl

/-- A discarded entry has no shadow word left to discard. -/
theorem Filter.dropBad_clearShadow (x : Filter) (w : Fin 4) : x.clearShadow.dropBad w = x.clearShadow := by
  rw [Filter.dropBad, if_neg (by simp [Filter.clearShadow])]
  fin_cases w <;> rfl

/-! ### The check of the shadow words' parity (R675) -/

/-- The shadow words of filter `k`. -/
def fltShadows (k : Fin 128) : List ShKey := [.flt k 0, .flt k 1, .flt k 2, .flt k 3]

section
variable {s : State} {k : Fin 128}

theorem State.weed_of_good {key : ShKey} (h : ∀ e ∈ s.sys.shBad, e.1 ≠ key) : s.weed key = s := by
  have hnone : (s.sys.shBad.find? fun e => e.1 == key) = none := List.find?_eq_none.2 fun e he => by simpa using h e he
  rw [State.weed, hnone]

theorem State.weedAll_of_good (h : ∀ e ∈ s.sys.shBad, ∀ w, e.1 ≠ .flt k w) : s.weedAll (fltShadows k) = s := by
  have hgood : ∀ w, s.weed (.flt k w) = s := fun w => State.weed_of_good fun e he => h e he w
  simp only [State.weedAll, fltShadows, List.foldl_cons, List.foldl_nil, hgood]

/-- The check of one shadow word leaves memory, and every filter but for the word it discards. -/
theorem State.weed_flt (s : State) (k : Fin 128) (w : Fin 4) :
    (s.weed (.flt k w)).mem = s.mem ∧
      ((s.weed (.flt k w)).flt = s.flt ∨ (s.weed (.flt k w)).flt = tabUpd s.flt k fun x => x.dropBad w) := by
  unfold State.weed
  split
  · exact ⟨rfl, .inl rfl⟩
  · split
    · exact ⟨rfl, .inr rfl⟩
    · exact ⟨rfl, .inl rfl⟩

/-- A bad word of a pending entry discards the entry. -/
theorem State.weed_flt_of_bad {w : Fin 4} (hready : s.flt[k].ready = true) (hsh : s.hasShadow (.flt k w) = true)
    (hbad : ∃ e ∈ s.sys.shBad, e.1 = .flt k w) : (s.weed (.flt k w)).flt = tabUpd s.flt k Filter.clearShadow := by
  have hdrop : s.flt[k].dropBad w = s.flt[k].clearShadow := if_pos hready
  obtain ⟨e, he⟩ : ∃ e, (s.sys.shBad.find? fun e => e.1 == .flt k w) = some e := by
    obtain ⟨e, hmem, hkey⟩ := hbad
    exact Option.isSome_iff_exists.1 (List.find?_isSome.2 ⟨e, hmem, by simp [hkey]⟩)
  simp only [State.weed, he, hsh, if_true]
  show tabUpd s.flt k (fun x => x.dropBad w) = _
  rw [tabUpd, hdrop, tabUpd]

theorem State.weedAll_mem (s : State) (k : Fin 128) : (s.weedAll (fltShadows k)).mem = s.mem := by
  simp only [State.weedAll, fltShadows, List.foldl_cons, List.foldl_nil, (State.weed_flt _ k _).1]

/-- A check after the entry has been discarded changes no filter. -/
theorem State.weed_flt_of_cleared {x : Filter} (h : s.flt[k] = x.clearShadow) (w : Fin 4) :
    (s.weed (.flt k w)).flt = s.flt := by
  rcases (s.weed_flt k w).2 with hw | hw
  · exact hw
  · exact hw.trans (tabUpd_of_same _ _ _ (by rw [h]; exact x.dropBad_clearShadow w))

/-- A pending entry whose FLTn_CTL shadow is bad is discarded whole. -/
theorem State.weedAll_of_bad (hready : s.flt[k].ready = true) (hsh : s.flt[k].ctlSh.isSome = true)
    (hbad : ∃ e ∈ s.sys.shBad, e.1 = .flt k 0) : (s.weedAll (fltShadows k)).flt = tabUpd s.flt k Filter.clearShadow := by
  have h0 : (s.weed (.flt k 0)).flt = tabUpd s.flt k Filter.clearShadow := State.weed_flt_of_bad hready hsh hbad
  have hrest : ∀ (u : State) (w : Fin 4), u.flt = tabUpd s.flt k Filter.clearShadow →
      (u.weed (.flt k w)).flt = tabUpd s.flt k Filter.clearShadow := fun u w hu =>
    (State.weed_flt_of_cleared (x := s.flt[k]) (by rw [hu, tabUpd_get, if_pos rfl]) w).trans hu
  exact hrest _ 3 (hrest _ 2 (hrest _ 1 h0))

end

/-! ### The application (R384) -/

section
variable {s : State} {k : Fin 128}

@[simp] theorem State.takeMailbox_flt (s : State) (o : Option Nat) (named : Bool) : (s.takeMailbox o named).flt = s.flt := by
  cases o <;> cases named <;> rfl

@[simp] theorem State.freeMailbox_flt (s : State) (o : Option Nat) : (s.freeMailbox o).flt = s.flt := by
  cases o with
  | none => rfl
  | some g => exact (apply_ite State.flt _ _ _).trans (ite_self _)

/-- An entry that the parity check discards is not applied. -/
theorem State.applyFilter_of_discarded (h : (s.weedAll (fltShadows k)).flt[k].ready = false) :
    s.applyFilter k = s.weedAll (fltShadows k) := by
  unfold State.applyFilter
  exact if_pos (by rw [fltShadows] at h; rw [h]; rfl)

/-- The entry needs a capability that the filter's pan lacks. -/
def State.lacksBridge (s : State) (k : Fin 128) (y : Filter) : Bool := y.dest == 3 && !s.hasCap (s.fltOwner k) .bridge

theorem State.lacksBridge_of_held {y : Filter} (h : y.dest = 3 → s.hasCap (s.fltOwner k) .bridge = true) :
    s.lacksBridge k y = false := by
  by_cases hd : y.dest = 3
  · simp [State.lacksBridge, h hd]
  · simp [State.lacksBridge, hd]

variable (hready : s.flt[k].ready = true) (hgood : ∀ e ∈ s.sys.shBad, ∀ w, e.1 ≠ .flt k w)
include hready hgood

/-- An entry with good parity that fails a check of R384 is discarded, with CFGERR. -/
theorem State.applyFilter_of_refused
    (h : s.flt[k].taken.badForm = true ∨ s.badMailbox (s.fltOwner k) s.flt[k].taken = true ∨ s.lacksBridge k s.flt[k].taken = true) :
    s.applyFilter k =
      let s1 := s.updFlt k fun x => { x.clearShadow with cfgErr := true }
      if s.lacksBridge k s.flt[k].taken then s1.panFault (s.fltOwner k) fltCap else s1 := by
  have hw := State.weedAll_of_good hgood
  rw [fltShadows] at hw
  have hbad : (s.flt[k].taken.badForm || s.badMailbox (s.fltOwner k) s.flt[k].taken || s.lacksBridge k s.flt[k].taken) = true := by
    simpa [or_assoc] using h
  rw [State.lacksBridge] at hbad
  simp only [State.applyFilter, hw, hready, hbad, Bool.not_true, Bool.false_eq_true, if_false, if_true]
  rfl

/-- One that passes them is in effect. -/
theorem State.applyFilter_flt_of_accepted (hform : s.flt[k].taken.badForm = false)
    (hbox : s.badMailbox (s.fltOwner k) s.flt[k].taken = false) (hbridge : s.lacksBridge k s.flt[k].taken = false) :
    (s.applyFilter k).flt =
      tabUpd s.flt k fun x => { x.taken with cfgErr := false, past := x.pastAt s.now.ticks } := by
  have hw := State.weedAll_of_good hgood
  rw [fltShadows] at hw
  rw [State.lacksBridge] at hbridge
  simp only [State.applyFilter, hw, hready, hform, hbox, hbridge, Bool.not_true, Bool.or_self, Bool.false_eq_true, if_false,
    State.freeMailbox_flt, State.takeMailbox_flt]
  rfl

end

theorem exec_filterApply (s : State) (k : Fin 128) :
    exec (.filterApply k) s = .next (if s.coreRuns && s.flt[k].ready then s.applyFilter k else s) := rfl

theorem leads_filterApply {s : State} {k : Fin 128} {P : State → Prop} (hr : s.coreRuns = true) (hready : s.flt[k].ready = true)
    (hP : P (s.applyFilter k)) : Leads (.filterApply k) s P :=
  ⟨s.applyFilter k, by rw [exec_filterApply, hr, hready]; rfl, hP⟩

/-- What a refusal leaves, whether or not it faults the pan as well. -/
theorem State.refused_flt (s : State) (k : Fin 128) (n : Fin 4) (b : Bool) :
    let s1 := s.updFlt k fun x => { x.clearShadow with cfgErr := true }
    let u := if b then s1.panFault n fltCap else s1
    u.flt[k] = { s.flt[k].clearShadow with cfgErr := true } ∧ u.mem = s.mem := by
  cases b <;> simp only [Bool.false_eq_true, if_false, if_true, State.panFault_flt, State.panFault_mem] <;>
    exact ⟨State.updFlt_self .., rfl⟩

/-! ### FLTn_CTL and fltw (R384, R385) -/

theorem State.putReg1_filterCtl (s : State) (p : Party) (n : Fin 4) (k : Fin 128) (v : Word) :
    s.putReg1 p (.win n) (.flt k 0) v = s.updFlt k fun x => x.writeCtl p.holder v := rfl

theorem leads_filterCtl {s : State} {p : Party} {n : Fin 4} {k f : Fin 128} {v : Word} {P : State → Prop}
    (hs : served s p (.win n)) (hr : s.regAt (.win n) (0x800 + 16 * k.val) = .flt f 0)
    (hP : ∀ u, LikeState u ((s.writing p none (.flt f 0)).updFlt f fun x => x.writeCtl p.holder v) → P u) :
    Leads (.filterCtlWrite p n k v) s P :=
  leads_open_write rfl hs hr rfl rfl (by rw [State.putReg1_filterCtl]; exact State.writeFilter_keeps p f 0 v (.refl false _)) hP

theorem groupOk_iff (ra : Fin 16) : groupOk ra = true ↔ 1 ≤ ra.val ∧ ra.val ≤ 12 := by simp [groupOk]

/-- A filter as fltw writes it: its shadow words the registers of the group, pending together. -/
def State.fltwEntry (s : State) (t : Fin 8) (ra : Fin 16) (x : Filter) : Filter :=
  { x with ctlSh := some (s.gReg t (groupReg ra 0)), aSh := some (s.gReg t (groupReg ra 1)), bSh := some (s.gReg t (groupReg ra 2))
           dSh := some (s.gReg t (groupReg ra 3)), ready := true, writer := some t }

/-- What fltw leaves before its thread goes on: the entry written, its parity put right. -/
def State.fltwWritten (s : State) (t : Fin 8) (ra : Fin 16) (k : Fin 128) : State :=
  (List.finRange 4).foldl (fun s w => s.mendParity (.flt k w)) (s.updFlt k (s.fltwEntry t ra))

/-- It differs from the state before in the filter and the parity mismatches alone. -/
theorem State.fltwWritten_like (s : State) (t : Fin 8) (ra : Fin 16) (k : Fin 128) :
    (s.fltwWritten t ra k).eng = s.eng ∧ (s.fltwWritten t ra k).mem = s.mem ∧
      (s.fltwWritten t ra k).flt = tabUpd s.flt k (s.fltwEntry t ra) :=
  ⟨foldl_keeps State.eng _ (fun s w => by rw [State.mendParity_eq]) _ _,
    foldl_keeps State.mem _ (fun s w => by rw [State.mendParity_eq]) _ _,
    foldl_keeps State.flt _ (fun s w => by rw [State.mendParity_eq]) _ _⟩

section
variable {s : State} {t : Fin 8} {ra : Fin 16} {n : Nat}

theorem exec_fltw_of_canIssue {n : Fin 128} (h : canIssue s t) : exec (.fltw t ra n) s = .next (s.fltw t ra n.val) :=
  congrArg Host.Outcome.next (issue_of_canIssue s t _ h)

theorem State.fltw_of_bad_group (h : groupOk ra = false) : s.fltw t ra n = s.threadFault t fcIllegal := by
  rw [State.fltw, h]; rfl

theorem State.fltw_of_foreign (h : groupOk ra = true) (hn : (s.panFilters (s.thrPan t))[n]? = none) :
    s.fltw t ra n = s.threadFault t fcForeign := by
  simp only [State.fltw, h, hn]; rfl

theorem State.fltw_of_own {k : Fin 128} (h : groupOk ra = true) (hn : (s.panFilters (s.thrPan t))[n]? = some k.val) :
    s.fltw t ra n = (s.fltwWritten t ra k).advance t := by
  have hk : idx 128 k.val = k := Fin.ofNat_val_eq_self k
  simp only [State.fltw, h, hn, hk]
  rfl

end

/-! ### The statement -/

/-- Settles O43: the four words are checked together, then all are put in effect or all discarded. -/
theorem filtersApplyAsAWhole : Obligations.FiltersApplyAsAWhole := by
  unfold Obligations.FiltersApplyAsAWhole
  constructor
  · intro s p n k f v x
    refine ⟨fun hs hr => ?write, fun hr hready hsh hbad => ?parity, fun hr hready hgood y hy => ?checked, fun hready => ?idle⟩
    case write =>
      refine leads_filterCtl hs hr fun u hu => ?_
      rw [hu.flt, hu.mem]
      refine ⟨?_, fun j hj => ?_, ?_⟩
      · rw [State.updFlt_self, State.writing_eq]; rfl
      · rw [State.updFlt_of_ne _ _ _ hj, State.writing_eq]
      · exact State.writing_mem ..
    case parity =>
      have hflt := State.weedAll_of_bad hready hsh hbad
      have hself : (s.weedAll (fltShadows f)).flt[f] = x.clearShadow := by rw [hflt, tabUpd_get, if_pos rfl]
      refine leads_filterApply hr hready ?_
      rw [State.applyFilter_of_discarded (by rw [hself]; rfl), hself]
      refine ⟨rfl, rfl, rfl, rfl, rfl, fun j hj => ?_, State.weedAll_mem s f⟩
      rw [hflt, tabUpd_get_of_ne _ _ _ _ hj.symm]
    case checked =>
      subst hy
      refine ⟨fun h => leads_filterApply hr hready ?_, fun hform hbox hcap => leads_filterApply hr hready ?_,
        fun hform hbox hdest hcap => leads_filterApply hr hready ?_⟩
      · obtain ⟨hself, hmem⟩ := s.refused_flt f (s.fltOwner f) (s.lacksBridge f x.taken)
        rw [State.applyFilter_of_refused hready hgood (by tauto), hself]
        exact ⟨rfl, rfl, rfl, rfl, rfl, rfl, hmem⟩
      · have hflt := State.applyFilter_flt_of_accepted hready hgood hform hbox (State.lacksBridge_of_held hcap)
        refine ⟨?_, rfl, fun w hw => ?_, fun hw => ?_, rfl, rfl, rfl, fun j hj => ?_⟩
        · rw [hflt, tabUpd_get, if_pos rfl]
        · rw [Filter.taken_ctl, hw]; rfl
        · rw [Filter.taken_ctl, hw]; rfl
        · rw [hflt, tabUpd_get_of_ne _ _ _ _ hj.symm]
      · have hlack : s.lacksBridge f x.taken = true := by simp [State.lacksBridge, hdest, hcap]
        obtain ⟨hself, -⟩ := s.refused_flt f (s.fltOwner f) (s.lacksBridge f x.taken)
        rw [State.applyFilter_of_refused hready hgood (.inr (.inr hlack)), hself]
        refine ⟨rfl, ?_⟩
        rw [hlack]
        exact State.panFault_fault _ _ _ (by decide)
    case idle =>
      rw [exec_filterApply, hready, Bool.and_false]; rfl
  · intro s t ra n hi r named group
    refine ⟨fun hg => ?illegal, fun hg hn => ?foreign, fun hg k hk => ?fltw⟩
    case illegal =>
      rw [exec_fltw_of_canIssue hi, State.fltw_of_bad_group (Bool.eq_false_iff.2 (mt (groupOk_iff ra).1 hg))]
    case foreign =>
      rw [exec_fltw_of_canIssue hi, State.fltw_of_foreign ((groupOk_iff ra).2 hg) hn]
    case fltw =>
      obtain ⟨heng, hmem, hflt⟩ := s.fltwWritten_like t ra k
      refine ⟨(s.fltwWritten t ra k).advance t, ?_, ?_, fun j hj => ?_, ?_, hmem⟩
      · rw [exec_fltw_of_canIssue hi, State.fltw_of_own ((groupOk_iff ra).2 hg) hk]
      · show (s.fltwWritten t ra k).flt[k] = _
        rw [hflt, tabUpd_get, if_pos rfl]; rfl
      · show (s.fltwWritten t ra k).flt[j] = _
        rw [hflt, tabUpd_get_of_ne _ _ _ _ hj.symm]
      · rw [advance_thr_self, heng]

end Sys2Proof.Machine

/-! SUPPORT. What the operations around a delivery leave as it is: memory, filters, pans, bit times (chapters 3, 4, 10). -/

namespace Sys2Proof.Machine

/-! ### The settings that give bit times -/

/-- The settings on which the duration of a frame up to its evaluation depends (R68, R826). -/
def State.timing (s : State) : (Word × BitVec 3 × Word × Word) × Word :=
  ((s.line.plcCtl, s.line.plan, s.line.pairBt, s.line.pairDbt), s.tide.ctl)

theorem State.evalAt_congr {s u : State} (h : u.timing = s.timing) (port : LinePort) (f : Frame) (sof : Instant) :
    u.evalAt port f sof = s.evalAt port f sof := by
  simp only [State.timing, Prod.mk.injEq] at h
  obtain ⟨⟨hctl, hplan, hbt, hdbt⟩, htide⟩ := h
  have hcomp : u.compensated = s.compensated := by simp only [State.compensated, hctl, htide]
  have hfast : u.fastData = s.fastData := by simp only [State.fastData, State.drlim, hctl, hplan]
  have hta : u.ta = s.ta := by funext p; cases p <;> simp only [State.ta, hcomp, hbt]
  have htd : u.td = s.td := by funext p; cases p <;> simp only [State.td, hfast, hdbt]
  have htref : u.tref = s.tref := by funext p; cases p <;> simp only [State.tref, htd]
  have hiso : u.longestIso f = s.longestIso f := by simp only [State.longestIso, hta, htd]
  have hnat : u.nominalE port f = s.nominalE port f := by
    cases port <;> simp only [State.nominalE, State.toAckEnd, hta, htd, htref, hcomp]
  simp only [State.evalAt, hiso, hnat, hta]

/-! ### States in which a frame has the same takers and its copies the same places -/

/-- `u` has what decides in `s` which filters take a frame, and the memory and pans that its copies go into (but for TIDE_STAT.CFGERR
of a pan's tide view); a port that sends nothing still sends nothing. -/
structure Spares (s u : State) : Prop where
  mem : u.mem = s.mem
  flt : u.flt = s.flt
  alloc : u.alloc = s.alloc
  lock : u.sys.panLock = s.sys.panLock
  pan : ∀ n : Fin 4, ∃ b, u.pans[n] = { s.pans[n] with tideCfgErr := b }
  timing : u.timing = s.timing
  tx : ∀ p, (s.port p).tx = none → (u.port p).tx = none

namespace Spares

theorem refl (s : State) : Spares s s := ⟨rfl, rfl, rfl, rfl, fun _ => ⟨_, rfl⟩, rfl, fun _ => id⟩

theorem trans {s u v : State} (h : Spares s u) (k : Spares u v) : Spares s v where
  mem := k.mem.trans h.mem
  flt := k.flt.trans h.flt
  alloc := k.alloc.trans h.alloc
  lock := k.lock.trans h.lock
  pan n := by
    obtain ⟨b, hb⟩ := h.pan n
    obtain ⟨c, hc⟩ := k.pan n
    exact ⟨c, by rw [hc, hb]⟩
  timing := k.timing.trans h.timing
  tx p hp := k.tx p (h.tx p hp)

theorem ite {s t u : State} {c : Prop} [Decidable c] (ht : Spares s t) (hu : Spares s u) : Spares s (if c then t else u) := by
  split
  · exact ht
  · exact hu

theorem rxf {s u : State} (h : Spares s u) (n q : Fin 4) : u.rxf n q = s.rxf n q := by
  obtain ⟨b, hb⟩ := h.pan n
  rw [State.rxf, hb, State.rxf]

theorem panEn {s u : State} (h : Spares s u) (n : Fin 4) : u.panEn n = s.panEn n := by
  simp only [State.panEn, State.allocWord, h.lock, h.alloc]

theorem panFilters {s u : State} (h : Spares s u) (n : Fin 4) : u.panFilters n = s.panFilters n := by
  simp only [State.panFilters, owned, State.fltOwner, State.packOwner_congr h.lock h.alloc]

theorem ringSlots {s u : State} (h : Spares s u) (n : Fin 4) (base depth : Nat) :
    u.ringSlots n base depth = s.ringSlots n base depth := by
  simp only [State.ringSlots, State.slotGlobal, State.panUnits, owned, State.unitOwner, State.packOwner_congr h.lock h.alloc]

/-- The filters take a frame as before. -/
theorem takers {s u : State} (h : Spares s u) (port : LinePort) (f : Frame) (sof : Instant) :
    u.takers port f sof = s.takers port f sof := by
  have hbusy : ∀ n : Fin 4, u.pans[n].rstBusy = s.pans[n].rstBusy := fun n => by obtain ⟨b, hb⟩ := h.pan n; rw [hb]
  have hmissed : ∀ n : Fin 4, u.pans[n].missed sof = s.pans[n].missed sof := fun n => by
    obtain ⟨b, hb⟩ := h.pan n; rw [hb]; rfl
  simp only [State.takers, State.winners, State.winner, State.evalAt_congr h.timing, h.panEn, h.panFilters, h.flt, hbusy, hmissed]

end Spares

/-! ### Operations that spare the filters, the pans and memory -/

namespace State

variable (s : State)

theorem spares_updSys (f : Sys → Sys) (h : (f s.sys).panLock = s.sys.panLock) : Spares s (s.updSys f) :=
  ⟨rfl, rfl, rfl, h, fun _ => ⟨_, rfl⟩, rfl, fun _ => id⟩

theorem spares_updTide (f : Tide → Tide) (h : (f s.tide).ctl = s.tide.ctl) : Spares s (s.updTide f) :=
  ⟨rfl, rfl, rfl, rfl, fun _ => ⟨_, rfl⟩, congrArg (Prod.mk _) h, fun _ => id⟩

theorem spares_updLine (f : Line → Line) (h : (s.updLine f).timing = s.timing) (hplc : (f s.line).plc = s.line.plc)
    (hpair : (f s.line).pair = s.line.pair) : Spares s (s.updLine f) where
  mem := rfl
  flt := rfl
  alloc := rfl
  lock := rfl
  pan _ := ⟨_, rfl⟩
  timing := h
  tx p hp := by
    cases p with
    | plc => exact (congrArg PortState.tx hplc).trans hp
    | pair => exact (congrArg PortState.tx hpair).trans hp

theorem spares_updPort (port : LinePort) (f : PortState → PortState) (h : (s.port port).tx = none → (f (s.port port)).tx = none) :
    Spares s (s.updPort port f) where
  mem := State.updPort_mem ..
  flt := State.updPort_flt ..
  alloc := State.updPort_alloc ..
  lock := by rw [State.updPort_sys]
  pan n := by rw [State.updPort_pans]; exact ⟨_, rfl⟩
  timing := by cases port <;> rfl
  tx p hp := by
    by_cases hne : port = p
    · subst hne
      rw [State.updPort_port_self]
      exact h hp
    · rw [State.updPort_port_of_ne _ _ _ _ hne]
      exact hp

theorem spares_takeFree : Spares s s.takeFree := ⟨rfl, rfl, rfl, rfl, fun _ => ⟨_, rfl⟩, rfl, fun _ => id⟩

/-- The lines as they are read: an arrival leaves every port. -/
@[simp] theorem arrive_port (k : Nat) (p : LinePort) : (s.arrive k).port p = s.port p := by
  cases p <;> simp only [State.port, State.arrive_line]

theorem spares_arrive (k : Nat) : Spares s (s.arrive k) where
  mem := s.arrive_mem k
  flt := s.arrive_flt k
  alloc := s.arrive_alloc k
  lock := by rw [s.arrive_sys]
  pan n := by rw [s.arrive_pans]; exact ⟨_, rfl⟩
  timing := by simp only [State.timing, s.arrive_line, s.arrive_tide]
  tx p := by rw [s.arrive_port]; exact id

@[simp] theorem settle_port (p : LinePort) : s.settle.port p = s.port p := by
  cases p
  · exact s.settle_line_plc
  · exact s.settle_line_pair

theorem spares_settle : Spares s s.settle where
  mem := s.settle_mem
  flt := s.settle_flt
  alloc := s.settle_alloc
  lock := s.settle_sys_panLock
  pan n := by rw [s.settle_pans]; exact ⟨_, rfl⟩
  timing := by simp [State.timing]
  tx p := by rw [s.settle_port]; exact id

theorem spares_weed {key : ShKey} (h : ∀ u : State, Spares u (u.dropShadow key)) : Spares s (s.weed key) := by
  unfold State.weed
  split
  · exact .refl s
  · dsimp only
    exact .ite (((s.spares_updSys _ rfl).trans (h _)).trans (spares_updSys _ _ rfl)) (s.spares_updSys _ rfl)

theorem spares_tideRefused (via : Via) : Spares s (s.tideRefused via) := by
  cases via with
  | sys => exact s.spares_updTide (fun t => { t with cfgErr := true }) rfl
  | win n =>
    refine ⟨rfl, rfl, rfl, rfl, fun m => ?_, rfl, fun _ => id⟩
    rw [State.tideRefused, State.updPan_pans, tabUpd_get]
    split
    · subst_vars; exact ⟨true, rfl⟩
    · exact ⟨_, rfl⟩

theorem spares_applyRate : Spares s s.applyRate := by
  refine (s.spares_weed fun u => u.spares_updTide (fun t => { t with rateSh := none }) rfl : Spares s (s.weed .rate)).trans ?_
  unfold State.applyRate
  dsimp only
  split
  · exact .refl _
  · exact .ite (spares_updTide _ _ rfl) ((spares_updTide _ _ rfl).trans (spares_tideRefused _ _))

theorem spares_applyPeriod : Spares s s.applyPeriod := by
  refine (s.spares_weed fun u => u.spares_updTide (fun t => { t with periodSh := none }) rfl : Spares s (s.weed .period)).trans ?_
  unfold State.applyPeriod
  dsimp only
  split
  · exact .refl _
  · exact .ite (spares_updTide _ _ rfl) ((spares_updTide _ _ rfl).trans (spares_tideRefused _ _))

theorem spares_leaveString : Spares s s.leaveString := by
  have h := ((s.spares_updTide (fun t =>
    { t.silent with lock := .free, heardAny := false, listening := false, lastTracked := none, heard := none
                    untracked := if t.lastTracked.isSome then some s.now.ticks else t.untracked }) rfl).trans
    (spares_applyRate _)).trans (spares_applyPeriod _)
  exact h.trans (.ite (.refl _) (spares_arrive _ _))

theorem spares_portDown (port : LinePort) : Spares s (s.portDown port) := by
  have h := s.spares_updPort port (fun x =>
    { x with use := .idle, closing := false, waitNext := false, sofHold := none, justSent := false }) id
  exact h.trans (.ite (.refl _) (spares_leaveString _))

theorem spares_lineIdle (port : LinePort) : Spares s (s.lineIdle port) :=
  .ite (s.spares_portDown port) (s.spares_updPort port _ id)

theorem spares_putAnswer (port : LinePort) (a : Answer) : Spares s (s.putAnswer port a) := s.spares_updPort port _ id

/-! ### Counts (R146-R148) -/

theorem spares_setConf (port : LinePort) (c : Confinement) : Spares s (s.setConf port c) :=
  .ite (.refl s) ((s.spares_updPort port (fun x => { x with conf := c }) id).trans (spares_arrive _ _))

section
variable {s} {port : LinePort} (h : (s.port port).tx = none)
include h

/-- A port that sends nothing enters Quarantine. -/
theorem spares_enterQuarantine (now : Nat) : Spares s (s.enterQuarantine port now) := by
  have h1 := s.spares_updPort port (fun x =>
    { (x.guardEntry now).1 with qcnt := 0, rejoin := false, commits := [], justSent := false }) id
  have h2 := h1.trans (.ite (c := ((s.port port).guardEntry now).2 = true) (spares_arrive _ 12) (.refl _))
  unfold State.enterQuarantine
  simp only [h]
  refine (h2.trans (.ite ?_ (.refl _))).trans (spares_setConf _ _ _)
  exact ((spares_updTide _ _ rfl).trans (spares_applyRate _)).trans (spares_applyPeriod _)

theorem spares_follow (now : Nat) : Spares s (s.follow port now) :=
  .ite (.refl s) (.ite (spares_enterQuarantine h now) (.ite (s.spares_setConf ..) (s.spares_setConf ..)))

theorem spares_addCount (dTec dRec : Int) : Spares s (s.addCount port dTec dRec) := by
  have hc := s.spares_updPort port (fun x => x.counted ⟨dTec, dRec⟩) id
  exact .ite (.refl s) (.ite (.ite (.refl s) (.ite (s.spares_updPort port _ id) (hc.trans (spares_follow (hc.tx port h) _))))
    (s.spares_updPort port _ id))

theorem spares_addCounts (dTec dRec : Int) (n : Nat) : Spares s (s.addCounts port dTec dRec n) := by
  induction n generalizing s with
  | zero => exact .refl s
  | succ n ih =>
    have h1 := spares_addCount h dTec dRec
    exact h1.trans (ih (h1.tx port h))

theorem spares_recValid : Spares s (s.recValid port) :=
  .ite ((spares_addCount h _ _).trans (spares_takeFree _)) (spares_addCount h _ _)

/-- The counts of an error at a receiver. -/
theorem spares_errorCounts (first delim : Nat) (sg : Signalling) : Spares s (s.errorCounts port false first delim sg) := by
  have add : ∀ {u : State} (k m : Nat), Spares s u → Spares s (u.addCounts port 0 k m) := fun k m hu =>
    hu.trans (spares_addCounts (hu.tx port h) _ _ _)
  exact add _ _ (add _ _ (add _ _ (add _ _ (.refl s))))

theorem spares_ifsError (after : Option Signalling) : Spares s (s.ifsError port false after) := by
  cases after with
  | none => exact .refl s
  | some sg =>
    have h1 := s.spares_updPort port (fun x => { x with answer := { x.answer with flag := s.flags port } }) id
    exact h1.trans (spares_errorCounts (h1.tx port h) _ _ _)

end

/-! ### Flags and the margin of a valid frame -/

theorem spares_frameFlags (f : Frame) : Spares s (s.frameFlags f) := by
  have hbad : ∀ c : Bool, Spares s (if c then (s.updLine fun l => { l with c0fmt := true }).arrive 14 else s) := fun c =>
    .ite ((s.spares_updLine _ rfl rfl rfl).trans (spares_arrive _ _)) (.refl s)
  exact .ite (.refl s) (.ite (((hbad _).trans (spares_updLine _ _ rfl rfl rfl)).trans (spares_arrive _ _)) (hbad _))

theorem spares_putPred : Spares s s.putPred :=
  .ite (s.spares_updLine _ rfl rfl rfl) ((s.spares_updLine _ rfl rfl rfl).trans (spares_takeFree _))

theorem spares_putMargin (rx : Byte) : Spares s (s.putMargin rx) :=
  (s.spares_updLine _ rfl rfl rfl).trans (spares_putPred _)

end State

end Sys2Proof.Machine

/-! SUPPORT. What a reception puts on its port: the answer and the count changes that wait (chapter 4). -/

namespace Sys2Proof.Machine

namespace State

/-! ### The copies of a frame leave the line -/

variable (s : State)

theorem port_congr {s u : State} (h : u.line = s.line) (p : LinePort) : u.port p = s.port p := by
  cases p <;> simp only [State.port, h]

@[simp] theorem putSlotWords_line (g w : Nat) (vs : List Word) : (s.putSlotWords g w vs).line = s.line := by
  induction vs generalizing s w with
  | nil => rfl
  | cons v vs ih => exact ih _ _

@[simp] theorem deliverSlot_line (n : Fin 4) (g : Nat) (f : Frame) (d : Delivery) (w2 : Word) :
    (s.deliverSlot n g f d w2).line = s.line := putSlotWords_line _ _ _ _

@[simp] theorem arriveOwn_line (n : Fin 4) (k : Nat) : (s.arriveOwn n k).line = s.line :=
  (apply_ite State.line _ _ _).trans (by rw [State.arrive_line, ite_self])

@[simp] theorem fifoEvent_line (n q : Fin 4) : (s.fifoEvent n q).line = s.line := by
  rw [State.fifoEvent, State.settleWaits_line, apply_ite State.line, State.arriveOwn_line, ite_self]

@[simp] theorem deliverFifo_line (n q : Fin 4) (f : Frame) (d : Delivery) : (s.deliverFifo n q f d).2.line = s.line := by
  unfold State.deliverFifo
  dsimp only
  split
  · rfl
  · split
    · simp [State.updRxf]
    · split <;> simp [State.updRxf]

@[simp] theorem putMailbox_line (n : Fin 4) (g : Nat) (f : Frame) (d : Delivery) : (s.putMailbox n g f d).line = s.line := by
  have h := fun w2 => s.deliverSlot_line n g f d w2
  exact (apply_ite State.line _ _ _).trans (by simp only [State.passSlot, State.putSlotWord, h, ite_self])

@[simp] theorem deliverMailbox_line (n : Fin 4) (g : Nat) (f : Frame) (d : Delivery) : (s.deliverMailbox n g f d).line = s.line :=
  (apply_ite State.line _ _ _).trans (by rw [State.mapHosts_line, State.putMailbox_line, ite_self])

@[simp] theorem hitFilter_line (k : Fin 128) : (s.hitFilter k).line = s.line := rfl
@[simp] theorem dropFilter_line (k : Fin 128) : (s.dropFilter k).line = s.line := rfl

@[simp] theorem deliver_line (port : LinePort) (f : Frame) (sof : Instant) (brg : Bool) (n : Fin 4) (k : Fin 128) :
    (s.deliver port f sof brg n k).line = s.line := by
  unfold State.deliver
  dsimp only
  split
  · split <;> simp
  · split <;> simp
  · split <;> simp
  · rfl

@[simp] theorem bridgeDrop_port (out p : LinePort) : (s.bridgeDrop out).port p = s.port p :=
  (State.arrive_port _ _ _).trans (by cases p <;> rfl)

/-- A forward is queued or counted as dropped: the ports stay. -/
@[simp] theorem forward_port (port p : LinePort) (f : Frame) : (s.forward port f).2.port p = s.port p := by
  unfold State.forward
  dsimp only
  split
  · rfl
  · split
    · rfl
    · split
      · exact s.bridgeDrop_port _ _
      · rw [State.bridgeDrop_port]
        exact port_congr (s.panFault_line ..) p
      · split
        · exact s.bridgeDrop_port _ _
        · cases port <;> cases p <;> rfl

@[simp] theorem deliverAll_port (port p : LinePort) (f : Frame) (sof : Instant) :
    (s.deliverAll port f sof).port p = s.port p := by
  unfold State.deliverAll
  dsimp only
  rw [foldl_keeps (fun u : State => u.port p) _ fun u _ => port_congr (u.deliver_line ..) p]
  split
  · exact s.forward_port ..
  · rfl

/-! ### What follows the delivery leaves the answer and the waiting count changes -/

@[simp] theorem frameFlags_port (f : Frame) (p : LinePort) : (s.frameFlags f).port p = s.port p := by
  have hline : ∀ (u : State) (g : Line → Line) (k : Nat), (g u.line).plc = u.line.plc → (g u.line).pair = u.line.pair →
      ((u.updLine g).arrive k).port p = u.port p := fun u g k hplc hpair => by
    rw [State.arrive_port]
    cases p
    · exact hplc
    · exact hpair
  unfold State.frameFlags
  dsimp only
  split_ifs
  · rfl
  · rw [hline _ _ _ rfl rfl, hline _ _ _ rfl rfl]
  · rw [hline _ _ _ rfl rfl]
  · rw [hline _ _ _ rfl rfl]
  · rfl

@[simp] theorem putPred_port (p : LinePort) : s.putPred.port p = s.port p := by
  unfold State.putPred
  dsimp only
  split <;> cases p <;> rfl

@[simp] theorem putMargin_port (rx : Byte) (p : LinePort) : (s.putMargin rx).port p = s.port p :=
  (State.putPred_port _ p).trans (by cases p <;> rfl)

@[simp] theorem putAnswer_portIso (port p : LinePort) (a : Answer) : (s.putAnswer port a).portIso p = s.portIso p := by
  cases port <;> rfl

@[simp] theorem putAnswer_busOff (port p : LinePort) (a : Answer) : (s.putAnswer port a).busOff p = s.busOff p := by
  cases port <;> cases p <;> rfl

/-- What the port drove of its answer, and the count changes that wait for their commit (R138, R146). -/
def driven (port : LinePort) : Answer × List CountChange := ((s.port port).answer, (s.port port).commits)

theorem driven_congr {s u : State} {port : LinePort} (h : u.port port = s.port port) : u.driven port = s.driven port := by
  simp only [State.driven, h]

theorem weed_line_of_tide {key : ShKey} (h : ∀ u : State, (u.dropShadow key).line = u.line) : (s.weed key).line = s.line := by
  unfold State.weed
  split
  · rfl
  · split
    · exact h _
    · rfl

@[simp] theorem tideRefused_line (via : Via) : (s.tideRefused via).line = s.line := by cases via <;> rfl

@[simp] theorem applyRate_line : s.applyRate.line = s.line := by
  have h : (s.weed .rate).line = s.line := s.weed_line_of_tide fun _ => rfl
  unfold State.applyRate
  dsimp only
  split
  · exact h
  · split <;> simp [h]

@[simp] theorem applyPeriod_line : s.applyPeriod.line = s.line := by
  have h : (s.weed .period).line = s.line := s.weed_line_of_tide fun _ => rfl
  unfold State.applyPeriod
  dsimp only
  split
  · exact h
  · split <;> simp [h]

@[simp] theorem leaveString_line : s.leaveString.line = s.line := by
  simp [State.leaveString, apply_ite State.line]

@[simp] theorem lineIdle_driven (port : LinePort) : (s.lineIdle port).driven port = s.driven port := by
  have hport : ∀ f : PortState → PortState, (f (s.port port)).answer = (s.port port).answer →
      (f (s.port port)).commits = (s.port port).commits → (s.updPort port f).driven port = s.driven port := fun f ha hc => by
    rw [State.driven, State.updPort_port_self, ha, hc, State.driven]
  unfold State.lineIdle State.portDown
  dsimp only
  split_ifs
  · exact hport _ rfl rfl
  · exact (driven_congr (port_congr (leaveString_line _) port)).trans (hport _ rfl rfl)
  · exact hport _ rfl rfl

@[simp] theorem settle_driven (port : LinePort) : s.settle.driven port = s.driven port := driven_congr (s.settle_port port)

/-! ### Count changes of a native port (R146) -/

section
variable {s} {port : LinePort} (hn : s.portIso port = false) (hb : s.busOff port = false)

@[simp] theorem updPort_updPort (f g : PortState → PortState) :
    (s.updPort port f).updPort port g = s.updPort port fun x => g (f x) := by
  cases port <;> rfl

/-- Count changes put behind those that wait. -/
def waitCounts (s : State) (port : LinePort) (cs : List CountChange) : State :=
  s.updPort port fun x => { x with commits := x.commits ++ cs }

theorem waitCounts_nil : s.waitCounts port [] = s := by
  cases port <;> simp [State.waitCounts, State.updPort, State.updLine]

theorem waitCounts_waitCounts (cs ds : List CountChange) :
    (s.waitCounts port cs).waitCounts port ds = s.waitCounts port (cs ++ ds) := by
  simp [State.waitCounts, List.append_assoc]

theorem portIso_waitCounts (cs : List CountChange) : (s.waitCounts port cs).portIso port = s.portIso port := by
  cases port <;> rfl

theorem busOff_waitCounts (cs : List CountChange) : (s.waitCounts port cs).busOff port = s.busOff port := by
  cases port <;> rfl

include hn hb

theorem addCount_of_native {a b : Int} (h : a ≠ 0 ∨ b ≠ 0) : s.addCount port a b = s.waitCounts port [⟨a, b⟩] := by
  have hz : (a == 0 && b == 0) = false := by
    rcases h with h | h <;> simp [h]
  simp only [State.addCount, hb, hz, hn, Bool.or_self, Bool.false_eq_true, if_false]
  rfl

theorem addCounts_of_native {a b : Int} (h : a ≠ 0 ∨ b ≠ 0) (n : Nat) :
    s.addCounts port a b n = s.waitCounts port (List.replicate n ⟨a, b⟩) := by
  induction n generalizing s with
  | zero => exact waitCounts_nil.symm
  | succ n ih =>
    rw [State.addCounts, addCount_of_native hn hb h, ih (by rw [portIso_waitCounts, hn]) (by rw [busOff_waitCounts, hb]),
      waitCounts_waitCounts, List.replicate_succ, List.singleton_append]

/-- The count events of Table 4-3 at a receiver, in their order. -/
theorem errorCounts_of_native {first : Nat} (hf : first ≠ 0) (sg : Signalling) :
    s.errorCounts port false first 1 sg =
      s.waitCounts port ([⟨0, first⟩] ++ List.replicate (if s.flags port then min sg.flags (sg.delim + 1) else 0) ⟨0, 8⟩ ++
        List.replicate sg.runs ⟨0, 8⟩ ++ List.replicate sg.delim ⟨0, 1⟩) := by
  have add : ∀ (cs : List CountChange) {k : Nat} (m : Nat), k ≠ 0 →
      (s.waitCounts port cs).addCounts port 0 k m = s.waitCounts port (cs ++ List.replicate m ⟨0, k⟩) := fun cs k m hk => by
    rw [addCounts_of_native (by rw [portIso_waitCounts, hn]) (by rw [busOff_waitCounts, hb]) (.inr (by exact_mod_cast hk)),
      waitCounts_waitCounts]
  have hfirst : s.addCounts port 0 first 1 = s.waitCounts port [⟨0, first⟩] :=
    addCounts_of_native hn hb (.inr (by exact_mod_cast hf)) 1
  simp only [State.errorCounts, Bool.false_eq_true, if_false]
  rw [hfirst, add _ _ (by decide), add _ _ (by decide), add _ _ (by decide)]
  rfl

end

end State

end Sys2Proof.Machine

/-! SUPPORT. A frame written into a slot and read back, and a FIFO with a free slot (chapter 9). -/

namespace Sys2Proof.Machine

/-! ### Fields of a word put together -/

theorem getLsbD_field (lo v : Nat) {i : Nat} (hi : i < 32) : (field lo v).getLsbD i = (decide (lo ≤ i) && v.testBit (i - lo)) := by
  rw [field, BitVec.getLsbD_ofNat, Nat.testBit_shiftLeft]
  simp [hi]

theorem getLsbD_flag (k : Nat) (b : Bool) {i : Nat} (hi : i < 32) : (flag k b).getLsbD i = (b && decide (k = i)) := by
  cases b
  · simp [flag]
  · rw [flag, if_pos rfl, BitVec.getLsbD_ofNat, Nat.one_shiftLeft, Nat.testBit_two_pow]
    simp [hi]

/-- RMT of a frame's W0. -/
theorem bitOf_w0_rmt (f : Frame) : bitOf f.w0 30 = f.rmt := by
  have hid : f.id.toNat.testBit 30 = false := BitVec.getLsbD_of_ge f.id 30 (by decide)
  have h30 : 30 < 32 := by decide
  simp only [bitOf, Frame.w0, BitVec.getLsbD_or, getLsbD_field _ _ h30, getLsbD_flag _ _ h30, Nat.sub_zero, hid]
  simp

/-- LEN of a frame's W1. -/
theorem bitsOf_w1_len (f : Frame) (rlim : Nat) : bitsOf (f.w1 rlim) 0 7 = f.len % 128 := by
  refine Nat.eq_of_testBit_eq fun i => ?_
  rw [testBit_bitsOf]
  by_cases hi : i < 7
  · have hlow : ∀ k : Nat, 7 ≤ k → decide (k ≤ i) = false ∧ decide (k = i) = false := fun k hk => by
      simp; omega
    have hi32 : i < 32 := by omega
    simp only [Nat.zero_add, Frame.w1, BitVec.getLsbD_or, getLsbD_field _ _ hi32, getLsbD_flag _ _ hi32, (hlow 7 (by decide)).2,
      (hlow 8 (by decide)).1, (hlow 12 (by decide)).2, (hlow 13 (by decide)).2, (hlow 14 (by decide)).2,
      (hlow 15 (by decide)).2, (hlow 16 (by decide)).1, hi]
    simp
  · have hlt : f.len % 128 < 2 ^ i :=
      calc f.len % 128 < 2 ^ 7 := Nat.mod_lt _ (by decide)
        _ ≤ 2 ^ i := Nat.pow_le_pow_right (by decide) (Nat.le_of_not_lt hi)
    simp [hi, Nat.testBit_lt_two_pow hlt]

/-! ### Data bytes as words and back -/

theorem bytesOfWord_wordOfBytes (bs : List Byte) : bytesOfWord (wordOfBytes bs) = (List.range 4).map fun j => bs[j]?.getD 0 := by
  have hbyte : ∀ a b c d : Byte, bytesOfWord (a ++ b ++ c ++ d) = [d, c, b, a] := fun a b c d => by
    have h0 : (a ++ b ++ c ++ d).extractLsb' 0 8 = d := BitVec.extractLsb'_append_eq_right
    have h1 : (a ++ b ++ c ++ d).extractLsb' 8 8 = c :=
      (BitVec.extractLsb'_append_eq_of_le (by decide)).trans BitVec.extractLsb'_append_eq_right
    have h2 : (a ++ b ++ c ++ d).extractLsb' 16 8 = b :=
      (BitVec.extractLsb'_append_eq_of_le (by decide)).trans
        ((BitVec.extractLsb'_append_eq_of_le (by decide)).trans BitVec.extractLsb'_append_eq_right)
    have h3 : (a ++ b ++ c ++ d).extractLsb' 24 8 = a :=
      (BitVec.extractLsb'_append_eq_of_le (by decide)).trans
        ((BitVec.extractLsb'_append_eq_of_le (by decide)).trans BitVec.extractLsb'_append_eq_left)
    rw [bytesOfWord, h0, h1, h2, h3]
  exact hbyte _ _ _ _

/-- Groups of four, one after the other. -/
theorem flatMap_range_four {α : Type} (d : Nat → α) (n : Nat) :
    ((List.range n).flatMap fun k => (List.range 4).map fun j => d (4 * k + j)) = (List.range (4 * n)).map d := by
  induction n with
  | zero => rfl
  | succ n ih =>
    rw [List.range_succ (n := n), List.flatMap_append, ih, Nat.mul_succ, List.range_add, List.map_append, List.map_map,
      List.flatMap_singleton]
    rfl

/-- The data words read as the data, zeros behind it. -/
theorem flatMap_bytesOfWord_wordsOfBytes (bs : List Byte) (n : Nat) :
    (wordsOfBytes bs n).flatMap bytesOfWord = (List.range (4 * n)).map fun i => bs[i]?.getD 0 := by
  rw [← flatMap_range_four, wordsOfBytes, List.flatMap_map]
  refine List.flatMap_congr fun k _ => ?_
  simp only [bytesOfWord_wordOfBytes, List.getElem?_drop]

theorem take_padded (bs : List Byte) {n : Nat} (h : bs.length ≤ n) :
    ((List.range n).map fun i => bs[i]?.getD 0).take bs.length = bs := by
  refine List.ext_getElem (by simp [h]) fun i hi hi' => ?_
  simp [hi']

/-! ### The words of a slot (Table 9-2) -/

section
variable (s : State) (g : Nat)

/-- Words put into a slot from word `w` on leave the words below it. -/
theorem State.slotWord_putSlotWords_below {w k : Nat} (vs : List Word) (hk : k < w) (hw : w + vs.length ≤ 24) :
    (s.putSlotWords g w vs).slotWord g k = s.slotWord g k := by
  induction vs generalizing s w with
  | nil => rfl
  | cons v vs ih =>
    rw [List.length_cons] at hw
    rw [State.putSlotWords, ih _ (by omega) (by omega)]
    exact s.slotWord_putSlotWord_of_ne v (by omega) (by omega) (.inr (by omega))

/-- They read as they were put. -/
theorem State.slotWord_putSlotWords {w k : Nat} {vs : List Word} (hw : w + vs.length ≤ 24) (hk : k < vs.length) :
    (s.putSlotWords g w vs).slotWord g (w + k) = vs[k] := by
  induction vs generalizing s w k with
  | nil => exact absurd hk (Nat.not_lt_zero k)
  | cons v vs ih =>
    rw [List.length_cons] at hw hk
    rw [State.putSlotWords]
    cases k with
    | zero =>
      rw [State.slotWord_putSlotWords_below _ _ _ (by omega) (by omega), Nat.add_zero, State.slotWord_putSlotWord]
      rfl
    | succ k =>
      rw [show w + (k + 1) = w + 1 + k by omega, ih _ (by omega) (by omega)]
      rfl

@[simp] theorem State.putSlotWords_pans (w : Nat) (vs : List Word) : (s.putSlotWords g w vs).pans = s.pans := by
  induction vs generalizing s w with
  | nil => rfl
  | cons v vs ih => exact ih _ _

end

section
variable (s : State) (n : Fin 4) (g : Nat) (f : Frame) (d : Delivery) (w2 : Word)

@[simp] theorem State.deliverSlot_pans : (s.deliverSlot n g f d w2).pans = s.pans := State.putSlotWords_pans ..

@[simp] theorem State.fifoEvent_pans (q : Fin 4) : (s.fifoEvent n q).pans = s.pans := by
  rw [State.fifoEvent, State.settleWaits_pans, apply_ite State.pans, State.arriveOwn_pans, ite_self]

@[simp] theorem State.arriveOwn_mem (k : Nat) : (s.arriveOwn n k).mem = s.mem :=
  (apply_ite State.mem _ _ _).trans (by rw [State.arrive_mem, ite_self])

@[simp] theorem State.fifoEvent_mem (q : Fin 4) : (s.fifoEvent n q).mem = s.mem := by
  rw [State.fifoEvent, State.settleWaits_mem, apply_ite State.mem, State.arriveOwn_mem, ite_self]

/-- The words of a slot filled as a delivered frame. -/
def State.deliveredWords : List Word :=
  [f.w0, f.w1 0, w2 ||| field 14 ownLine ||| flag 10 (d.port == .pair) ||| field 16 s.pans[n].gen.toNat, field 0 d.sof.tick.toNat,
    d.sof.sec, 0, 0, field 0 d.flt ||| flag 8 d.brg] ++ wordsOfBytes f.data 16

theorem State.deliverSlot_eq : s.deliverSlot n g f d w2 = s.putSlotWords g 0 (s.deliveredWords n f d w2) := rfl

theorem State.slotFrame_congr {s u : State} (h : u.mem = s.mem) (g : Nat) : u.slotFrame g = s.slotFrame g := by
  simp only [State.slotFrame, State.slotBytes, State.slotWord_congr h]

/-- A delivered frame with at most 64 data bytes reads back with its LEN and its data. -/
theorem State.slotFrame_deliverSlot (hr : f.rmt = false) (hl : f.len ≤ 64) (hd : f.data.length = f.len) :
    ((s.deliverSlot n g f d w2).slotFrame g).data = f.data ∧ ((s.deliverSlot n g f d w2).slotFrame g).len = f.len := by
  have hword : ∀ {k : Nat} {v : Word}, (s.deliveredWords n f d w2)[k]? = some v →
      (s.deliverSlot n g f d w2).slotWord g k = v := fun {k v} hv => by
    obtain ⟨hk, rfl⟩ := List.getElem?_eq_some_iff.1 hv
    rw [State.deliverSlot_eq, ← s.slotWord_putSlotWords g (w := 0) (by simp [State.deliveredWords, wordsOfBytes]) hk, Nat.zero_add]
  have hw0 := hword (k := 0) (v := f.w0) rfl
  have hw1 := hword (k := 1) (v := f.w1 0) rfl
  have hdata : (s.deliverSlot n g f d w2).slotBytes g 8 16 = (wordsOfBytes f.data 16).flatMap bytesOfWord := by
    rw [State.slotBytes, wordsOfBytes, List.flatMap_map]
    refine List.flatMap_congr fun k hk => ?_
    rw [hword (v := wordOfBytes (f.data.drop (4 * k)))]
    rw [State.deliveredWords, List.getElem?_append_right (by simp)]
    simp [wordsOfBytes, List.mem_range.1 hk]
  have hmin : min 64 (f.len % 128) = f.len := by omega
  simp only [State.slotFrame, hw0, hw1, bitOf_w0_rmt, hr, bitsOf_w1_len, hmin, hdata, Bool.false_eq_true, if_false, and_true]
  rw [flatMap_bytesOfWord_wordsOfBytes, ← hd]
  exact take_padded _ (by omega)

end

/-- A native frame in the form a wire carries it has as many data bytes as its LEN, up to 64. -/
theorem Frame.native_of_norm {f : Frame} (hf : f.norm = f) (hi : f.iso = false) (hl : f.len ≤ 64) :
    f.rmt = false ∧ f.data.length = f.len := by
  rw [Frame.norm, if_neg (by simp [hi])] at hf
  have hdata := congrArg (fun x => x.data.length) hf
  refine ⟨(congrArg Frame.rmt hf).symm, hdata.symm.trans ?_⟩
  simp only [takeBytes, List.length_take, List.length_append, List.length_replicate]
  omega

/-! ### A FIFO with a free slot (R356) -/

/-- Some slot is chosen where one is free. -/
theorem State.pickSlot_of_mem (s : State) {free : List Nat} {g : Nat} (h : g ∈ free) :
    ∃ x ∈ free, s.pickSlot free = some x := by
  match free, h with
  | [x], _ => exact ⟨x, List.mem_singleton_self x, rfl⟩
  | x :: y :: l, _ =>
    have hlt : (Config.freeWord s.free).toNat % (l.length + 2) < (x :: y :: l).length := Nat.mod_lt _ (by omega)
    exact ⟨(x :: y :: l)[(Config.freeWord s.free).toNat % (l.length + 2)], List.getElem_mem hlt, List.getElem?_eq_getElem hlt⟩

/-- A frame put into slot `g` of a FIFO's ring, behind the frames there. -/
def State.fifoDelivered (s : State) (n q : Fin 4) (g : Nat) (f : Frame) (d : Delivery) : State :=
  ((s.takeFree.deliverSlot n g f d 0).updRxf n q fun rx => { rx with frames := rx.frames ++ [g] }).fifoEvent n q

section
variable (s : State) (n q : Fin 4) (g : Nat) (f : Frame) (d : Delivery)

theorem State.fifoDelivered_frames : ((s.fifoDelivered n q g f d).rxf n q).frames = (s.rxf n q).frames ++ [g] := by
  have hpans : (s.takeFree.deliverSlot n g f d 0).pans = s.pans := State.deliverSlot_pans ..
  rw [State.fifoDelivered, State.rxf_congr (State.fifoEvent_pans ..), State.updRxf_rxf, State.rxf_congr hpans]

theorem State.fifoDelivered_slotFrame (hr : f.rmt = false) (hl : f.len ≤ 64) (hd : f.data.length = f.len) :
    ((s.fifoDelivered n q g f d).slotFrame g).data = f.data ∧ ((s.fifoDelivered n q g f d).slotFrame g).len = f.len := by
  rw [State.fifoDelivered, State.slotFrame_congr ((State.fifoEvent_mem ..).trans (State.updRxf_mem ..))]
  exact State.slotFrame_deliverSlot _ n g f d 0 hr hl hd

end

/-- A FIFO with a free slot takes the frame into one. -/
theorem State.deliverFifo_of_free {s : State} {n q : Fin 4} (f : Frame) (d : Delivery) (hen : (s.rxf n q).en = true)
    (hfree : ∃ g, g ∈ s.ringSlots n (s.rxf n q).base (s.rxf n q).depth ∧ g ∉ (s.rxf n q).frames) :
    ∃ g, g ∈ s.ringSlots n (s.rxf n q).base (s.rxf n q).depth ∧ g ∉ (s.rxf n q).frames ∧
      s.deliverFifo n q f d = (true, s.fifoDelivered n q g f d) := by
  obtain ⟨x, hring, hx⟩ := hfree
  obtain ⟨g, hg, hpick⟩ := s.pickSlot_of_mem (free := (s.ringSlots n (s.rxf n q).base (s.rxf n q).depth).filter fun g =>
    !(s.rxf n q).frames.contains g) (List.mem_filter.2 ⟨hring, by simpa using hx⟩)
  obtain ⟨hgring, hgfree⟩ := List.mem_filter.1 hg
  refine ⟨g, hgring, by simpa using hgfree, ?_⟩
  simp only [State.deliverFifo, hen, hpick, Bool.not_true, Bool.false_eq_true, if_false]
  rfl

end Sys2Proof.Machine

/-! SUPPORT. How a reception ends on its port and in the pans (chapters 3, 4, 10), and the proof of their statement. -/

namespace Sys2Proof.Machine

open Sys2Proof.Safety

/-! ### Traffic ends a LISTEN request and changes nothing else (R777) -/

section
variable (s : State) (port : LinePort)

theorem State.hearsTraffic_eq :
    s.hearsTraffic port = { s with pow := { s.pow with req := (s.hearsTraffic port).pow.req } } := by
  unfold State.hearsTraffic State.endRequest State.updPow
  split
  · dsimp only
    split <;> rfl
  · rfl

@[simp] theorem State.hearsTraffic_line : (s.hearsTraffic port).line = s.line := by rw [State.hearsTraffic_eq]
@[simp] theorem State.hearsTraffic_mem : (s.hearsTraffic port).mem = s.mem := by rw [State.hearsTraffic_eq]
@[simp] theorem State.hearsTraffic_pans : (s.hearsTraffic port).pans = s.pans := by rw [State.hearsTraffic_eq]
@[simp] theorem State.hearsTraffic_tide : (s.hearsTraffic port).tide = s.tide := by rw [State.hearsTraffic_eq]
@[simp] theorem State.hearsTraffic_flt : (s.hearsTraffic port).flt = s.flt := by rw [State.hearsTraffic_eq]

variable (p : LinePort)

@[simp] theorem State.hearsTraffic_port : (s.hearsTraffic port).port p = s.port p := State.port_congr (s.hearsTraffic_line port) p
@[simp] theorem State.hearsTraffic_takes : (s.hearsTraffic port).takes p = s.takes p := by rw [State.hearsTraffic_eq]; rfl
@[simp] theorem State.hearsTraffic_portIso : (s.hearsTraffic port).portIso p = s.portIso p := by rw [State.hearsTraffic_eq]; rfl
@[simp] theorem State.hearsTraffic_busOff : (s.hearsTraffic port).busOff p = s.busOff p := by rw [State.hearsTraffic_eq]; rfl
@[simp] theorem State.hearsTraffic_answers : (s.hearsTraffic port).answers p = s.answers p := by rw [State.hearsTraffic_eq]; rfl
@[simp] theorem State.hearsTraffic_flags : (s.hearsTraffic port).flags p = s.flags p := by rw [State.hearsTraffic_eq]; rfl
@[simp] theorem State.hearsTraffic_formError (f : Frame) : (s.hearsTraffic port).formError f = s.formError f := by
  rw [State.hearsTraffic_eq]; rfl
@[simp] theorem State.hearsTraffic_evalAt (f : Frame) (i : Instant) : (s.hearsTraffic port).evalAt p f i = s.evalAt p f i := by
  rw [State.hearsTraffic_eq]; rfl
@[simp] theorem State.hearsTraffic_takers (f : Frame) (i : Instant) : (s.hearsTraffic port).takers p f i = s.takers p f i := by
  rw [State.hearsTraffic_eq]; rfl
@[simp] theorem State.hearsTraffic_rollChip (f : Frame) (i : Instant) : (s.hearsTraffic port).rollChip p f i = s.rollChip p f i := by
  rw [State.hearsTraffic_eq]; rfl
@[simp] theorem State.hearsTraffic_ringSlots (n : Fin 4) (base depth : Nat) :
    (s.hearsTraffic port).ringSlots n base depth = s.ringSlots n base depth := by rw [State.hearsTraffic_eq]; rfl
@[simp] theorem State.hearsTraffic_rxf (n q : Fin 4) : (s.hearsTraffic port).rxf n q = s.rxf n q :=
  State.rxf_congr (s.hearsTraffic_pans port) n q

end

/-- A frame in the form a wire carries it is received as it is. -/
theorem exec_receiveFrame_of_norm {f : Frame} (hf : f.norm = f) (port : LinePort) (i : Instant) (m : Byte) (e : RxEnd) (s : State) :
    exec (.receiveFrame port f i m e) s = .next ((s.hearsTraffic port).receive port f i m e) := by
  show Host.Outcome.next ((s.hearsTraffic port).receive port f.norm i m e) = _
  rw [hf]

theorem leads_receiveFrame {f : Frame} (hf : f.norm = f) {port : LinePort} {i : Instant} {m : Byte} {e : RxEnd} {s : State}
    {P : State → Prop} (hP : P ((s.hearsTraffic port).receive port f i m e)) : Leads (.receiveFrame port f i m e) s P :=
  ⟨_, exec_receiveFrame_of_norm hf port i m e s, hP⟩

/-! ### How a reception ends (R106, Table 3-14) -/

section
variable {s : State} {port : LinePort} {f : Frame} {i : Instant} {m : Byte}

theorem State.receive_of_untaken (h : s.takes port = false ∨ f.iso ≠ s.portIso port) (e : RxEnd) :
    s.receive port f i m e = s := by
  refine if_pos ?_
  rcases h with h | h <;> simp [h]

theorem State.rxEnd_of_formError {x : RxErr} (h : s.formError f = some x) (after : Option Signalling) :
    s.rxEnd f (.valid after) = s.rxEnd f (.error x (after.getD ⟨0, 0, 0⟩)) := by
  simp only [State.rxEnd, h, ite_self]

theorem State.receive_of_formError {x : RxErr} (h : s.formError f = some x) (after : Option Signalling) :
    s.receive port f i m (.valid after) = s.receive port f i m (.error x (after.getD ⟨0, 0, 0⟩)) := by
  rw [State.receive, State.receive, State.rxEnd_of_formError h]

variable (ht : s.takes port = true)
include ht

theorem State.tx_of_takes : (s.port port).tx = none := by
  simp only [State.takes, Bool.and_eq_true] at ht
  exact Option.isNone_iff_eq_none.1 ht.1.2

variable (hi : f.iso = s.portIso port) (hform : s.formError f = none)
include hi hform

theorem State.receive_valid (after : Option Signalling) :
    s.receive port f i m (.valid after) = s.receiveValid port f i m after := by
  simp [State.receive, State.rxEnd, ht, hi, hform]

theorem State.receive_error {x : RxErr} (sg : Signalling) (hx : x ≠ .ackBit ∨ s.answers port = true) :
    s.receive port f i m (.error x sg) = s.receiveError port f i x sg := by
  cases x <;> simp_all [State.receive, State.rxEnd]

theorem State.receive_ackBit_of_silent (sg : Signalling) (ha : s.answers port = false) :
    s.receive port f i m (.error .ackBit sg) = s := by
  simp [State.receive, State.rxEnd, ht, hi, hform, ha]

end

/-- A native frame without a form error has a LEN of at most 64. -/
theorem State.len_of_formError {s : State} {f : Frame} (hi : f.iso = false) (h : s.formError f = none) : f.len ≤ 64 := by
  by_contra hlen
  simp [State.formError, hi, Nat.lt_of_not_le hlen] at h

/-! ### A valid frame (R106, R381) -/

/-- A port with its answer to a valid frame and the count of it. -/
def State.validHeard (s : State) (port : LinePort) (f : Frame) (i : Instant) : State :=
  (s.putAnswer port ⟨s.answers port, false, s.rollChip port f i, none⟩).recValid port

/-- What a valid frame does after its delivery, from the state `t` that the delivery left. -/
def State.validEnd (s t : State) (port : LinePort) (f : Frame) (m : Byte) (after : Option Signalling) : State :=
  (((if s.keeperFrame port f then (t.frameFlags f).putMargin m else t.frameFlags f).ifsError port false after).lineIdle port).settle

section
variable {s : State} {port : LinePort} {f : Frame} {i : Instant} {m : Byte}

theorem State.receiveValid_eq (after : Option Signalling) :
    s.receiveValid port f i m after = s.validEnd ((s.validHeard port f i).deliverAll port f i) port f m after := rfl

theorem State.spares_validHeard (h : (s.port port).tx = none) : Spares s (s.validHeard port f i) := by
  have h1 := s.spares_putAnswer port ⟨s.answers port, false, s.rollChip port f i, none⟩
  exact h1.trans (State.spares_recValid (h1.tx port h))

theorem State.spares_validEnd {t : State} (h : (t.port port).tx = none) (after : Option Signalling) :
    Spares t (s.validEnd t port f m after) := by
  have h1 : Spares t (if s.keeperFrame port f then (t.frameFlags f).putMargin m else t.frameFlags f) :=
    .ite ((t.spares_frameFlags f).trans (State.spares_putMargin _ m)) (t.spares_frameFlags f)
  have h2 := h1.trans (State.spares_ifsError (h1.tx port h) after)
  exact (h2.trans (State.spares_lineIdle _ port)).trans (State.spares_settle _)

theorem State.validEnd_driven (t : State) : (s.validEnd t port f m none).driven port = t.driven port := by
  have h : (if s.keeperFrame port f then (t.frameFlags f).putMargin m else t.frameFlags f).driven port = t.driven port :=
    State.driven_congr (by split <;> simp)
  rw [State.validEnd, State.settle_driven, State.lineIdle_driven]
  exact h

/-- What a native port that is not bus-off drives and counts in a valid frame (Table 4-3). -/
theorem State.receiveValid_driven (hn : s.portIso port = false) (hb : s.busOff port = false) :
    (s.receiveValid port f i m none).driven port =
      (⟨s.answers port, false, s.rollChip port f i, none⟩, (s.port port).commits ++ [⟨0, -1⟩]) := by
  have hn' : ∀ a, (s.putAnswer port a).portIso port = false := fun a => (s.putAnswer_portIso port port a).trans hn
  have hb' : ∀ a, (s.putAnswer port a).busOff port = false := fun a => (s.putAnswer_busOff port port a).trans hb
  rw [State.receiveValid_eq, State.validEnd_driven, State.driven_congr (State.deliverAll_port ..), State.validHeard, State.recValid,
    hn', Bool.false_and, if_neg Bool.false_ne_true, State.addCount_of_native (hn' _) (hb' _) (.inr (by decide))]
  simp [State.driven, State.waitCounts, State.putAnswer]

/-! ### Delivery (R378, R381) -/

theorem State.deliverAll_of_no_takers (h : s.takers port f i = []) : s.deliverAll port f i = s := by
  simp [State.deliverAll, h]

section
variable {n q : Fin 4} {k : Fin 128} (hd : (s.flt[k].asOf (s.evalAt port f i)).dest = 1)
include hd

theorem State.deliverAll_of_one (h : s.takers port f i = [(n, k)]) : s.deliverAll port f i = s.deliver port f i false n k := by
  unfold State.deliverAll
  simp only [h, List.any_cons, List.any_nil, hd, List.foldl_cons, List.foldl_nil]
  rfl

/-- The copy of a filter for a FIFO with a free slot goes into one. -/
theorem State.deliver_of_free (hq : (s.flt[k].asOf (s.evalAt port f i)).tgt = q.val) (hen : (s.rxf n q).en = true)
    (hfree : ∃ g, g ∈ s.ringSlots n (s.rxf n q).base (s.rxf n q).depth ∧ g ∉ (s.rxf n q).frames) :
    ∃ (g : Nat) (d : Delivery), g ∈ s.ringSlots n (s.rxf n q).base (s.rxf n q).depth ∧ g ∉ (s.rxf n q).frames ∧
      s.deliver port f i false n k = (s.hitFilter k).fifoDelivered n q g f d := by
  obtain ⟨g, hring, hnot, hdel⟩ :=
    State.deliverFifo_of_free (s := s.hitFilter k) f ⟨port, i, localNo s.fltOwner k, false⟩ hen hfree
  have hq' : idx 4 (s.flt[k].asOf (s.evalAt port f i)).tgt = q := by rw [hq]; exact Fin.ofNat_val_eq_self q
  refine ⟨g, ⟨port, i, localNo s.fltOwner k, false⟩, hring, hnot, ?_⟩
  simp only [State.deliver, hd, hq', hdel, if_true]

/-- A valid frame that one filter takes for a FIFO with a free slot stands behind the frames there; the slot holds its data. -/
theorem State.receiveValid_fifo (htx : (s.port port).tx = none) (h : s.takers port f i = [(n, k)])
    (hq : (s.flt[k].asOf (s.evalAt port f i)).tgt = q.val) (hen : (s.rxf n q).en = true)
    (hfree : ∃ g, g ∈ s.ringSlots n (s.rxf n q).base (s.rxf n q).depth ∧ g ∉ (s.rxf n q).frames) (after : Option Signalling) :
    let u := s.receiveValid port f i m after
    ∃ g, (u.rxf n q).frames = (s.rxf n q).frames ++ [g] ∧ g ∈ s.ringSlots n (s.rxf n q).base (s.rxf n q).depth ∧
      g ∉ (s.rxf n q).frames ∧ (f.rmt = false → f.len ≤ 64 → f.data.length = f.len →
        (u.slotFrame g).data = f.data ∧ (u.slotFrame g).len = f.len) := by
  have hheard := State.spares_validHeard (f := f) (i := i) htx
  have hrxf := hheard.rxf n q
  have htakers := (hheard.takers port f i).trans h
  rw [← hheard.flt, ← State.evalAt_congr hheard.timing] at hd hq
  rw [← hrxf, ← hheard.ringSlots] at hfree
  rw [← hrxf] at hen
  obtain ⟨g, d, hg, hnot, hdel⟩ := State.deliver_of_free hd hq hen hfree
  rw [hheard.ringSlots, hrxf] at hg
  rw [hrxf] at hnot
  have hall := (State.deliverAll_of_one hd htakers).trans hdel
  have hend := State.spares_validEnd (s := s) (f := f) (m := m) (t := (s.validHeard port f i).deliverAll port f i)
    (by rw [State.deliverAll_port]; exact hheard.tx port htx) after
  rw [hall] at hend
  rw [State.receiveValid_eq, hall]
  refine ⟨g, ?_, hg, hnot, fun hr hl hlen => ?_⟩
  · rw [hend.rxf, State.fifoDelivered_frames, ← hrxf]
    rfl
  · rw [State.slotFrame_congr hend.mem]
    exact State.fifoDelivered_slotFrame _ n q g f d hr hl hlen

end

end

/-! ### An error (R138, Table 4-3) -/

section
variable {s : State} {port : LinePort} {f : Frame} {i : Instant}

/-- What a port answers with is no part of what it may drive. -/
theorem State.putAnswer_flags (s : State) (port : LinePort) (a : Answer) : (s.putAnswer port a).flags port = s.flags port := by
  have hoff : (s.putAnswer port a).busOff = s.busOff := funext fun p => s.putAnswer_busOff port p a
  have hon : (s.putAnswer port a).portOn = s.portOn := by funext p; cases port <;> cases p <;> rfl
  have hiso : (s.putAnswer port a).portIso = s.portIso := funext fun p => s.putAnswer_portIso port p a
  have hstring : (s.putAnswer port a).stringPort = s.stringPort := by cases port <;> rfl
  have hsynced : (s.putAnswer port a).synced = s.synced := by cases port <;> rfl
  have htide : (s.putAnswer port a).tide = s.tide := State.updPort_tide ..
  have hslu : (s.putAnswer port a).slu = s.slu := State.updPort_slu ..
  have hlife : (s.putAnswer port a).lifeUnder = s.lifeUnder := by
    simp only [State.lifeUnder, hoff, hon, hiso, hstring, hsynced, htide, hslu]
  have hdrive : (s.putAnswer port a).canDrive = s.canDrive := by
    funext p
    simp only [State.canDrive, hoff, hon]
    cases port <;> rfl
  simp only [State.flags, State.answers, hdrive, hiso, hstring, hlife]
  cases port <;> rfl

theorem State.spares_receiveError (h : (s.port port).tx = none) (x : RxErr) (sg : Signalling) :
    Spares s (s.receiveError port f i x sg) := by
  have h1 := s.spares_putAnswer port (s.errorAnswer port f i x)
  have h2 := h1.trans (State.spares_errorCounts (h1.tx port h) (if s.portIso port then 1 else x.count) 1 sg)
  exact (h2.trans (State.spares_lineIdle _ port)).trans (State.spares_settle _)

/-- What a native port that is not bus-off drives and counts in a frame with an error. -/
theorem State.receiveError_driven (hn : s.portIso port = false) (hb : s.busOff port = false) (x : RxErr) (sg : Signalling) :
    (s.receiveError port f i x sg).driven port =
      (s.errorAnswer port f i x,
        (s.port port).commits ++ ([⟨0, x.count⟩] ++
          List.replicate (if s.flags port then min sg.flags (sg.delim + 1) else 0) ⟨0, 8⟩ ++ List.replicate sg.runs ⟨0, 8⟩ ++
            List.replicate sg.delim ⟨0, 1⟩)) := by
  have hn' := (s.putAnswer_portIso port port (s.errorAnswer port f i x)).trans hn
  have hb' := (s.putAnswer_busOff port port (s.errorAnswer port f i x)).trans hb
  have hx : x.count ≠ 0 := by cases x <;> decide
  rw [State.receiveError, State.settle_driven, State.lineIdle_driven, hn, if_neg Bool.false_ne_true,
    State.errorCounts_of_native hn' hb' hx, State.putAnswer_flags]
  simp [State.driven, State.waitCounts, State.putAnswer]

end

/-! ### The statement -/

/-- Settles O55: a reception ends unseen, as a form error, valid or with an error; what comes before and after the delivery of a valid
frame spares the filters, the pans and memory. -/
theorem receptions : Obligations.Receptions := by
  unfold Obligations.Receptions
  intro s port f i m hf
  refine ⟨fun h e => ?untaken, fun x after hx => ?form, fun ht hi hform => ?taken⟩
  case untaken =>
    refine leads_receiveFrame hf ?_
    rw [State.receive_of_untaken (by simpa using h)]
    simp
  case form =>
    rw [exec_receiveFrame_of_norm hf, exec_receiveFrame_of_norm hf, State.receive_of_formError (by simpa using hx)]
  case taken =>
    have htx : ((s.hearsTraffic port).port port).tx = none := by rw [State.hearsTraffic_port]; exact State.tx_of_takes ht
    replace ht : (s.hearsTraffic port).takes port = true := by rwa [State.hearsTraffic_takes]
    replace hi : f.iso = (s.hearsTraffic port).portIso port := by rwa [State.hearsTraffic_portIso]
    have hform' : (s.hearsTraffic port).formError f = none := by rwa [State.hearsTraffic_formError]
    refine ⟨fun after hno => leads_receiveFrame hf ?none, fun hn hb => leads_receiveFrame hf ?counted,
      fun n k q after hone hd hq hen hfree => leads_receiveFrame hf ?fifo, fun x sg hn hb hx => leads_receiveFrame hf ?error,
      fun sg ha => leads_receiveFrame hf ?silent⟩
    case none =>
      have hheard := State.spares_validHeard (f := f) (i := i) htx
      have hend := (State.spares_validEnd (s := s.hearsTraffic port) (f := f) (m := m) (hheard.tx port htx) after)
      rw [State.receive_valid ht hi hform', State.receiveValid_eq,
        State.deliverAll_of_no_takers (by rw [hheard.takers, State.hearsTraffic_takers, hno])]
      exact ⟨(hheard.trans hend).mem.trans (s.hearsTraffic_mem port), fun n q => by
        rw [(hheard.trans hend).rxf, State.hearsTraffic_rxf]⟩
    case counted =>
      have h := State.receiveValid_driven (s := s.hearsTraffic port) (f := f) (i := i) (m := m)
        (by simpa using hn) (by simpa using hb)
      rw [State.receive_valid ht hi hform']
      simpa [State.driven] using h
    case fifo =>
      obtain ⟨g, hframes, hg, hnot, hslot⟩ := State.receiveValid_fifo (s := s.hearsTraffic port) (m := m) (by simpa using hd) htx
        (by simpa using hone) (by simpa using hq) (by simpa using hen) (by simpa using hfree) after
      rw [State.receive_valid ht hi hform']
      simp only [State.hearsTraffic_rxf, State.hearsTraffic_ringSlots] at hframes hg hnot
      refine ⟨g, hframes, hg, hnot, fun hnative => ?_⟩
      have hlen := State.len_of_formError hnative hform
      obtain ⟨hr, hdata⟩ := Frame.native_of_norm hf hnative hlen
      exact hslot hr hlen hdata
    case error =>
      have h := State.receiveError_driven (s := s.hearsTraffic port) (f := f) (i := i) (by simpa using hn) (by simpa using hb) x sg
      have hmem := (State.spares_receiveError (f := f) (i := i) htx x sg).mem
      have hcount : ((x.count : Nat) : Int) = if x = .ackBit then 8 else 1 := by cases x <;> rfl
      rw [State.receive_error ht hi hform' sg (by simpa using hx)]
      simpa [State.driven, State.errorAnswer, hcount, hmem] using h
    case silent =>
      rw [State.receive_ackBit_of_silent ht hi hform' sg (by simpa using ha)]
      simp

end Sys2Proof.Machine

/-! SUPPORT. The millisecond's refill, the sealed windows, and the shadows of budget, rate and policy (chapters 8, 11, 19), and the proof
of their statement. -/

namespace Sys2Proof.Machine

open Sys2Proof.Safety

theorem mem_allPans (n : Fin 4) : n ∈ allPans := by fin_cases n <;> decide

/-! ### A pending budget (R323, R404) -/

section
variable (s : State) (n : Fin 4)

/-- The parity check of a budget leaves the allocation, and every pan but for the budget it discards; it adds no mismatch. -/
theorem State.weed_budget :
    (s.weed (.budget n)).alloc = s.alloc ∧ (∀ e ∈ (s.weed (.budget n)).sys.shBad, e ∈ s.sys.shBad) ∧
      ((s.weed (.budget n)).pans = s.pans ∨
        (s.weed (.budget n)).pans = tabUpd s.pans n fun p => { p with budgetSh := none }) := by
  unfold State.weed
  split
  · exact ⟨rfl, fun _ he => he, .inl rfl⟩
  · split
    · exact ⟨rfl, fun _ he => (List.mem_filter.1 he).1, .inr rfl⟩
    · exact ⟨rfl, fun _ he => (List.mem_filter.1 he).1, .inl rfl⟩

/-- What comes of a pan's budget after the check of its parity: nothing pending, or a value that no longer waits, refused or applied. -/
theorem State.applyBudget_outcome :
    let w := s.weed (.budget n)
    let taken := w.updPan n fun p => { p with budgetSh := none }
    (w.pans[n].budgetSh = none ∧ s.applyBudget n = w) ∨ s.applyBudget n = taken.panFault n fltAccess ∨
      ∃ b, s.applyBudget n = taken.updPan n fun p => { p with budget := b } := by
  unfold State.applyBudget
  dsimp only
  split
  next h => exact .inl ⟨h, rfl⟩
  next b _ =>
    split
    · exact .inr (.inl rfl)
    · exact .inr (.inr ⟨b, rfl⟩)

/-- The application of a pan's budget leaves the allocation and the other pans; it adds no parity mismatch. -/
theorem State.applyBudget_frame :
    (s.applyBudget n).alloc = s.alloc ∧ (∀ e ∈ (s.applyBudget n).sys.shBad, e ∈ s.sys.shBad) ∧
      ∀ m : Fin 4, n ≠ m → (s.applyBudget n).pans[m] = s.pans[m] := by
  obtain ⟨halloc, hbad, hpans⟩ := s.weed_budget n
  have hother : ∀ m : Fin 4, n ≠ m → (s.weed (.budget n)).pans[m] = s.pans[m] := fun m hm => by
    rcases hpans with h | h
    · rw [h]
    · rw [h, tabUpd_get_of_ne _ _ _ _ hm]
  rcases s.applyBudget_outcome n with ⟨-, h⟩ | h | ⟨b, h⟩ <;> rw [h]
  · exact ⟨halloc, hbad, hother⟩
  · refine ⟨(State.panFault_alloc ..).trans halloc, by rw [State.panFault_sys]; exact hbad, fun m hm => ?_⟩
    rw [State.panFault, State.arrive_pans, State.updPan_pans, tabUpd_get_of_ne _ _ _ _ hm, State.updPan_pans,
      tabUpd_get_of_ne _ _ _ _ hm, hother m hm]
  · refine ⟨halloc, hbad, fun m hm => ?_⟩
    rw [State.updPan_pans, tabUpd_get_of_ne _ _ _ _ hm, State.updPan_pans, tabUpd_get_of_ne _ _ _ _ hm, hother m hm]

/-- Whatever comes of a pending budget, it no longer waits. -/
theorem State.applyBudget_budgetSh : (s.applyBudget n).pans[n].budgetSh = none := by
  rcases s.applyBudget_outcome n with ⟨hnone, h⟩ | h | ⟨b, h⟩ <;> rw [h]
  · exact hnone
  · rw [State.panFault_pan_self, State.updPan_pans, tabUpd_get, if_pos rfl]
  · rw [State.updPan_pans, tabUpd_get, if_pos rfl, State.updPan_pans, tabUpd_get, if_pos rfl]

variable {s n}

/-- Without a pending budget the pan stays as it is. -/
theorem State.applyBudget_of_none (h : s.pans[n].budgetSh = none) : (s.applyBudget n).pans[n] = s.pans[n] := by
  have hpan : (s.weed (.budget n)).pans[n] = s.pans[n] := by
    obtain ⟨-, -, hw | hw⟩ := s.weed_budget n
    · rw [hw]
    · rw [hw, tabUpd_of_same _ _ _ (by rw [← h])]
  have happly : s.applyBudget n = s.weed (.budget n) := by
    unfold State.applyBudget
    simp only [hpan, h]
  rw [happly, hpan]

/-- The budget `b` is pending, its parity is good, and it is at or below the ceiling. -/
structure State.BudgetGood (s : State) (n : Fin 4) (b : Word) : Prop where
  pending : s.pans[n].budgetSh = some b
  parity : ∀ e ∈ s.sys.shBad, e.1 ≠ .budget n
  rate : bitsOf b 0 16 ≤ bitsOf (s.ceiling n) 0 16
  burst : bitsOf b 16 16 ≤ bitsOf (s.ceiling n) 16 16

/-- Such a budget applies as it stands. -/
theorem State.applyBudget_of_good {b : Word} (h : s.BudgetGood n b) :
    (s.applyBudget n).pans[n] = { s.pans[n] with budget := b, budgetSh := none } := by
  have happly : s.applyBudget n =
      (s.updPan n fun p => { p with budgetSh := none }).updPan n fun p => { p with budget := b } := by
    unfold State.applyBudget
    simp only [State.weed_of_good h.parity, h.pending]
    exact if_neg (not_or.2 ⟨Nat.not_lt.2 h.rate, Nat.not_lt.2 h.burst⟩)
  rw [happly, State.updPan_pans, tabUpd_get, if_pos rfl, State.updPan_pans, tabUpd_get, if_pos rfl]

end

/-! ### The buckets (R403, R404) -/

/-- A bucket filled with `gain` bytes, and no further than BURST. -/
def Pan.fill (p : Pan) (gain : Nat) : Pan := { p with token := BitVec.ofNat 16 (min p.burst (p.token.toNat + gain)) }

theorem Pan.fill_token (p : Pan) (gain : Nat) : (p.fill gain).token.toNat = min p.burst (p.token.toNat + gain) := by
  have hlt : p.burst < 2 ^ 16 := bitsOf_lt ..
  rw [Pan.fill, BitVec.toNat_ofNat, Nat.mod_eq_of_lt (by omega)]

/-- One pan at a millisecond boundary: the step of `State.millisecond`. -/
def State.tickPan (s : State) (n : Fin 4) : State := (s.applyBudget n).updPan n fun p => p.fill p.rate

theorem State.millisecond_eq (s : State) : s.millisecond = allPans.foldl State.tickPan s := rfl

theorem State.tickPan_self (s : State) (n : Fin 4) :
    (s.tickPan n).pans[n] = (s.applyBudget n).pans[n].fill (s.applyBudget n).pans[n].rate := by
  rw [State.tickPan, State.updPan_pans, tabUpd_get, if_pos rfl]

/-- `u` has pan `n` and the ceilings of `s`, and no parity mismatch that `s` has not. -/
structure AwaitsTick (s : State) (n : Fin 4) (u : State) : Prop where
  pan : u.pans[n] = s.pans[n]
  alloc : u.alloc = s.alloc
  bad : ∀ e ∈ u.sys.shBad, e ∈ s.sys.shBad

/-- The tick of one pan leaves every other pan to its own. -/
theorem State.tickPan_awaits (s : State) {m n : Fin 4} (h : m ≠ n) : AwaitsTick s n (s.tickPan m) := by
  obtain ⟨halloc, hbad, hother⟩ := s.applyBudget_frame m
  exact ⟨(tabUpd_get_of_ne _ _ _ _ h).trans (hother n h), halloc, hbad⟩

theorem State.foldl_tickPan_of_not_mem {n : Fin 4} (l : List (Fin 4)) (s : State) (h : n ∉ l) :
    (l.foldl State.tickPan s).pans[n] = s.pans[n] := by
  induction l generalizing s with
  | nil => rfl
  | cons m l ih =>
    obtain ⟨hm, hl⟩ := List.ne_and_not_mem_of_not_mem_cons h
    rw [List.foldl_cons, ih _ hl, (s.tickPan_awaits hm.symm).pan]

/-- Each of a list of pans ticks once, from a state in which its own tick is still to come. -/
theorem State.foldl_tickPan {n : Fin 4} (l : List (Fin 4)) (hl : l.Nodup) (hn : n ∈ l) (s : State) :
    ∃ u, AwaitsTick s n u ∧ (l.foldl State.tickPan s).pans[n] = (u.tickPan n).pans[n] := by
  induction l generalizing s with
  | nil => exact absurd hn List.not_mem_nil
  | cons m l ih =>
    obtain ⟨hm, hl⟩ := List.nodup_cons.1 hl
    by_cases h : m = n
    · subst h
      exact ⟨s, ⟨rfl, rfl, fun _ he => he⟩, State.foldl_tickPan_of_not_mem l _ hm⟩
    · obtain ⟨u, hu, heq⟩ := ih hl ((List.mem_cons.1 hn).resolve_left (Ne.symm h)) (s.tickPan m)
      have hs := s.tickPan_awaits h
      exact ⟨u, ⟨hu.pan.trans hs.pan, hu.alloc.trans hs.alloc, fun e he => hs.bad e (hu.bad e he)⟩, heq⟩

/-- A good budget is still good when its pan's tick comes. -/
theorem AwaitsTick.budgetGood {s u : State} {n : Fin 4} {b : Word} (h : AwaitsTick s n u) (hb : s.BudgetGood n b) :
    u.BudgetGood n b := by
  have hc : u.ceiling n = s.ceiling n := by rw [State.ceiling, State.allocWord, h.alloc]; rfl
  exact ⟨h.pan ▸ hb.pending, fun e he => hb.parity e (h.bad e he), hc ▸ hb.rate, hc ▸ hb.burst⟩

/-! ### The next window (R309) -/

/-- The first of a rising list that satisfies `p` is the least that does. -/
theorem find?_eq_some_of_least {l : List (Fin 4)} (hl : l.Pairwise (· < ·)) {p : Fin 4 → Bool} {n : Fin 4} (hn : n ∈ l)
    (hp : p n = true) (hleast : ∀ m ∈ l, p m = true → n ≤ m) : l.find? p = some n := by
  induction l with
  | nil => exact absurd hn List.not_mem_nil
  | cons m l ih =>
    obtain ⟨hm, hl⟩ := List.pairwise_cons.1 hl
    rcases List.mem_cons.1 hn with rfl | hn
    · exact List.find?_cons_of_pos hp
    · have hpm : ¬ p m = true := fun h => absurd (hleast m List.mem_cons_self h) (not_le.2 (hm n hn))
      rw [List.find?_cons_of_neg hpm]
      exact ih hl hn fun k hk => hleast k (List.mem_cons_of_mem _ hk)

/-- The first of a rising list is its least. -/
theorem headD_eq_of_least {l : List (Fin 4)} (hl : l.Pairwise (· < ·)) {n d : Fin 4} (hn : n ∈ l) (hleast : ∀ m ∈ l, n ≤ m) :
    l.headD d = n := by
  cases l with
  | nil => exact absurd hn List.not_mem_nil
  | cons m l =>
    rcases List.mem_cons.1 hn with rfl | hn
    · rfl
    · exact absurd (hleast m List.mem_cons_self) (not_le.2 ((List.pairwise_cons.1 hl).1 n hn))

section
variable (s : State)

/-- The pans with a window, in order. -/
def State.windowPans : List (Fin 4) := allPans.filter fun n => s.panEn n && s.windowOf n != 0

theorem State.nextWindow_eq :
    s.nextWindow = (s.windowPans.find? fun n => s.window < n).getD (s.windowPans.headD s.window) := rfl

theorem State.windowPans_rising : s.windowPans.Pairwise (· < ·) :=
  List.Pairwise.filter _ (by decide : allPans.Pairwise (· < ·))

theorem State.mem_windowPans (n : Fin 4) : n ∈ s.windowPans ↔ s.panEn n = true ∧ s.windowOf n ≠ 0 := by
  simp [State.windowPans, mem_allPans]

variable {s} {n : Fin 4} (he : s.panEn n = true) (hw : s.windowOf n ≠ 0)
include he hw

/-- The window passes to the least pan above the open one that has one. -/
theorem State.nextWindow_of_above (hn : s.window < n)
    (h : ∀ m, s.panEn m = true → s.windowOf m ≠ 0 → m = n ∨ m < n ∧ m ≤ s.window ∨ n < m) : s.nextWindow = n := by
  have hleast : ∀ m ∈ s.windowPans, decide (s.window < m) = true → n ≤ m := fun m hm hlt => by
    obtain ⟨hme, hmw⟩ := (s.mem_windowPans m).1 hm
    rcases h m hme hmw with rfl | ⟨-, hle⟩ | hlt'
    · exact le_rfl
    · exact absurd (of_decide_eq_true hlt) (not_lt.2 hle)
    · exact le_of_lt hlt'
  rw [State.nextWindow_eq,
    find?_eq_some_of_least s.windowPans_rising ((s.mem_windowPans n).2 ⟨he, hw⟩) (decide_eq_true hn) hleast]
  rfl

/-- With none above, it passes to the least that has one. -/
theorem State.nextWindow_of_last (h : ∀ m, s.panEn m = true → s.windowOf m ≠ 0 → n ≤ m ∧ m ≤ s.window) : s.nextWindow = n := by
  have hall : ∀ m ∈ s.windowPans, n ≤ m ∧ m ≤ s.window := fun m hm => by
    obtain ⟨hme, hmw⟩ := (s.mem_windowPans m).1 hm
    exact h m hme hmw
  have hnone : (s.windowPans.find? fun m => decide (s.window < m)) = none :=
    List.find?_eq_none.2 fun m hm => by simpa using (hall m hm).2
  rw [State.nextWindow_eq, hnone]
  exact headD_eq_of_least s.windowPans_rising ((s.mem_windowPans n).2 ⟨he, hw⟩) fun m hm => (hall m hm).1

end

/-! ### The commands -/

section
variable {s : State} (hr : s.coreRuns = true)
include hr

theorem leads_millisecondTick {P : State → Prop} (hP : P s.millisecond) : Leads .millisecondTick s P :=
  ⟨_, congrArg Host.Outcome.next (if_pos hr), hP⟩

theorem leads_sealedWindowBoundary {P : State → Prop} (hs : s.sealed = true)
    (hP : P { s with window := s.nextWindow, windowFrom := s.eng.tnow }) : Leads .sealedWindowBoundary s P :=
  ⟨_, congrArg Host.Outcome.next (if_pos (by rw [hr, hs]; rfl)), hP⟩

theorem leads_shadowApply {x : Shadow} {P : State → Prop} (hP : P (s.applyShadow x).settle) : Leads (.shadowApply x) s P :=
  ⟨_, congrArg Host.Outcome.next (if_pos hr), hP⟩

end

/-! ### Pending rates and policies (R200, R653) -/

/-- A pending rate with good parity, written through the system block, applies within 200 ppm and is refused beyond. -/
theorem State.applyRate_of_good {s : State} {r : Word} (hp : s.tide.rateSh = some r) (hvia : s.tide.rateVia = .sys)
    (hgood : ∀ e ∈ s.sys.shBad, e.1 ≠ .rate) :
    s.applyRate.tide =
      if rateOk r then { s.tide with rate := r, rateSh := none, rclamp := false }
      else { s.tide with rateSh := none, cfgErr := true } := by
  unfold State.applyRate
  simp only [State.weed_of_good hgood, hp, hvia, State.tideRefused, apply_ite State.tide, State.updTide_tide]

/-- A pending policy applies when FLOOR is at most CEIL and MASK names a plan, and is refused otherwise. -/
theorem Line.applyPolicy_of_pending {l : Line} {v : Word} (h : l.policySh = some v) :
    l.applyPolicy =
      if policyOk v then { l with policy := v, policySh := none } else { l with cfgErr := true, policySh := none } := by
  simp only [Line.applyPolicy, h, Line.refuse]

theorem State.applyShadow_policy {s : State} (hi : s.portIdle .plc = true) (hgood : ∀ e ∈ s.sys.shBad, e.1 ≠ .policy) :
    s.applyShadow .policy = s.updLine Line.applyPolicy := by
  simp only [State.applyShadow, hi, if_true, State.applyLine, State.weed_of_good hgood]

/-! ### The statement -/

/-- Settles O45: each pan's tick comes once and sees its budget as it stood, the window goes to the least pan that may have it, and a
shadow with good parity goes through its own check alone (a budget that applies by itself cuts TOK to its BURST, log 52). -/
theorem budgetsWindowsAndShadows : Obligations.BudgetsWindowsAndShadows := by
  unfold Obligations.BudgetsWindowsAndShadows
  intro s hr
  refine ⟨leads_millisecondTick hr fun n => ?tick,
    fun hs n he hw h hn => leads_sealedWindowBoundary hr hs ⟨State.nextWindow_of_above he hw hn h, rfl, rfl⟩,
    fun hs n he hw h => leads_sealedWindowBoundary hr hs ⟨State.nextWindow_of_last he hw h, rfl, rfl⟩,
    fun n b hp hgood hrate hburst => leads_shadowApply hr ?budget,
    fun r hp hvia hgood => leads_shadowApply hr ?rate, fun v hp hi hgood => leads_shadowApply hr ?policy⟩
  case tick =>
    obtain ⟨u, hu, heq⟩ := State.foldl_tickPan allPans (by decide) (mem_allPans n) s
    rw [State.millisecond_eq, heq, State.tickPan_self]
    refine ⟨u.applyBudget_budgetSh n, fun hnone => ?_, fun b hp hgood hrate hburst => ?_⟩
    · rw [Pan.fill_token, State.applyBudget_of_none (by rw [hu.pan, hnone]), hu.pan]
      exact ⟨rfl, rfl⟩
    · rw [Pan.fill_token, State.applyBudget_of_good (hu.budgetGood ⟨hp, hgood, hrate, hburst⟩), hu.pan]
      exact ⟨rfl, rfl⟩
  case budget =>
    have hpan : (s.applyShadow (.budget n)).settle.pans[n] = (s.applyBudget n).pans[n].fill 0 := by
      rw [State.settle_pans, State.applyShadow, State.updPan_pans, tabUpd_get, if_pos rfl]
      rfl
    rw [hpan, Pan.fill_token, State.applyBudget_of_good ⟨hp, hgood, hrate, hburst⟩]
    exact ⟨rfl, rfl, rfl⟩
  case rate =>
    rw [State.settle_tide, State.applyShadow, State.applyRate_of_good hp hvia hgood]
    by_cases h : -20000 ≤ r.toInt ∧ r.toInt ≤ 20000 <;> simp [rateOk, h]
  case policy =>
    rw [State.settle_line_policySh, State.settle_line_policy, State.settle_line_cfgErr, State.applyShadow_policy hi hgood,
      State.updLine_line, Line.applyPolicy_of_pending hp]
    by_cases h : bitsOf v 0 3 ≤ bitsOf v 4 3 ∧ bitsOf v 8 6 ≠ 0 <;> simp [policyOk, h]

end Sys2Proof.Machine

/-! SUPPORT. What a SOF opportunity launches and what the launch leaves: the port, the tokens, the round robin, tide time (chapters 5, 8, 9,
11). -/

namespace Sys2Proof.Machine

/-! ### Counts of holds and crossings (R407) -/

/-- `u` is `s` but for what the pans count at an opportunity: their tokens and queues are those of `s`. -/
structure Booked (s u : State) : Prop where
  eq : u = { s with pans := u.pans }
  token : ∀ n : Fin 4, u.pans[n].token = s.pans[n].token
  tq : ∀ n q : Fin 4, u.tq n q = s.tq n q

namespace Booked

theorem refl (s : State) : Booked s s := ⟨rfl, fun _ => rfl, fun _ _ => rfl⟩

theorem trans {s u v : State} (h : Booked s u) (k : Booked u v) : Booked s v :=
  ⟨by rw [k.eq, h.eq], fun n => (k.token n).trans (h.token n), fun n q => (k.tq n q).trans (h.tq n q)⟩

theorem updPan (s : State) (n : Fin 4) {f : Pan → Pan} (htoken : ∀ p, (f p).token = p.token) (htq : ∀ p, (f p).tq = p.tq) :
    Booked s (s.updPan n f) where
  eq := rfl
  token m := by
    rw [State.updPan_pans, tabUpd_get, apply_ite Pan.token, htoken, ite_self]
  tq m q := by
    have h : (s.updPan n f).pans[m].tq = s.pans[m].tq := by rw [State.updPan_pans, tabUpd_get, apply_ite Pan.tq, htq, ite_self]
    rw [State.tq, h, State.tq]

theorem foldl {α : Type} {f : State → α → State} (h : ∀ s x, Booked s (f s x)) (l : List α) (s : State) :
    Booked s (l.foldl f s) := by
  induction l generalizing s with
  | nil => exact .refl s
  | cons x l ih => exact (h s x).trans (ih _)

variable {s u : State} (h : Booked s u)
include h

theorem line : u.line = s.line := by rw [h.eq]
theorem tide : u.tide = s.tide := by rw [h.eq]
theorem mem : u.mem = s.mem := by rw [h.eq]
theorem port (p : LinePort) : u.port p = s.port p := State.port_congr h.line p
theorem now : u.now = s.now := by rw [State.now, h.tide, State.now]

theorem offers (p : LinePort) : u.offers p = s.offers p := by rw [h.eq]; rfl
theorem ownDue (p : LinePort) : u.ownDue p = s.ownDue p := by rw [h.eq]; rfl

theorem gaspSlot (p : LinePort) : u.gaspSlot p = s.gaspSlot p := by
  simp only [State.gaspSlot, h.tq]
  rw [h.eq]
  rfl

end Booked

theorem State.booked_noteHolds (s : State) (port : LinePort) : Booked s (s.noteHolds port) := by
  unfold State.noteHolds
  refine Booked.foldl (fun t n => ?_) _ s
  dsimp only
  split
  · exact Booked.updPan t n (fun _ => rfl) fun _ => rfl
  · exact .refl t

theorem State.booked_countXpan (s : State) (n : Fin 4) (able : List (Fin 4 × Candidate)) : Booked s (s.countXpan n able) := by
  unfold State.countXpan
  refine Booked.foldl (fun t c => ?_) able s
  split
  · exact .refl t
  · exact Booked.updPan t c.1 (fun _ => rfl) fun _ => rfl

/-! ### The frame made ready (R91, R110, R111) -/

section
variable (s : State) (g : Nat)

theorem State.putSlotWords_eq (w : Nat) (vs : List Word) :
    s.putSlotWords g w vs = { s with mem := (s.putSlotWords g w vs).mem } := by
  induction vs generalizing s w with
  | nil => rfl
  | cons v vs ih => exact ih _ _

/-- The address and the stamp go into the slot, and nothing else changes. -/
theorem State.prepare_eq : (s.prepare g).2 = { s with mem := (s.prepare g).2.mem } := by
  unfold State.prepare
  dsimp only
  generalize hs1 : (if bitOf (s.slotWord g 0) 31 then s else s.putSlotWord g 0 (putBits (s.slotWord g 0) 0 6 s.line.addr.toNat)) = s1
  have h1 : s1 = { s with mem := s1.mem } := by
    rw [← hs1]
    split <;> rfl
  split
  · rw [State.putSlotWords_eq, h1]
  · exact h1

theorem State.prepare_line : (s.prepare g).2.line = s.line := by rw [s.prepare_eq g]
theorem State.prepare_pans : (s.prepare g).2.pans = s.pans := by rw [s.prepare_eq g]
theorem State.prepare_tide : (s.prepare g).2.tide = s.tide := by rw [s.prepare_eq g]

end

/-! ### The frame put on the wire -/

/-- The port sends a frame of `k` that was launched at `i`. -/
def PortState.Launched (x : PortState) (k : TxSource) (i : Instant) : Prop :=
  x.use = .sending ∧ ∃ a : TxAttempt, x.tx = some a ∧ a.src = k ∧ a.sof = i

section
variable (s : State) (port : LinePort) (k : TxSource) (f : Frame) (gen : BitVec 16)

theorem State.putOnWire_port :
    (s.putOnWire port k f gen).port port =
      { s.port port with tx := some ⟨k, f, s.now, gen⟩, use := .sending, justSent := true } := State.updPort_port_self ..

@[simp] theorem State.putOnWire_pans : (s.putOnWire port k f gen).pans = s.pans := State.updPort_pans ..
@[simp] theorem State.putOnWire_tide : (s.putOnWire port k f gen).tide = s.tide := State.updPort_tide ..
@[simp] theorem State.putOnWire_rrLast : (s.putOnWire port k f gen).line.rrLast = s.line.rrLast := by cases port <;> rfl
@[simp] theorem State.putOnWire_soundOut : (s.putOnWire port k f gen).line.soundOut = s.line.soundOut := by cases port <;> rfl

theorem State.putOnWire_launched : ((s.putOnWire port k f gen).port port).Launched k s.now := by
  rw [State.putOnWire_port]
  exact ⟨rfl, _, rfl, rfl, rfl⟩

end

theorem State.wireItem_token (s : State) (n q : Fin 4) (g : Nat) (m : Fin 4) : (s.wireItem n q g).pans[m].token = s.pans[m].token := by
  rw [State.wireItem, State.updTq, State.updPan_pans, tabUpd_get, apply_ite Pan.token, ite_self]

/-! ### Launches (R308, R405, R406) -/

/-- The tokens that a pan pays are gone from its bucket. -/
theorem State.pay_token (s : State) (n : Fin 4) (f : Frame) :
    (s.pay n f).pans[n].token.toNat = s.pans[n].token.toNat - (f.len + 8) := by
  have hlt := s.pans[n].token.isLt
  rw [State.pay, State.updPan_pans, tabUpd_get, if_pos rfl, BitVec.toNat_ofNat, cost, Nat.mod_eq_of_lt (by omega)]

section
variable (s : State) (port : LinePort)

/-- A last-gasp frame goes out for P0 in the round robin, and no pan pays. -/
theorem State.launchGasp_spec (g : Nat) :
    let u := s.launchGasp port g
    (u.port port).Launched (.gasp g) s.now ∧ u.line.rrLast = 0 ∧ ∀ n : Fin 4, u.pans[n].token = s.pans[n].token := by
  have hb := s.booked_countXpan 0 (s.ableCands port)
  refine ⟨?_, rfl, fun n => ?_⟩
  · have h := State.putOnWire_launched ((((s.countXpan 0 (s.ableCands port)).prepare g).2).wireItem 0 3 g) port (.gasp g)
      ((s.countXpan 0 (s.ableCands port)).prepare g).1 s.pans[(0 : Fin 4)].gen
    have hnow : ((((s.countXpan 0 (s.ableCands port)).prepare g).2).wireItem 0 3 g).now = s.now := by
      rw [State.now, State.wireItem, State.updTq_tide, State.prepare_tide, hb.tide, State.now]
    rw [hnow] at h
    cases port <;> exact h
  · rw [State.launchGasp, State.updLine_pans, State.putOnWire_pans, State.wireItem_token, State.prepare_pans, hb.token]

/-- A pan's candidate is put on the wire from a state that has paid for it. -/
theorem State.launchCand_eq (n : Fin 4) (c : Candidate) :
    ∃ (v : State) (f : Frame), s.launchCand port n c = v.putOnWire port c.src f s.pans[n].gen ∧ v.now = s.now ∧ v.line.rrLast = n ∧
      v.pans[n].token = ((s.countXpan n (s.ableCands port)).pay n c.frame).pans[n].token := by
  have hb := s.booked_countXpan n (s.ableCands port)
  generalize hs1 : ((s.countXpan n (s.ableCands port)).pay n c.frame).updLine (fun l => { l with rrLast := n }) = s1
  have htide : s1.tide = s.tide := by rw [← hs1]; exact hb.tide
  have hrr : s1.line.rrLast = n := by rw [← hs1]; rfl
  have hpans : s1.pans = ((s.countXpan n (s.ableCands port)).pay n c.frame).pans := by rw [← hs1]; rfl
  have hnow : ∀ v : State, v.tide = s1.tide → v.now = s.now := fun v hv => by rw [State.now, hv, htide, State.now]
  unfold State.launchCand
  rw [hs1]
  obtain ⟨src, frame, rank⟩ := c
  cases src with
  | queue m q g =>
    refine ⟨_, _, rfl, hnow _ ?_, ?_, ?_⟩
    · rw [State.wireItem, State.updTq_tide, State.prepare_tide]
    · rw [State.wireItem, State.updTq_line, State.prepare_line, hrr]
    · rw [State.wireItem_token, State.prepare_pans, hpans]
  | fired g =>
    refine ⟨_, _, rfl, hnow _ (State.prepare_tide ..), ?_, ?_⟩
    · rw [State.prepare_line, hrr]
    · rw [State.prepare_pans, hpans]
  | tide | sound | bridge | gasp _ => exact ⟨s1, _, rfl, hnow s1 rfl, hrr, by rw [hpans]⟩

/-- A pan's candidate goes out for its pan in the round robin, and the pan pays LEN + 8 bytes. -/
theorem State.launchCand_spec (n : Fin 4) (c : Candidate) :
    let u := s.launchCand port n c
    (u.port port).Launched c.src s.now ∧ u.line.rrLast = n ∧
      u.pans[n].token.toNat = s.pans[n].token.toNat - (c.frame.len + 8) := by
  obtain ⟨v, f, heq, hnow, hrr, htoken⟩ := s.launchCand_eq port n c
  have hl := v.putOnWire_launched port c.src f s.pans[n].gen
  rw [hnow] at hl
  dsimp only
  rw [heq, State.putOnWire_rrLast, State.putOnWire_pans, htoken, State.pay_token, (s.booked_countXpan n (s.ableCands port)).token]
  exact ⟨hl, hrr, rfl⟩

/-- A SOUND result goes out as it waited, and waits no more. -/
theorem State.launchSound_spec (f : Frame) :
    let u := s.launchSound port f
    (u.port port).Launched .sound s.now ∧ u.line.soundOut = none ∧ (∀ a, (u.port port).tx = some a → a.frame = f) ∧
      u.line.rrLast = s.line.rrLast ∧ u.pans = s.pans := by
  refine ⟨State.putOnWire_launched .., State.putOnWire_soundOut .., fun a ha => ?_, State.putOnWire_rrLast ..,
    State.putOnWire_pans ..⟩
  rw [State.launchSound, State.putOnWire_port] at ha
  cases ha
  rfl

end

/-! ### The tide frame (R110, R117, R179) -/

theorem foldl_beBytes (v n a : Nat) :
    (beBytes v n).foldl (fun x b => 256 * x + b.toNat) a = a * 256 ^ n + v % 256 ^ n := by
  induction n generalizing a with
  | zero => simp [beBytes, Nat.mod_one]
  | succ n ih =>
    have hsplit : v % 256 ^ (n + 1) = v % 256 ^ n + 256 ^ n * (v / 256 ^ n % 256) := Nat.mod_pow_succ
    have hbyte : (BitVec.ofNat 8 (v >>> (8 * n))).toNat = v / 256 ^ n % 256 := by
      rw [BitVec.toNat_ofNat, Nat.shiftRight_eq_div_pow, Nat.pow_mul]
    rw [beBytes, List.foldl_cons, ih, hbyte, hsplit]
    ring

theorem beBytes_length (v n : Nat) : (beBytes v n).length = n := by
  induction n with
  | zero => rfl
  | succ n ih => rw [beBytes, List.length_cons, ih]

/-- A number among the data bytes, most significant byte first, reads as it was put. -/
theorem Frame.be_of_data {f : Frame} {pre : List Byte} {v n : Nat} (h : ∃ post, pre ++ beBytes v n ++ post = f.data)
    (hv : v < 256 ^ n) : f.be pre.length n = v := by
  obtain ⟨post, h⟩ := h
  have hbytes : (f.data.drop pre.length).take n = beBytes v n := by
    rw [← h, List.append_assoc, List.drop_left, List.take_left' (beBytes_length v n)]
  rw [Frame.be, hbytes, foldl_beBytes, Nat.zero_mul, Nat.zero_add, Nat.mod_eq_of_lt hv]

section
variable (s : State)

/-- A tide frame carries the controller's address and tide time now, as a stamp. -/
theorem State.tideFrame_spec :
    s.tideFrame.len = 16 ∧ s.tideFrame.stamp = true ∧ s.tideFrame.source = s.line.addr.toNat ∧
      s.tideFrame.be 0 4 = s.tide.sec.toNat ∧ s.tideFrame.be 4 4 = s.tide.tick.toNat := by
  have hstamp : ∃ post, beBytes s.tide.sec.toNat 4 ++ beBytes s.tide.tick.toNat 4 ++ post = s.tideFrame.data :=
    ⟨_, ((List.append_assoc _ _ _).trans (List.append_assoc _ _ _)).symm⟩
  have hsec : s.tideFrame.be 0 4 = s.tide.sec.toNat := by
    obtain ⟨post, hpost⟩ := hstamp
    exact Frame.be_of_data (pre := []) ⟨_, (List.append_assoc _ _ _).symm.trans hpost⟩ s.tide.sec.isLt
  have htick : s.tideFrame.be 4 4 = s.tide.tick.toNat :=
    Frame.be_of_data (pre := beBytes s.tide.sec.toNat 4) hstamp (Nat.lt_trans s.tide.tick.isLt (by decide))
  refine ⟨rfl, rfl, ?_, hsec, htick⟩
  have hlt := s.line.addr.isLt
  show bitsOf (s.line.addr.setWidth 29) 0 6 = _
  rw [bitsOf_zero, BitVec.toNat_setWidth]
  omega

theorem State.tideLaunched_frame :
    s.tideLaunched.now = s.now ∧ s.tideLaunched.tide.due = false ∧ s.tideLaunched.line.addr = s.line.addr ∧
      s.tideLaunched.line.rrLast = s.line.rrLast ∧ s.tideLaunched.pans = s.pans := by
  unfold State.tideLaunched
  dsimp only
  split <;> exact ⟨rfl, rfl, rfl, rfl, rfl⟩

/-- The tide frame goes out and is no longer due. -/
theorem State.launchTide_spec (port : LinePort) :
    let u := s.launchTide port
    (u.port port).Launched .tide s.now ∧ u.tide.due = false ∧
      (∀ a, (u.port port).tx = some a → a.frame.len = 16 ∧ a.frame.stamp = true ∧ a.frame.source = s.line.addr.toNat ∧
        a.frame.be 0 4 = s.tide.sec.toNat ∧ a.frame.be 4 4 = s.tide.tick.toNat) ∧
      u.line.rrLast = s.line.rrLast ∧ u.pans = s.pans := by
  obtain ⟨hnow, hdue, haddr, hrr, hpans⟩ := s.tideLaunched_frame
  obtain ⟨hlen, hstamp, hsource, hsec, htick⟩ := s.tideLaunched.tideFrame_spec
  have hport : (s.launchTide port).port port = (s.tideLaunched.putOnWire port .tide s.tideLaunched.tideFrame 0).port port := by
    cases port <;> rfl
  dsimp only
  rw [hport]
  refine ⟨hnow ▸ State.putOnWire_launched .., ?_, fun a ha => ?_, ?_, ?_⟩
  · rw [State.launchTide, State.takeFree_tide, State.putOnWire_tide, hdue]
  · rw [State.putOnWire_port] at ha
    cases ha
    exact ⟨hlen, hstamp, hsource.trans (congrArg BitVec.toNat haddr), hsec.trans (congrArg (fun i : Instant => i.sec.toNat) hnow),
      htick.trans (congrArg (fun i : Instant => i.tick.toNat) hnow)⟩
  · rw [State.launchTide, State.takeFree_line, State.putOnWire_rrLast, hrr]
  · rw [State.launchTide, State.takeFree_pans, State.putOnWire_pans, hpans]

end

end Sys2Proof.Machine

/-! SUPPORT. Which frame a SOF opportunity launches, and what is left when none goes out (chapters 4, 8, 11). -/

namespace Sys2Proof.Machine

open Sys2Proof.Safety

/-! ### The opportunity (R132, R399) -/

section
variable (s : State) (port : LinePort)

@[simp] theorem State.passFirst_line : (s.passFirst port).line = s.line := rfl
@[simp] theorem State.passFirst_pans : (s.passFirst port).pans = s.pans := rfl
@[simp] theorem State.passFirst_tide : (s.passFirst port).tide = s.tide := rfl
@[simp] theorem State.passFirst_mem : (s.passFirst port).mem = s.mem := rfl
@[simp] theorem State.passFirst_port (p : LinePort) : (s.passFirst port).port p = s.port p := by cases p <;> rfl

theorem exec_sofOpportunity : exec (.sofOpportunity port) s = .next (s.opportunity port).settle := rfl

variable {s port}

theorem State.opportunity_of_closed (h : s.canStart port = false ∨ s.coreRuns = false ∨ s.portEn port = false) :
    s.opportunity port = s := by
  refine if_pos ?_
  rcases h with h | h | h <;> simp [h]

/-- A port whose driver is off notes the holds and launches nothing. -/
theorem State.opportunity_of_undriven (h : s.canDrive port = false) :
    s.opportunity port = s ∨ s.opportunity port = (s.noteHolds port).passFirst port := by
  unfold State.opportunity
  split
  · exact .inl rfl
  · exact .inr (by simp [h])

/-- A port that can start and drive launches what R399 puts first. -/
theorem State.opportunity_of_driven (hs : s.canStart port = true) (hd : s.canDrive port = true) (he : s.portEn port = true) :
    s.opportunity port = ((s.noteHolds port).launchFirst port).passFirst port := by
  have hr : s.coreRuns = true := by
    simp only [State.canDrive, Bool.and_eq_true] at hd
    exact hd.1.1.1
  simp [State.opportunity, hs, hd, he, hr]

/-! ### The order of R399 -/

/-- The released last-gasp frame of a port that offers. -/
def State.offeredGasp (s : State) (port : LinePort) : Option Nat := if s.offers port then s.gaspSlot port else none

/-- The pans' choice on a port that offers. -/
def State.offeredCand (s : State) (port : LinePort) : Option (Fin 4 × Candidate) := if s.offers port then s.panChoice port else none

theorem State.launchFirst_of_gasp {g : Nat} (h : s.offeredGasp port = some g) : s.launchFirst port = s.launchGasp port g := by
  rw [State.offeredGasp] at h
  simp only [State.launchFirst, h]

variable (hg : s.offeredGasp port = none)
include hg

/-- The hardware's own frame is launched unless the pans' choice has the lower identifier. -/
theorem State.launchFirst_of_own {k : Nat} {o : Own} (ho : s.ownDue port = some (k, o))
    (hc : ∀ n c, s.offeredCand port = some (n, c) → k ≤ arbKey c.frame) : s.launchFirst port = s.launchOwn port o := by
  rw [State.offeredGasp] at hg
  rw [State.offeredCand] at hc
  cases hcand : (if s.offers port then s.panChoice port else none) with
  | none => simp only [State.launchFirst, hg, ho, hcand]
  | some x => simp only [State.launchFirst, hg, ho, hcand, if_neg (Nat.not_lt.2 (hc x.1 x.2 hcand))]

/-- The pans' choice is launched when its identifier is the lower one. -/
theorem State.launchFirst_of_cand {n : Fin 4} {c : Candidate} (hc : s.offeredCand port = some (n, c))
    (ho : ∀ k o, s.ownDue port = some (k, o) → arbKey c.frame < k) : s.launchFirst port = s.launchCand port n c := by
  rw [State.offeredGasp] at hg
  rw [State.offeredCand] at hc
  cases hown : s.ownDue port with
  | none => simp only [State.launchFirst, hg, hc, hown]
  | some x => simp only [State.launchFirst, hg, hc, hown, if_pos (ho x.1 x.2 hown)]

theorem State.launchFirst_of_nothing (hc : s.offeredCand port = none) (ho : s.ownDue port = none) : s.launchFirst port = s := by
  rw [State.offeredGasp] at hg
  rw [State.offeredCand] at hc
  simp only [State.launchFirst, hg, hc, ho]

end

/-- The holds that an opportunity notes leave the last-gasp frame that is offered. -/
theorem State.noteHolds_offeredGasp (s : State) (port : LinePort) : (s.noteHolds port).offeredGasp port = s.offeredGasp port := by
  have hb := s.booked_noteHolds port
  rw [State.offeredGasp, hb.offers, hb.gaspSlot, State.offeredGasp]

theorem State.noteHolds_offeredCand (s : State) (port : LinePort) :
    (s.noteHolds port).offeredCand port = if s.offers port then (s.noteHolds port).panChoice port else none := by
  rw [State.offeredCand, (s.booked_noteHolds port).offers]

/-! ### What a launch leaves to the end of its opportunity -/

/-- `v` has the port, the round robin, the SOUND slot, the pans, tide time and memory of `u`. -/
structure SameLaunch (port : LinePort) (u v : State) : Prop where
  port : v.port port = u.port port
  rrLast : v.line.rrLast = u.line.rrLast
  soundOut : v.line.soundOut = u.line.soundOut
  pans : v.pans = u.pans
  tide : v.tide = u.tide
  mem : v.mem = u.mem

theorem State.sameLaunch_end (u : State) (port : LinePort) : SameLaunch port u (u.passFirst port).settle where
  port := by rw [State.settle_port, State.passFirst_port]
  rrLast := by rw [State.settle_line_rrLast, State.passFirst_line]
  soundOut := by rw [State.settle_line_soundOut, State.passFirst_line]
  pans := by rw [State.settle_pans, State.passFirst_pans]
  tide := by rw [State.settle_tide, State.passFirst_tide]
  mem := by rw [State.settle_mem, State.passFirst_mem]

section
variable {s v : State} {port : LinePort} {P : State → Prop}

theorem leads_sofOpportunity (hs : s.canStart port = true) (hd : s.canDrive port = true) (he : s.portEn port = true)
    (hv : (s.noteHolds port).launchFirst port = v) (hP : ∀ u, SameLaunch port v u → P u) : Leads (.sofOpportunity port) s P :=
  ⟨_, exec_sofOpportunity s port, hP _ (by rw [State.opportunity_of_driven hs hd he, hv]; exact v.sameLaunch_end port)⟩

/-- A port whose driver is off launches nothing: what the pans count may change, and the reported status. -/
theorem leads_undrivenSof (hd : s.canDrive port = false) :
    Leads (.sofOpportunity port) s fun u => u.line.plc = s.line.plc ∧ u.line.pair = s.line.pair ∧ u.mem = s.mem ∧ u.tide = s.tide ∧
      ∀ n : Fin 4, u.pans[n].token = s.pans[n].token := by
  have hb := s.booked_noteHolds port
  refine ⟨_, exec_sofOpportunity s port, ?_⟩
  simp only [State.settle_line_plc, State.settle_line_pair, State.settle_mem, State.settle_tide, State.settle_pans]
  rcases State.opportunity_of_undriven hd with h | h <;> rw [h]
  · exact ⟨rfl, rfl, rfl, rfl, fun _ => rfl⟩
  · exact ⟨congrArg Line.plc hb.line, congrArg Line.pair hb.line, hb.mem, hb.tide, hb.token⟩

end

end Sys2Proof.Machine

/-! SUPPORT. How an attempt ends: its frame leaves the wire, and goes on in its queue or completes (chapters 4, 9, 11). -/

namespace Sys2Proof.Machine

namespace State

/-! ### Completions leave the ports -/

section
variable (s : State) (p : LinePort)

@[simp] theorem writeStatus_line (g code : Nat) (r : Record) : (s.writeStatus g code r).line = s.line := by
  unfold State.writeStatus
  cases r.sof <;> cases r.words <;> simp

@[simp] theorem cplEvent_line (n : Fin 4) (q : TxQueue) : (s.cplEvent n q).line = s.line := by
  unfold State.cplEvent
  split
  · exact State.setEvent_line ..
  · rfl

@[simp] theorem completeItem_port (n q : Fin 4) (g code : Nat) (r : Record) : (s.completeItem n q g code r).port p = s.port p := by
  have hline : (s.completeItem n q g code r).line = { s.line with gasp := s.line.gasp.filter (· != g) } := by
    unfold State.completeItem
    dsimp only
    rw [apply_ite State.line]
    simp
  cases p <;> simp only [State.port, hline]

@[simp] theorem giveBack_line (g : Nat) (who : Option (Fin 8)) : (s.giveBack g who).line = s.line := by cases who <;> rfl

@[simp] theorem reportTx_line (n q : Fin 4) (code : Nat) : (s.reportTx n q code).line = s.line := by
  simp [State.reportTx, apply_ite State.line]

@[simp] theorem completeFired_line (x : FiredTx) (code : Nat) (r : Record) : (s.completeFired x code r).line = s.line := by
  simp [State.completeFired, State.finishTx, apply_ite State.line]

@[simp] theorem setBridgeQ_port (out : LinePort) (q : List Forward) : (s.setBridgeQ out q).port p = s.port p := by
  cases out <;> cases p <;> rfl

variable (port : LinePort) (a : TxAttempt)

@[simp] theorem finish_port (code : Nat) (r : Record) : (s.finish port a code r).port p = s.port p := by
  unfold State.finish
  dsimp only
  split
  · split <;> simp
  · split <;> simp
  · split
    · split <;> exact port_congr (State.completeFired_line ..) p
    · rfl
  · split
    · split
      · exact port_congr rfl p
      · rfl
    · rfl
  · rfl
  · split
    · split <;> simp
    · rfl

@[simp] theorem requeue_port (ack : Bool) (f : Forward → Forward) : (s.requeue port a ack f).port p = s.port p := by
  unfold State.requeue
  split
  · split <;> exact port_congr rfl p
  · split <;> exact port_congr rfl p
  · exact port_congr rfl p
  · exact port_congr rfl p
  · cases p <;> rfl
  · split <;> simp

@[simp] theorem failed_port (unack ack : Bool) : (s.failed port a unack ack).port p = s.port p := by
  have hbump : ∀ g, (s.bumpRcnt g).port p = s.port p := fun g => port_congr rfl p
  unfold State.failed
  dsimp only
  split
  · simp
  · simp
  · split
    · split <;> simp
    · rfl
  · split
    · rfl
    · split_ifs <;> simp [hbump]

@[simp] theorem putOff_port (lost : Bool) : (s.putOff port a lost).port p = s.port p := by
  have hbump : ∀ g, (s.bumpLost g).port p = s.port p := fun g => port_congr rfl p
  unfold State.putOff
  dsimp only
  split
  · simp
  · split_ifs <;> simp [hbump]

@[simp] theorem countUnack_line : (s.countUnack a).line = s.line := by
  unfold State.countUnack
  split
  · exact (apply_ite State.line _ _ _).trans (ite_self _)
  · rfl

end

/-! ### What follows a completion leaves the ports -/

section
variable (s : State) (p : LinePort) (a : TxAttempt)

theorem refreshOwn_eq (permit : Bool) (rel : Byte) : s.refreshOwn permit rel = (s.keepAlive permit rel).settle := rfl

@[simp] theorem tideSent_port : (s.tideSent a).port p = s.port p := by
  unfold State.tideSent
  split
  · rw [port_congr (State.tideEvent_line _) p, State.refreshOwn_eq, settle_port]
    exact port_congr rfl p
  · rfl

@[simp] theorem soundSent_port : (s.soundSent a).port p = s.port p := by
  unfold State.soundSent
  split
  · exact port_congr rfl p
  · rfl

@[simp] theorem soundDone_port (port : LinePort) (d : Option Nat) : (s.soundDone port a d).port p = s.port p := by
  unfold State.soundDone
  cases d with
  | none => rfl
  | some d =>
    dsimp only
    split
    · rfl
    · cases p <;> rfl

@[simp] theorem refund_port (n : Fin 4) (f : Frame) : (s.refund n f).port p = s.port p := port_congr rfl p

end

/-! ### Count changes of a port whose frame has left the wire (R146-R148, Table 4-3) -/

section
variable {s : State} {port : LinePort} (h : (s.port port).tx = none)
include h

theorem spares_errorCounts_sent (first delim : Nat) (sg : Signalling) : Spares s (s.errorCounts port true first delim sg) := by
  have add : ∀ {u : State} (k m : Nat), Spares s u → Spares s (u.addCounts port k 0 m) := fun k m hu =>
    hu.trans (spares_addCounts (hu.tx port h) _ _ _)
  exact add _ _ (add _ _ (add _ _ (add _ _ (.refl s))))

theorem spares_ifsError_sent (after : Option Signalling) : Spares s (s.ifsError port true after) := by
  cases after with
  | none => exact .refl s
  | some sg =>
    have h1 := s.spares_updPort port (fun x => { x with answer := { x.answer with flag := s.flags port } }) id
    exact h1.trans (spares_errorCounts_sent (h1.tx port h) _ _ _)

/-- An error's counts, the idle line and the reported status. -/
theorem spares_errorEnd (first delim : Nat) (sg : Signalling) :
    Spares s ((s.errorCounts port true first delim sg).lineIdle port).settle :=
  ((spares_errorCounts_sent h first delim sg).trans (spares_lineIdle _ _)).trans (spares_settle _)

end

/-! ### The ends of an attempt (R134, R141, R157, R159) -/

section
variable (s : State) (port : LinePort) (a : TxAttempt)

/-- The frame is off the wire, and `flag` is what the port drives in answer. -/
def answered (flag : Bool) : State := (s.dropTxOn port).putAnswer port ⟨false, flag, none, none⟩

/-- A frame that was valid up to its end: the count, the completion, and what its sending tells the keep-alive and the sounding. -/
def validSent (ack : Bool) (act : List (Nat × Nat)) (onsets : List Instant) : State :=
  (((((s.dropTxOn port).addCount port (-1) 0).finish port a stSent (s.validRecord port a ack act onsets)).tideSent a).soundSent a).soundDone
    port a (s.sounded port a onsets)

/-- What lost arbitration gives back. -/
def lostRefund (t : State) : State :=
  match s.srcPan a.src, a.src with
  | _, .gasp _ => t
  | some n, _ => if s.alive a then t.refund n a.frame else t
  | none, _ => t

@[simp] theorem dropTxOn_pans : (s.dropTxOn port).pans = s.pans := State.updPort_pans ..
@[simp] theorem dropTxOn_mem : (s.dropTxOn port).mem = s.mem := State.updPort_mem ..
@[simp] theorem dropTxOn_tide : (s.dropTxOn port).tide = s.tide := State.updPort_tide ..

@[simp] theorem answered_pans (flag : Bool) : (s.answered port flag).pans = s.pans :=
  (State.updPort_pans ..).trans (s.dropTxOn_pans port)
@[simp] theorem answered_mem (flag : Bool) : (s.answered port flag).mem = s.mem :=
  (State.updPort_mem ..).trans (s.dropTxOn_mem port)
@[simp] theorem answered_tide (flag : Bool) : (s.answered port flag).tide = s.tide :=
  (State.updPort_tide ..).trans (s.dropTxOn_tide port)

@[simp] theorem dropTxOn_tx : ((s.dropTxOn port).port port).tx = none := by
  rw [State.dropTxOn, State.updPort_port_self]

@[simp] theorem answered_tx (flag : Bool) : ((s.answered port flag).port port).tx = none := by
  rw [State.answered, State.putAnswer, State.updPort_port_self]
  exact s.dropTxOn_tx port

@[simp] theorem validSent_tx (ack : Bool) (act : List (Nat × Nat)) (onsets : List Instant) :
    ((s.validSent port a ack act onsets).port port).tx = none := by
  rw [State.validSent, soundDone_port, soundSent_port, tideSent_port, finish_port]
  exact (spares_addCount (s.dropTxOn_tx port) _ _).tx port (s.dropTxOn_tx port)

@[simp] theorem lostRefund_port (t : State) (p : LinePort) : (s.lostRefund a t).port p = t.port p := by
  unfold State.lostRefund
  split
  · rfl
  · split
    · exact t.refund_port p _ _
    · rfl
  · rfl

variable {s port a}

theorem attemptEnd_of_none (h : (s.port port).tx = none) (e : TxEnd) : s.attemptEnd port e = s := by
  simp only [State.attemptEnd, h]

variable (h : (s.port port).tx = some a)
include h

theorem attemptEnd_valid (ack : Bool) (act : List (Nat × Nat)) (onsets : List Instant) (after : Option Signalling) :
    s.attemptEnd port (.valid ack act onsets after) =
      (((s.validSent port a ack act onsets).ifsError port true after).lineIdle port).settle := by
  simp only [State.attemptEnd, h]
  rfl

theorem attemptEnd_lost :
    s.attemptEnd port .lost =
      (s.lostRefund a ((s.dropTxOn port).putOff port a true)).updPort port fun x =>
        { x with use := if x.waitNext then .waitTen else .receiving, waitNext := false } := by
  simp only [State.attemptEnd, h]
  rfl

theorem attemptEnd_error (ack : Bool) (sg : Signalling) :
    s.attemptEnd port (.error ack sg) =
      ((((s.answered port (s.flags port)).failed port a false ack).errorCounts port true 8 8 sg).lineIdle port).settle := by
  simp only [State.attemptEnd, h]
  rfl

theorem attemptEnd_cut : s.attemptEnd port .cut = (((s.dropTxOn port).putOff port a false).lineIdle port).settle := by
  simp only [State.attemptEnd, h]

/-- A native frame of class 0 has no ACK error. -/
theorem attemptEnd_ackError_of_class0 (hn : s.portIso port = false) (hc : a.frame.cls = 0) (heard : Bool) :
    s.attemptEnd port (.ackError heard) = s := by
  simp [State.attemptEnd, h, hn, hc]

/-- Otherwise an ACK error takes the frame off the wire before its counts. -/
theorem attemptEnd_ackError (hc : s.portIso port = true ∨ a.frame.cls ≠ 0) (heard : Bool) :
    ∃ t : State, (t.port port).tx = none ∧ Spares t (s.attemptEnd port (.ackError heard)) := by
  have hunack : ∀ flag, (((s.answered port flag).countUnack a).port port).tx = none := fun flag => by
    rw [port_congr (countUnack_line _ a), answered_tx]
  by_cases hn : s.portIso port = true
  · refine ⟨((s.answered port (s.flags port)).countUnack a).failed port a true false, by rw [failed_port, hunack], ?_⟩
    have hidle := spares_lineIdle (((s.answered port (s.flags port)).countUnack a).failed port a true false) port
    have htx := hidle.tx port (by rw [failed_port, hunack])
    simp only [State.attemptEnd, h, hn, if_true]
    exact (hidle.trans (.ite (spares_addCount htx 8 0) (.refl _))).trans (spares_settle _)
  · have hcls : (a.frame.cls == 0) = false := by simpa using hc.resolve_left hn
    simp only [State.attemptEnd, h, if_neg hn, hcls, Bool.false_eq_true, if_false]
    cases heard with
    | true =>
      have htx : (((s.answered port false).failed port a false false).port port).tx = none := by rw [failed_port, answered_tx]
      exact ⟨_, htx, ((spares_addCount htx 8 0).trans (spares_lineIdle _ _)).trans (spares_settle _)⟩
    | false =>
      have htx : ((((s.answered port false).countUnack a).failed port a true false).port port).tx = none := by
        rw [failed_port, hunack]
      exact ⟨_, htx, (spares_lineIdle _ _).trans (spares_settle _)⟩

/-- The end of an attempt takes its frame off the wire, but for an ACK error that cannot be. -/
theorem attemptEnd_tx {e : TxEnd} (he : (∀ heard, e ≠ .ackError heard) ∨ s.portIso port = true ∨ a.frame.cls ≠ 0) :
    ((s.attemptEnd port e).port port).tx = none := by
  cases e with
  | valid ack act onsets after =>
    have htx := s.validSent_tx port a ack act onsets
    rw [attemptEnd_valid h]
    exact (((spares_ifsError_sent htx after).trans (spares_lineIdle _ _)).trans (spares_settle _)).tx port htx
  | lost =>
    rw [attemptEnd_lost h, State.updPort_port_self, lostRefund_port, putOff_port]
    exact s.dropTxOn_tx port
  | error ack sg =>
    have htx : (((s.answered port (s.flags port)).failed port a false ack).port port).tx = none := by rw [failed_port, answered_tx]
    rw [attemptEnd_error h]
    exact (spares_errorEnd htx 8 8 sg).tx port htx
  | ackError heard =>
    obtain ⟨t, htx, hend⟩ := attemptEnd_ackError h (he.resolve_left fun k => k heard rfl) heard
    exact hend.tx port htx
  | cut =>
    have htx : (((s.dropTxOn port).putOff port a false).port port).tx = none := by rw [putOff_port, dropTxOn_tx]
    rw [attemptEnd_cut h]
    exact ((spares_lineIdle _ _).trans (spares_settle _)).tx port htx

end

/-! ### A queue's frame that waits again (R157, R159, R351) -/

/-- RCNT and LOSTARB lie in the slot's memory. -/
theorem rcnt_congr {s u : State} (h : u.mem = s.mem) (g : Nat) : u.rcnt g = s.rcnt g := by
  rw [State.rcnt, slotWord_congr h, State.rcnt]

section
variable (s : State) (g : Nat)

/-- Below its limit a retry count goes up by one. -/
theorem bumpRcnt_rcnt (h : s.rcnt g < s.rlim g) : (s.bumpRcnt g).rcnt g = s.rcnt g + 1 := by
  have hlim : s.rlim g < 2 ^ 4 := bitsOf_lt ..
  rw [State.rcnt, State.bumpRcnt, slotWord_putSlotWord, bitsOf_putBits_self _ _ (by decide)]
  omega

theorem bumpLost_rcnt : (s.bumpLost g).rcnt g = s.rcnt g := by
  rw [State.rcnt, State.bumpLost, slotWord_putSlotWord]
  exact bitsOf_congr fun i hi => by rw [getLsbD_putBits _ _ (by omega), if_neg (by omega)]

/-- The item in slot `g` of a queue waits, and its last attempt left `l`. -/
def Waits (s : State) (n q : Fin 4) (g : Nat) (l : Instant × Bool) : Prop :=
  ∀ i ∈ (s.tq n q).items, i.slot = g → i.st = .queued ∧ i.last = some l

theorem unwire_waits (n q : Fin 4) (l : Instant × Bool) : (s.unwire n q g l).Waits n q g l := by
  intro i hi hg
  rw [State.unwire, updTq_tq] at hi
  obtain ⟨j, -, rfl⟩ := List.mem_map.1 hi
  by_cases hj : j.slot = g
  · simp [hj]
  · rw [if_neg hj] at hg
    exact absurd hg hj

theorem unwire_mem (n q : Fin 4) (l : Instant × Bool) : (s.unwire n q g l).mem = s.mem := rfl

theorem unwire_pan (n q : Fin 4) (l : Instant × Bool) : ∃ tq, (s.unwire n q g l).pans[n] = { s.pans[n] with tq := tq } := by
  rw [State.unwire, State.updTq, State.updPan_pans, tabUpd_get, if_pos rfl]
  exact ⟨_, rfl⟩

theorem refund_token (n : Fin 4) (f : Frame) :
    (s.refund n f).pans[n].token.toNat = min s.pans[n].burst (s.pans[n].token.toNat + (f.len + 8)) := by
  rw [State.refund, State.updPan_pans, tabUpd_get, if_pos rfl]
  exact s.pans[n].fill_token (cost f)

theorem refund_mem (n : Fin 4) (f : Frame) : (s.refund n f).mem = s.mem := rfl

theorem refund_tq (n q : Fin 4) (f : Frame) : (s.refund n f).tq n q = s.tq n q := by
  rw [State.tq, State.refund, State.updPan_pans, tabUpd_get, if_pos rfl, State.tq]

end

theorem Waits.congr {s u : State} {n q : Fin 4} {g : Nat} {l : Instant × Bool} (h : s.Waits n q g l) (hq : u.tq n q = s.tq n q) :
    u.Waits n q g l := by
  rw [State.Waits, hq]
  exact h

end State

theorem Spares.tq {s u : State} (h : Spares s u) (n q : Fin 4) : u.tq n q = s.tq n q := by
  obtain ⟨b, hb⟩ := h.pan n
  rw [State.tq, hb, State.tq]

/-- The attempt carries the frame in slot `g` of a queue, which its pan has neither abandoned nor flushed and whose deadline has not
passed. -/
structure InQueue (s : State) (a : TxAttempt) (n q : Fin 4) (g : Nat) : Prop where
  src : a.src = .queue n q g
  alive : s.alive a = true
  unflushed : s.wasFlushed n q g = false
  inTime : s.deadlinePassed g = false

namespace InQueue

variable {s u : State} {a : TxAttempt} {n q : Fin 4} {g : Nat} (h : InQueue s a n q g)
include h

theorem alive_of_pans (hpans : u.pans = s.pans) : u.alive a = true := by
  have halive := h.alive
  simp only [State.alive, State.srcPan, h.src] at halive ⊢
  rwa [hpans]

theorem congr (hpans : u.pans = s.pans) (hmem : u.mem = s.mem) (htide : u.tide = s.tide) : InQueue u a n q g where
  src := h.src
  alive := h.alive_of_pans hpans
  unflushed := by
    rw [State.wasFlushed, State.tq_congr hpans]
    exact h.unflushed
  inTime := by
    have hdeadline : u.slotDeadline g = s.slotDeadline g := by simp only [State.slotDeadline, State.slotWord_congr hmem]
    have hnow : u.now = s.now := by rw [State.now, htide, State.now]
    have hreached : u.reached = s.reached := by
      funext i
      rw [State.reached, State.ahead, hnow, ← State.ahead, State.reached]
    rw [State.deadlinePassed, hdeadline, hreached]
    exact h.inTime

theorem dropTxOn (port : LinePort) : InQueue (s.dropTxOn port) a n q g :=
  h.congr (s.dropTxOn_pans port) (s.dropTxOn_mem port) (s.dropTxOn_tide port)

theorem answered (port : LinePort) (flag : Bool) : InQueue (s.answered port flag) a n q g :=
  h.congr (s.answered_pans port flag) (s.answered_mem port flag) (s.answered_tide port flag)

/-- An attempt that fails with a retry left waits again, one retry used. -/
theorem failed (port : LinePort) (unack ack : Bool) (hlim : s.rcnt g < s.rlim g) :
    s.failed port a unack ack = (s.bumpRcnt g).unwire n q g (a.sof, ack) := by
  have halive : (s.bumpRcnt g).alive a = true := h.alive_of_pans rfl
  simp [State.failed, State.requeue, h.src, TxSource.slot, h.alive, h.unflushed, h.inTime, halive, Nat.not_le.2 hlim]

/-- One that loses arbitration waits again, no retry used. -/
theorem putOff (port : LinePort) : s.putOff port a true = (s.bumpLost g).unwire n q g (a.sof, false) := by
  have halive : (s.bumpLost g).alive a = true := h.alive_of_pans rfl
  simp [State.putOff, State.requeue, h.src, TxSource.slot, h.alive, h.unflushed, h.inTime, halive]

/-- The pan gets its tokens back. -/
theorem lostRefund (t : State) : s.lostRefund a t = t.refund n a.frame := by
  simp [State.lostRefund, h.src, State.srcPan, h.alive]

variable {port : LinePort} (htx : (s.port port).tx = some a)
include htx

/-- An error on the wire costs a queue's frame one retry. -/
theorem attemptEnd_error (ack : Bool) (sg : Signalling) (hlim : s.rcnt g < s.rlim g) :
    let u := s.attemptEnd port (.error ack sg)
    u.rcnt g = s.rcnt g + 1 ∧ u.Waits n q g (a.sof, ack) := by
  have hmem := s.answered_mem port (s.flags port)
  have hlim' : (s.answered port (s.flags port)).rcnt g < (s.answered port (s.flags port)).rlim g := by
    rw [State.rcnt_congr hmem, State.rlim, State.slotWord_congr hmem]
    exact hlim
  have hend := State.spares_errorEnd (s := (s.answered port (s.flags port)).failed port a false ack) (port := port)
    (by rw [State.failed_port, State.answered_tx]) 8 8 sg
  rw [State.attemptEnd_error htx]
  rw [(h.answered port _).failed port false ack hlim'] at hend ⊢
  refine ⟨?_, (State.unwire_waits _ g n q _).congr (hend.tq n q)⟩
  rw [State.rcnt_congr hend.mem, ← State.rcnt_congr hmem]
  exact State.bumpRcnt_rcnt _ _ hlim'

/-- Lost arbitration costs a queue's frame no retry, and its pan gets the tokens back. -/
theorem attemptEnd_lost :
    let u := s.attemptEnd port .lost
    u.rcnt g = s.rcnt g ∧ u.Waits n q g (a.sof, false) ∧
      u.pans[n].token.toNat = min s.pans[n].burst (s.pans[n].token.toNat + (a.frame.len + 8)) := by
  obtain ⟨tq, hpan⟩ := ((s.dropTxOn port).bumpLost g).unwire_pan g n q (a.sof, false)
  have hdrop : ((s.dropTxOn port).bumpLost g).pans = s.pans := s.dropTxOn_pans port
  rw [State.attemptEnd_lost htx, h.lostRefund, (h.dropTxOn port).putOff]
  refine ⟨?_, (((s.dropTxOn port).bumpLost g).unwire_waits g n q _).congr ?_, ?_⟩
  · rw [State.rcnt_congr (State.updPort_mem ..), State.rcnt_congr (State.refund_mem ..), State.rcnt_congr (State.unwire_mem ..),
      State.bumpLost_rcnt, State.rcnt_congr (State.dropTxOn_mem ..)]
  · rw [State.tq_congr (State.updPort_pans ..), State.refund_tq]
  · rw [State.updPort_pans, State.refund_token, hpan, hdrop]
    rfl

end InQueue

/-! ### An own tide frame that is SENT (R27) -/

/-- `u` is `s` but for the port's own state, and the port is being disabled in both or in neither. -/
def OnPort (port : LinePort) (s u : State) : Prop :=
  ∃ f : PortState → PortState, u = s.updPort port f ∧ ∀ x, (f x).closing = x.closing

namespace OnPort

variable {port : LinePort} {s u v : State}

theorem refl (port : LinePort) (s : State) : OnPort port s s := ⟨id, by cases port <;> rfl, fun _ => rfl⟩

theorem trans (h : OnPort port s u) (k : OnPort port u v) : OnPort port s v := by
  obtain ⟨f, rfl, hf⟩ := h
  obtain ⟨g, rfl, hg⟩ := k
  exact ⟨fun x => g (f x), State.updPort_updPort _ _, fun x => (hg _).trans (hf x)⟩

section
variable (h : OnPort port s u)
include h

theorem tide : u.tide = s.tide := by obtain ⟨f, rfl, -⟩ := h; exact State.updPort_tide ..
theorem slu : u.slu = s.slu := by obtain ⟨f, rfl, -⟩ := h; exact State.updPort_slu ..
theorem closing : (u.port port).closing = (s.port port).closing := by
  obtain ⟨f, rfl, hf⟩ := h
  rw [State.updPort_port_self, hf]
theorem portIso : u.portIso port = s.portIso port := by
  obtain ⟨f, rfl, -⟩ := h
  cases port <;> rfl

end

/-- The counts of a native port wait at the port. -/
theorem addCount (hn : s.portIso port = false) (a b : Int) : OnPort port s (s.addCount port a b) := by
  unfold State.addCount
  split
  · exact .refl port s
  · rw [hn, if_neg Bool.false_ne_true]
    exact ⟨_, rfl, fun _ => rfl⟩

theorem addCounts (hn : s.portIso port = false) (a b : Int) (n : Nat) : OnPort port s (s.addCounts port a b n) := by
  induction n generalizing s with
  | zero => exact .refl port s
  | succ n ih =>
    have h := addCount hn a b
    exact h.trans (ih (h.portIso.trans hn))

theorem errorCounts (hn : s.portIso port = false) (first delim : Nat) (sg : Signalling) :
    OnPort port s (s.errorCounts port true first delim sg) := by
  have add : ∀ {u : State} (k m : Nat), OnPort port s u → OnPort port s (u.addCounts port k 0 m) := fun k m hu =>
    hu.trans (addCounts (hu.portIso.trans hn) _ _ _)
  exact add _ _ (add _ _ (add _ _ (add _ _ (.refl port s))))

theorem ifsError (hn : s.portIso port = false) (after : Option Signalling) : OnPort port s (s.ifsError port true after) := by
  cases after with
  | none => exact .refl port s
  | some sg =>
    have h : OnPort port s (s.updPort port fun x => { x with answer := { x.answer with flag := s.flags port } }) :=
      ⟨_, rfl, fun _ => rfl⟩
    exact h.trans (errorCounts (h.portIso.trans hn) _ _ _)

/-- The line of a port that is not being disabled goes idle at the port alone. -/
theorem lineIdle (hc : (s.port port).closing = false) : OnPort port s (s.lineIdle port) := by
  unfold State.lineIdle
  dsimp only
  rw [hc, if_neg Bool.false_ne_true]
  exact ⟨_, rfl, fun _ => rfl⟩

end OnPort

namespace State

theorem portIso_congr {s u : State} (h : u.line.pairCtl = s.line.pairCtl) (p : LinePort) : u.portIso p = s.portIso p := by
  rw [State.portIso, State.isoMode, h, State.portIso, State.isoMode]

section
variable {a : TxAttempt} (hsrc : a.src = .tide)
include hsrc

/-- A tide frame that completes leaves its roll bitmap, and nothing else. -/
theorem finish_of_tide (s : State) (port : LinePort) (code : Nat) (r : Record) :
    ∃ f : Tide → Tide, s.finish port a code r = s.updTide f ∧ ∀ t, (f t).due = t.due := by
  unfold State.finish
  rw [hsrc]
  dsimp only
  split
  · split
    · exact ⟨_, rfl, fun _ => rfl⟩
    · exact ⟨id, rfl, fun _ => rfl⟩
  · exact ⟨id, rfl, fun _ => rfl⟩

theorem soundSent_of_tide (s : State) : s.soundSent a = s := by
  simp [State.soundSent, hsrc]

theorem tideSent_of_tide (s : State) :
    s.tideSent a = (s.refreshOwn (bitOf (a.frame.data.getD 8 0) 7) (a.frame.data.getD 12 0)).tideEvent := if_pos hsrc

end

/-- A SOUND result that a valid frame gives waits in the sounding slot. -/
theorem soundDone_frame (s : State) (port : LinePort) (a : TxAttempt) (d : Option Nat) :
    (s.soundDone port a d).tide = s.tide ∧ (s.soundDone port a d).slu = s.slu ∧
      (s.soundDone port a d).line.pairCtl = s.line.pairCtl := by
  unfold State.soundDone
  cases d with
  | none => exact ⟨rfl, rfl, rfl⟩
  | some d =>
    dsimp only
    split <;> exact ⟨rfl, rfl, rfl⟩

section
variable {s : State} {port : LinePort} {a : TxAttempt} (hsrc : a.src = .tide) (hc : (s.port port).closing = false)
  (hn : s.portIso port = false)
include hsrc hn

/-- A valid own tide frame refreshes the keep-alive, and a boundary's frame stays due or not as it was. -/
theorem validSent_of_tide (ack : Bool) (act : List (Nat × Nat)) (onsets : List Instant) :
    let v := s.validSent port a ack act onsets
    v.tide.due = s.tide.due ∧ v.slu.fresh = bitOf (a.frame.data.getD 8 0) 7 ∧ v.slu.lastRel = some (a.frame.data.getD 12 0) ∧
      v.portIso port = false ∧ (v.port port).closing = (s.port port).closing := by
  have hdrop : OnPort port s (s.dropTxOn port) := ⟨_, rfl, fun _ => rfl⟩
  have hcount := hdrop.trans (OnPort.addCount (hdrop.portIso.trans hn) (-1) 0)
  obtain ⟨f, hfin, hf⟩ :=
    finish_of_tide hsrc ((s.dropTxOn port).addCount port (-1) 0) port stSent (s.validRecord port a ack act onsets)
  have hport := fun t : State => t.soundDone_port port a port (s.sounded port a onsets)
  dsimp only
  rw [State.validSent, hport, soundSent_port, tideSent_port, finish_port, hfin, soundSent_of_tide hsrc, tideSent_of_tide hsrc]
  obtain ⟨htide, hslu, hctl⟩ := soundDone_frame
    (((((s.dropTxOn port).addCount port (-1) 0).updTide f).refreshOwn (bitOf (a.frame.data.getD 8 0) 7)
      (a.frame.data.getD 12 0)).tideEvent) port a (s.sounded port a onsets)
  rw [htide, hslu, portIso_congr hctl, State.tideEvent_tide, State.tideEvent_slu, State.refreshOwn_eq, State.settle_tide,
    State.settle_slu_fresh, State.settle_slu_lastRel]
  refine ⟨?_, rfl, rfl, ?_, hcount.closing⟩
  · exact (hf _).trans (congrArg Tide.due hcount.tide)
  · rw [portIso_congr (congrArg Line.pairCtl (State.tideEvent_line _)), portIso_congr (State.settle_line_pairCtl _)]
    exact hcount.portIso.trans hn

include hc

theorem attemptEnd_valid_of_tide (htx : (s.port port).tx = some a) (ack : Bool) (act : List (Nat × Nat)) (onsets : List Instant)
    (after : Option Signalling) :
    let u := s.attemptEnd port (.valid ack act onsets after)
    u.tide.due = s.tide.due ∧ u.slu.fresh = bitOf (a.frame.data.getD 8 0) 7 ∧ u.slu.lastRel = some (a.frame.data.getD 12 0) := by
  obtain ⟨hdue, hfresh, hrel, hiso, hclose⟩ := validSent_of_tide hsrc hn ack act onsets
  have hifs := OnPort.ifsError hiso after
  have hend := hifs.trans (OnPort.lineIdle (hifs.closing.trans (hclose.trans hc)))
  rw [attemptEnd_valid htx]
  dsimp only
  rw [State.settle_tide, State.settle_slu_fresh, State.settle_slu_lastRel, hend.tide, hend.slu]
  exact ⟨hdue, hfresh, hrel⟩

end

end State

end Sys2Proof.Machine

/-! SUPPORT. The proof of the statement about SOF opportunities and the ends of attempts (chapters 4, 11). -/

namespace Sys2Proof.Machine

open Sys2Proof.Safety

/-! ### What each launch of an opportunity leaves -/

/-- The pans' choice as the opportunity sees it, once the holds are noted. -/
def State.sofCand (s : State) (port : LinePort) : Option (Fin 4 × Candidate) :=
  if s.offers port then (s.noteHolds port).panChoice port else none

section
variable {s : State} {port : LinePort} (hs : s.canStart port = true) (hd : s.canDrive port = true) (he : s.portEn port = true)
include hs hd he

theorem leads_sof_of_gasp {g : Nat} (hg : s.offeredGasp port = some g) :
    Leads (.sofOpportunity port) s fun u => (u.port port).Launched (.gasp g) s.now ∧ u.line.rrLast = 0 ∧
      ∀ n : Fin 4, u.pans[n].token = s.pans[n].token := by
  have hb := s.booked_noteHolds port
  obtain ⟨hsent, hrr, htoken⟩ := (s.noteHolds port).launchGasp_spec port g
  rw [hb.now] at hsent
  refine leads_sofOpportunity hs hd he (State.launchFirst_of_gasp ((s.noteHolds_offeredGasp port).trans hg)) fun u hu => ?_
  rw [hu.port, hu.rrLast, hu.pans]
  exact ⟨hsent, hrr, fun n => (htoken n).trans (hb.token n)⟩

variable (hg : s.offeredGasp port = none)
include hg

theorem leads_sof_of_tide {k : Nat} (ho : s.ownDue port = some (k, .tide))
    (hc : ∀ n c, s.sofCand port = some (n, c) → k ≤ arbKey c.frame) :
    Leads (.sofOpportunity port) s fun u => (∀ n : Fin 4, u.pans[n].token = s.pans[n].token) ∧ u.line.rrLast = s.line.rrLast ∧
      (u.port port).Launched .tide s.now ∧ u.tide.due = false ∧
        ∀ a, (u.port port).tx = some a → a.frame.len = 16 ∧ a.frame.stamp = true ∧ a.frame.source = s.line.addr.toNat ∧
          a.frame.be 0 4 = s.tide.sec.toNat ∧ a.frame.be 4 4 = s.tide.tick.toNat := by
  have hb := s.booked_noteHolds port
  obtain ⟨hsent, hdue, hframe, hrr, hpans⟩ := (s.noteHolds port).launchTide_spec port
  rw [hb.now] at hsent
  rw [hb.line, hb.tide] at hframe
  refine leads_sofOpportunity hs hd he (State.launchFirst_of_own ((s.noteHolds_offeredGasp port).trans hg)
    ((hb.ownDue port).trans ho) (by rw [State.noteHolds_offeredCand]; exact hc)) fun u hu => ?_
  rw [hu.port, hu.rrLast, hu.pans, hu.tide, State.launchOwn, hrr, hb.line, hpans]
  exact ⟨hb.token, rfl, hsent, hdue, hframe⟩

theorem leads_sof_of_sound {k : Nat} {f : Frame} (ho : s.ownDue port = some (k, .sound f))
    (hc : ∀ n c, s.sofCand port = some (n, c) → k ≤ arbKey c.frame) :
    Leads (.sofOpportunity port) s fun u => (∀ n : Fin 4, u.pans[n].token = s.pans[n].token) ∧ u.line.rrLast = s.line.rrLast ∧
      (u.port port).Launched .sound s.now ∧ u.line.soundOut = none ∧ ∀ a, (u.port port).tx = some a → a.frame = f := by
  have hb := s.booked_noteHolds port
  obtain ⟨hsent, hout, hframe, hrr, hpans⟩ := (s.noteHolds port).launchSound_spec port f
  rw [hb.now] at hsent
  refine leads_sofOpportunity hs hd he (State.launchFirst_of_own ((s.noteHolds_offeredGasp port).trans hg)
    ((hb.ownDue port).trans ho) (by rw [State.noteHolds_offeredCand]; exact hc)) fun u hu => ?_
  rw [hu.port, hu.rrLast, hu.pans, hu.soundOut, State.launchOwn, hrr, hb.line, hpans]
  exact ⟨hb.token, rfl, hsent, hout, hframe⟩

theorem leads_sof_of_cand {n : Fin 4} {c : Candidate} (hc : s.sofCand port = some (n, c))
    (ho : ∀ k o, s.ownDue port = some (k, o) → arbKey c.frame < k) :
    Leads (.sofOpportunity port) s fun u => (u.port port).Launched c.src s.now ∧ u.line.rrLast = n ∧
      u.pans[n].token.toNat = s.pans[n].token.toNat - (c.frame.len + 8) := by
  have hb := s.booked_noteHolds port
  obtain ⟨hsent, hrr, htoken⟩ := (s.noteHolds port).launchCand_spec port n c
  rw [hb.now] at hsent
  rw [hb.token] at htoken
  refine leads_sofOpportunity hs hd he (State.launchFirst_of_cand ((s.noteHolds_offeredGasp port).trans hg)
    ((s.noteHolds_offeredCand port).trans hc) (by rw [hb.ownDue]; exact ho)) fun u hu => ?_
  rw [hu.port, hu.rrLast, hu.pans]
  exact ⟨hsent, hrr, htoken⟩

/-- With nothing to send, nothing is launched. -/
theorem leads_sof_of_nothing (hc : s.sofCand port = none) (ho : s.ownDue port = none) :
    Leads (.sofOpportunity port) s fun u => (u.port port).tx = none ∧ u.mem = s.mem ∧ u.tide = s.tide := by
  have hb := s.booked_noteHolds port
  have htx : (s.port port).tx = none := by
    simp only [State.canStart, Bool.and_eq_true, Option.isNone_iff_eq_none] at hs
    exact hs.1.1.2
  refine leads_sofOpportunity hs hd he (State.launchFirst_of_nothing ((s.noteHolds_offeredGasp port).trans hg)
    ((s.noteHolds_offeredCand port).trans hc) ((hb.ownDue port).trans ho)) fun u hu => ?_
  rw [hu.port, hu.mem, hu.tide, hb.port, hb.mem, hb.tide]
  exact ⟨htx, rfl, rfl⟩

end

theorem exec_transmitAttempt (s : State) (port : LinePort) (e : TxEnd) :
    exec (.transmitAttempt port e) s = .next (s.attemptEnd port e) := rfl

/-! ### The statement -/

/-- Settles O54: an opportunity by what R399 puts first, once the holds are noted; the end of an attempt by how its frame leaves the wire,
after which its port sends nothing and the count changes touch no queue (the hardware's own SOUND result is log 68, `due` after an own tide
frame log 46, an ACK error of a class-0 frame log 1). -/
theorem sofAndAttempts : Obligations.SofAndAttempts := by
  unfold Obligations.SofAndAttempts
  intro s port
  refine ⟨fun h => ?closed, fun hd => leads_undrivenSof hd, fun hs hd he => ⟨fun g hg => leads_sof_of_gasp hs hd he hg,
      fun k o hg ho hc => ?own, fun n c hg hc ho => leads_sof_of_cand hs hd he hg hc ho,
      fun hg hc ho => leads_sof_of_nothing hs hd he hg hc ho⟩,
    fun e htx => by rw [exec_transmitAttempt, State.attemptEnd_of_none htx],
    fun a htx => ⟨fun e he => ⟨_, exec_transmitAttempt s port e, State.attemptEnd_tx htx he⟩, fun heard hn hc => ?class0,
      fun ack act onsets after hsrc hc hn => ⟨_, exec_transmitAttempt s port _, State.attemptEnd_valid_of_tide hsrc hc hn htx ..⟩,
      fun n q g hsrc halive hflush hdead => ?queue⟩⟩
  case closed => rw [exec_sofOpportunity, State.opportunity_of_closed h]
  case own =>
    cases o with
    | tide => exact leads_sof_of_tide hs hd he hg ho hc
    | sound f => exact leads_sof_of_sound hs hd he hg ho hc
  case class0 => rw [exec_transmitAttempt, State.attemptEnd_ackError_of_class0 htx hn hc]
  case queue =>
    have hq : InQueue s a n q g := ⟨hsrc, halive, hflush, hdead⟩
    obtain ⟨hrcnt, hwaits, htoken⟩ := hq.attemptEnd_lost htx
    exact ⟨fun ack sg hlim => ⟨_, exec_transmitAttempt s port _, hq.attemptEnd_error htx ack sg hlim⟩,
      _, exec_transmitAttempt s port _, hrcnt, hwaits, htoken⟩

end Sys2Proof.Machine

/-! SUPPORT. Waits that end, locks that pass on and threads that halt (chapters 11, 12): what each leaves of the threads. -/

namespace Sys2Proof.Machine

open Sys2Proof.Safety

/-- A thread after ends of its waits: its registers, its events and what says how it goes on may differ. -/
def Thread.Resumed (th u : Thread) : Prop :=
  ∃ y : Thread, u = { th with g := y.g, ev := y.ev, state := y.state, stepping := y.stepping, waitOn := y.waitOn, readyAt := y.readyAt }

theorem Thread.Resumed.refl (th : Thread) : th.Resumed th := ⟨th, rfl⟩

theorem Thread.Resumed.trans {th u v : Thread} (h : th.Resumed u) (k : u.Resumed v) : th.Resumed v := by
  obtain ⟨y, rfl⟩ := h
  obtain ⟨z, rfl⟩ := k
  exact ⟨z, rfl⟩

theorem Thread.Resumed.parent {th u : Thread} (h : th.Resumed u) : u.parent = th.parent := by
  obtain ⟨y, rfl⟩ := h
  rfl

theorem Thread.Resumed.wakeArmed {th u : Thread} (h : th.Resumed u) : u.wakeArmed = th.wakeArmed := by
  obtain ⟨y, rfl⟩ := h
  rfl

namespace State

variable {s u v : State}

/-! ### Waits that end (R449) -/

section
variable (s) (t x : Fin 8) (rd : Fin 16) (w : Word)

theorem endWait_thr_self :
    (s.endWait t rd w).eng.thr[t] =
      { (s.putG t rd w).eng.thr[t] with
          state := if (s.putG t rd w).eng.thr[t].stepping then .debug else .running
          stepping := false, waitOn := none, readyAt := s.eng.tnow + 8 } :=
  updThr_thr_self _ _ _

theorem endWait_thr_of_ne (h : t ≠ x) : (s.endWait t rd w).eng.thr[x] = s.eng.thr[x] := by
  rw [endWait, updThr_thr, if_neg h, putG_thr, if_neg fun k => h k.1]

theorem endWait_state : (s.endWait t rd w).eng.thr[t].state ≠ .waiting ∧ (s.endWait t rd w).eng.thr[t].waitOn = none := by
  rw [endWait_thr_self]
  exact ⟨by dsimp only; split <;> decide, rfl⟩

theorem endWait_gReg (m : Fin 16) : (s.endWait t rd w).gReg x m = (s.putG t rd w).gReg x m := by
  rw [gReg, gReg, endWait, updThr_thr]
  by_cases h : t = x <;> simp [h]

theorem putG_resumed : s.eng.thr[x].Resumed (s.putG t rd w).eng.thr[x] := by
  rw [putG_thr]
  split
  · exact ⟨{ s.eng.thr[x] with g := s.eng.thr[x].g.set rd.val w rd.isLt }, rfl⟩
  · exact .refl _

theorem endWait_resumed : s.eng.thr[x].Resumed (s.endWait t rd w).eng.thr[x] := by
  by_cases h : t = x
  · subst h
    exact (s.putG_resumed t t rd w).trans ⟨(s.endWait t rd w).eng.thr[t], by rw [endWait_thr_self]⟩
  · rw [s.endWait_thr_of_ne t x rd w h]
    exact .refl _

end

/-- From `s` to `u` nothing happens to threads but ends of waits: one that does not wait stays as it is. -/
structure Wakes (s u : State) : Prop where
  thr : ∀ x : Fin 8, s.eng.thr[x].state ≠ .waiting → u.eng.thr[x] = s.eng.thr[x]
  resumed : ∀ x : Fin 8, s.eng.thr[x].Resumed u.eng.thr[x]

theorem Wakes.of_thr (h : u.eng.thr = s.eng.thr) : Wakes s u := ⟨fun _ _ => by rw [h], fun _ => by rw [h]; exact .refl _⟩

theorem Wakes.refl (s : State) : Wakes s s := .of_thr rfl

theorem Wakes.trans (h : Wakes s u) (k : Wakes u v) : Wakes s v where
  thr x hx := (k.thr x (by rwa [h.thr x hx])).trans (h.thr x hx)
  resumed x := (h.resumed x).trans (k.resumed x)

theorem Wakes.foldl {α : Type} {f : State → α → State} (hf : ∀ s a, Wakes s (f s a)) (l : List α) (s : State) :
    Wakes s (l.foldl f s) := by
  induction l generalizing s with
  | nil => exact .refl s
  | cons a l ih => exact (hf s a).trans (ih (f s a))

theorem wakes_endWait {t : Fin 8} (h : s.eng.thr[t].state = .waiting) (rd : Fin 16) (w : Word) : Wakes s (s.endWait t rd w) where
  thr x hx := s.endWait_thr_of_ne t x rd w fun e => hx (e ▸ h)
  resumed x := s.endWait_resumed t x rd w

theorem checkWait_of_not_waiting {t : Fin 8} (h : s.eng.thr[t].state ≠ .waiting) : s.checkWait t = s := by
  unfold checkWait
  split
  · next hw _ => exact absurd hw h
  · rfl

theorem updEvents_resumed (s : State) (t x : Fin 8) (f : Byte → Byte) :
    s.eng.thr[x].Resumed (s.updThr t fun th => { th with ev := f th.ev }).eng.thr[x] := by
  rw [updThr_thr]
  split
  · exact ⟨{ s.eng.thr[x] with ev := f s.eng.thr[x].ev }, rfl⟩
  · exact .refl _

theorem takeEvents_resumed (s : State) (t x : Fin 8) : s.eng.thr[x].Resumed (s.takeEvents t).2.eng.thr[x] :=
  s.updEvents_resumed t x (· &&& ~~~ (s.events t &&& s.eng.thr[t].evm))

theorem checkWait_resumed (s : State) (t x : Fin 8) : s.eng.thr[x].Resumed (s.checkWait t).eng.thr[x] := by
  unfold checkWait
  split
  · dsimp only
    split
    · exact .refl _
    · exact (s.takeEvents_resumed t x).trans (endWait_resumed ..)
  · exact .refl _

theorem wakes_checkWait (s : State) (t : Fin 8) : Wakes s (s.checkWait t) where
  thr x hx := by
    by_cases h : t = x
    · rw [checkWait_of_not_waiting (h ▸ hx)]
    · exact s.checkWait_thr_of_ne h
  resumed x := s.checkWait_resumed t x

theorem wakes_updIrq (s : State) (f : Irq → Irq) : Wakes s (s.updIrq f) := .of_thr rfl
theorem wakes_updPan (s : State) (n : Fin 4) (f : Pan → Pan) : Wakes s (s.updPan n f) := .of_thr rfl
theorem wakes_setLock (s : State) (l : Fin 32) (o : Option (Fin 8)) : Wakes s (s.setLock l o) := .of_thr rfl

theorem wakes_settleWaits (s : State) : Wakes s s.settleWaits := .foldl wakes_checkWait _ s

theorem wakes_arrive (s : State) (k : Nat) : Wakes s (s.arrive k) := by
  unfold arrive
  split
  · exact .refl s
  · split
    · exact (s.wakes_updIrq _).trans (wakes_settleWaits _)
    · exact s.wakes_updIrq _

theorem wakes_panFault (s : State) (n : Fin 4) (b : Nat) : Wakes s (s.panFault n b) :=
  (s.wakes_updPan n _).trans (wakes_arrive _ _)

theorem wakes_engComplete (s : State) (t : Fin 8) : Wakes s (s.engComplete t) := by
  unfold engComplete
  split
  · exact .refl s
  · exact (s.wakes_updIrq _).trans (wakes_settleWaits _)

/-! ### Locks that pass on (R408, R409) -/

theorem mem_waiters {l : Fin 32} {t : Fin 8} :
    t ∈ s.waiters l ↔ s.eng.thr[t].state = .waiting ∧ ∃ rd, s.eng.thr[t].waitOn = some (.lock rd l) := by
  have hk : (match s.eng.thr[t].waitOn with | some (.lock _ k) => k == l | _ => false) = true ↔
      ∃ rd, s.eng.thr[t].waitOn = some (.lock rd l) := by
    split
    · next rd k h => rw [h]; simp
    · next h => simpa using fun rd e => h rd l e
  simp only [waiters, List.mem_filter, List.mem_finRange, true_and, Bool.and_eq_true, beq_iff_eq]
  exact and_congr_right fun _ => hk

theorem bestWaiter_mem {ts : List (Fin 8)} {t : Fin 8} (h : bestWaiter s ts = some t) : t ∈ ts := by
  induction ts generalizing t with
  | nil => cases h
  | cons a ts ih =>
    rw [bestWaiter] at h
    split at h
    · cases h
      exact List.mem_cons_self ..
    · next b hb =>
      split at h <;> cases h
      · exact List.mem_cons_of_mem _ (ih hb)
      · exact List.mem_cons_self ..

/-- Of threads in rising order the best is the one that each other one follows in priority, or in number at the same priority. -/
theorem bestWaiter_of_best {ts : List (Fin 8)} {w : Fin 8} (hs : ts.Pairwise (· < ·)) (hw : w ∈ ts)
    (hb : ∀ x ∈ ts, x ≠ w → s.eng.thr[x].prio < s.eng.thr[w].prio ∨ (s.eng.thr[x].prio = s.eng.thr[w].prio ∧ w < x)) :
    bestWaiter s ts = some w := by
  induction ts with
  | nil => cases hw
  | cons a ts ih =>
    obtain ⟨ha, hs⟩ := List.pairwise_cons.1 hs
    rw [bestWaiter]
    rcases List.mem_cons.1 hw with rfl | hmem
    · split
      · rfl
      · next u hu =>
        have humem := bestWaiter_mem hu
        refine if_neg fun hlt => ?_
        rcases hb u (List.mem_cons_of_mem _ humem) (ha u humem).ne' with hp | ⟨hp, -⟩
        · exact absurd (BitVec.lt_trans hlt hp) (BitVec.lt_irrefl _)
        · exact absurd (hp ▸ hlt) (BitVec.lt_irrefl _)
    · rw [ih hs hmem fun x hx => hb x (List.mem_cons_of_mem _ hx)]
      have haw := ha w hmem
      refine if_pos ?_
      rcases hb a (List.mem_cons_self ..) haw.ne with hp | ⟨-, hlt⟩
      · exact hp
      · exact absurd (hlt.trans haw) (lt_irrefl _)

section
variable (s) (l : Fin 32)

theorem releaseLock_locks : (s.releaseLock l).eng.locks = s.eng.locks.set l.val (bestWaiter s (s.waiters l)) l.isLt := by
  unfold releaseLock
  split
  · next h => rw [h]; rfl
  · next t h => rw [endWait_eng_locks, h]; rfl

theorem wakes_releaseLock : Wakes s (s.releaseLock l) := by
  unfold releaseLock
  split
  · exact s.wakes_setLock l none
  · next t h =>
    have hw : (s.setLock l (some t)).eng.thr[t].state = .waiting := (mem_waiters.1 (bestWaiter_mem h)).1
    exact (s.wakes_setLock l (some t)).trans (wakes_endWait hw _ _)

/-- A lock passes to no thread that does not wait. -/
theorem releaseLock_lock_ne {t : Fin 8} (h : s.eng.thr[t].state ≠ .waiting) : (s.releaseLock l).eng.locks[l] ≠ some t := by
  rw [releaseLock_locks, set_get, if_pos rfl]
  exact fun e => h (mem_waiters.1 (bestWaiter_mem e)).1

theorem releaseLock_lock_of_ne {k : Fin 32} (h : l ≠ k) : (s.releaseLock l).eng.locks[k] = s.eng.locks[k] := by
  rw [releaseLock_locks, set_get, if_neg h]

end

/-- Of the locks that a thread which does not wait held, it holds none after their release. -/
theorem foldl_releaseLock_ne {t : Fin 8} (ls : List (Fin 32)) (h : s.eng.thr[t].state ≠ .waiting)
    (hl : ∀ k : Fin 32, s.eng.locks[k] = some t → k ∈ ls) (k : Fin 32) : (ls.foldl releaseLock s).eng.locks[k] ≠ some t := by
  induction ls generalizing s with
  | nil => exact fun e => nomatch hl k e
  | cons l ls ih =>
    refine ih (by rwa [(s.wakes_releaseLock l).thr t h]) fun j hj => ?_
    have hne : l ≠ j := fun e => s.releaseLock_lock_ne l h (e ▸ hj)
    rw [releaseLock_lock_of_ne _ _ hne] at hj
    exact (List.mem_cons.1 (hl j hj)).resolve_left hne.symm

theorem mem_locksOf {t : Fin 8} {l : Fin 32} : l ∈ s.locksOf t ↔ s.eng.locks[l] = some t := by
  simp [locksOf]

/-! ### Halts (R442) -/

@[simp] theorem passSlots_eng (s : State) (gs : List Nat) (own othr : Nat) : (s.passSlots gs own othr).eng = s.eng :=
  foldl_keeps State.eng (fun s g => s.passSlot g own othr) (fun _ _ => rfl) gs s
@[simp] theorem passSlots_sys (s : State) (gs : List Nat) (own othr : Nat) : (s.passSlots gs own othr).sys = s.sys :=
  foldl_keeps State.sys (fun s g => s.passSlot g own othr) (fun _ _ => rfl) gs s
@[simp] theorem passSlots_tide (s : State) (gs : List Nat) (own othr : Nat) : (s.passSlots gs own othr).tide = s.tide :=
  foldl_keeps State.tide (fun s g => s.passSlot g own othr) (fun _ _ => rfl) gs s

/-- A halt up to the links of the thread to others: it stands still, its locks pass on, its open item and its slots are given up. -/
def halting (s : State) (t : Fin 8) (f : Thread → Thread) : State :=
  let s1 := s.updThr t fun th => f th.stop
  (((s1.locksOf t).foldl releaseLock s1).dropItemOf t).freeSlotsOf t

theorem haltThread_eq (s : State) (t : Fin 8) (f : Thread → Thread) :
    s.haltThread t f = (((s.halting t f).orphan t).engComplete t).tellParent t := rfl

section
variable (s) {t : Fin 8} {f : Thread → Thread}

theorem halting_eng : (s.halting t f).eng =
    (((s.updThr t fun th => f th.stop).locksOf t).foldl releaseLock (s.updThr t fun th => f th.stop)).eng :=
  passSlots_eng ..

theorem halting_thr_self (hf : (f s.eng.thr[t].stop).state = .halted) : (s.halting t f).eng.thr[t] = f s.eng.thr[t].stop := by
  rw [halting_eng, (Wakes.foldl wakes_releaseLock _ _).thr t, updThr_thr_self]
  rw [updThr_thr_self, hf]
  decide

theorem halting_locks (hf : (f s.eng.thr[t].stop).state = .halted) (l : Fin 32) : (s.halting t f).eng.locks[l] ≠ some t := by
  rw [halting_eng]
  refine foldl_releaseLock_ne _ ?_ (fun k => mem_locksOf.2) l
  rw [updThr_thr_self, hf]
  decide

theorem orphan_thr (t x : Fin 8) :
    (s.orphan t).eng.thr[x] = if s.eng.thr[x].parent = some t then { s.eng.thr[x] with parent := none } else s.eng.thr[x] :=
  tabMap_get ..

theorem orphan_parent_ne (t x : Fin 8) : (s.orphan t).eng.thr[x].parent ≠ some t := by
  rw [orphan_thr]
  split
  · exact nofun
  · assumption

theorem orphan_thr_like (t x : Fin 8) : ∃ p, (s.orphan t).eng.thr[x] = { s.eng.thr[x] with parent := p } := by
  rw [orphan_thr]
  split
  · exact ⟨_, rfl⟩
  · exact ⟨_, rfl⟩

/-- The parent of a halted thread is told: the thread loses at most its own parent. -/
theorem tellParent_thr_self (t : Fin 8) (h : s.eng.thr[t].parent ≠ some t) :
    ∃ p, (s.tellParent t).eng.thr[t] = { s.eng.thr[t] with parent := p } := by
  unfold tellParent
  split
  · exact ⟨_, rfl⟩
  · next p hp =>
    have hpt : p ≠ t := fun e => h (e ▸ hp)
    have hset : (s.setEvent p evChild).eng.thr[t] = s.eng.thr[t] := by
      rw [setEvent, checkWait_thr_of_ne _ hpt, updThr_thr, if_neg hpt]
    dsimp only
    split
    · split
      · rw [updThr_thr_self, endWait_thr_of_ne _ _ _ _ _ hpt, hset]
        exact ⟨_, rfl⟩
      · exact ⟨_, hset⟩
    · exact ⟨_, hset⟩

theorem setEvent_resumed (t x : Fin 8) (b : Nat) : s.eng.thr[x].Resumed (s.setEvent t b).eng.thr[x] :=
  (s.updEvents_resumed t x (putBit · b true)).trans (checkWait_resumed ..)

theorem tellParent_parent (t x : Fin 8) {p : Fin 8} (h : (s.tellParent t).eng.thr[x].parent = some p) :
    s.eng.thr[x].parent = some p := by
  unfold tellParent at h
  split at h
  · exact h
  · dsimp only at h
    split at h
    · split at h
      · rw [updThr_thr] at h
        split at h
        · cases h
        · rwa [(endWait_resumed ..).parent, (setEvent_resumed ..).parent] at h
      · rwa [(setEvent_resumed ..).parent] at h
    · rwa [(setEvent_resumed ..).parent] at h

/-- What events, ends of waits and changes of threads leave alone, the telling of the parent does. -/
theorem tellParent_same {β : Type} (F : State → β) (he : ∀ (s : State) p b, F (s.setEvent p b) = F s)
    (hw : ∀ (s : State) p rd w, F (s.endWait p rd w) = F s) (hu : ∀ (s : State) p f, F (s.updThr p f) = F s) (t : Fin 8) :
    F (s.tellParent t) = F s := by
  unfold tellParent
  split
  · rfl
  · dsimp only
    split
    · split
      · exact (hu ..).trans ((hw ..).trans (he ..))
      · exact he ..
    · exact he ..

theorem tellParent_locks (t : Fin 8) : (s.tellParent t).eng.locks = s.eng.locks :=
  s.tellParent_same (fun u => u.eng.locks) setEvent_eng_locks endWait_eng_locks (fun _ _ _ => rfl) t
theorem tellParent_sys (t : Fin 8) : (s.tellParent t).sys = s.sys :=
  s.tellParent_same State.sys setEvent_sys endWait_sys updThr_sys t
theorem tellParent_tide (t : Fin 8) : (s.tellParent t).tide = s.tide :=
  s.tellParent_same State.tide setEvent_tide endWait_tide updThr_tide t

/-- A halted thread: what the halt's cause writes into it as it stands still, its parent apart. -/
theorem haltThread_thr_self (hf : (f s.eng.thr[t].stop).state = .halted) :
    ∃ p, (s.haltThread t f).eng.thr[t] = { f s.eng.thr[t].stop with parent := p } := by
  obtain ⟨q, hq⟩ := (s.halting t f).orphan_thr_like t t
  rw [s.halting_thr_self hf] at hq
  have hstill : (((s.halting t f).orphan t).engComplete t).eng.thr[t] = { f s.eng.thr[t].stop with parent := q } := by
    rw [(wakes_engComplete _ t).thr t (by rw [hq]; dsimp only; rw [hf]; decide), hq]
  obtain ⟨p, hp⟩ := (((s.halting t f).orphan t).engComplete t).tellParent_thr_self t
    (by rw [((wakes_engComplete _ t).resumed _).parent]; exact orphan_parent_ne _ t t)
  exact ⟨p, by rw [haltThread_eq, hp, hstill]⟩

theorem haltThread_locks (hf : (f s.eng.thr[t].stop).state = .halted) (l : Fin 32) : (s.haltThread t f).eng.locks[l] ≠ some t := by
  rw [haltThread_eq, tellParent_locks, engComplete_eng_locks]
  exact s.halting_locks hf l

theorem haltThread_parent_ne (x : Fin 8) : (s.haltThread t f).eng.thr[x].parent ≠ some t := by
  intro h
  rw [haltThread_eq] at h
  have h := tellParent_parent _ t x h
  rw [((wakes_engComplete _ t).resumed _).parent] at h
  exact orphan_parent_ne _ t x h

theorem haltThread_sys : (s.haltThread t f).sys = s.sys := by
  rw [haltThread_eq, tellParent_sys, engComplete_sys]
  exact (passSlots_sys ..).trans (foldl_keeps State.sys _ releaseLock_sys _ _)

theorem haltThread_tide : (s.haltThread t f).tide = s.tide := by
  rw [haltThread_eq, tellParent_tide, engComplete_tide]
  exact (passSlots_tide ..).trans (foldl_keeps State.tide _ releaseLock_tide _ _)

end

end State

end Sys2Proof.Machine

/-! SUPPORT. The instructions of threads, waits and locks (chapters 11, 12, 14) by what they write, and the proofs of their statements. -/

namespace Sys2Proof.Machine

open Sys2Proof.Safety

/-! ### Issue -/

section
variable {c : Instr} {s : State} {t : Fin 8} {k : State → State}

theorem exec_of_canIssue (hi : canIssue s t) (he : exec c s = .next (s.issue t k)) : exec c s = .next (k s) :=
  he.trans (congrArg Host.Outcome.next (issue_of_canIssue s t k hi))

theorem leads_of_canIssue {P : State → Prop} (hi : canIssue s t) (he : exec c s = .next (s.issue t k)) (hP : P (k s)) :
    Leads c s P :=
  ⟨k s, exec_of_canIssue hi he, hP⟩

/-- A thread that may issue is RUNNING or stands in DEBUG. -/
theorem state_of_issues {th : Thread} (h : th.issues = true) : th.state ≠ .halted ∧ th.state ≠ .waiting := by
  cases hs : th.state <;> simp_all [Thread.issues]

end

namespace State

/-! ### Results and waits of an instruction -/

section
variable (s : State) (t x : Fin 8) (rd n : Fin 16) (v : Word)

theorem result_thr_of_ne (h : t ≠ x) : (s.result t rd v).eng.thr[x] = s.eng.thr[x] := by
  rw [result, advance_thr_of_ne _ _ _ h, putG_thr, if_neg fun k => h k.1]

theorem result_gReg : (s.result t rd v).gReg x n = if t = x ∧ rd = n ∧ rd ≠ 0 then v else s.gReg x n := by
  rw [result, gReg_advance, gReg_putG]

theorem result_gReg_self (h : rd ≠ 0) : (s.result t rd v).gReg t rd = v := by
  rw [result_gReg, if_pos ⟨rfl, rfl, h⟩]

theorem result_gReg_of_ne (h : t ≠ x) : (s.result t rd v).gReg x n = s.gReg x n := by
  rw [result_gReg, if_neg fun k => h k.1]

theorem result_locks : (s.result t rd v).eng.locks = s.eng.locks := s.putG_eng_locks t rd v

/-- The thread of a result goes on, or stands in DEBUG again. -/
theorem result_state (h : s.eng.thr[t].state ≠ .waiting) : (s.result t rd v).eng.thr[t].state ≠ .waiting := by
  have hput : (s.putG t rd v).eng.thr[t].state = s.eng.thr[t].state := by
    rw [putG_thr]
    split <;> rfl
  rw [result, advance_thr_self, hput]
  dsimp only
  split
  · decide
  · exact h

end

/-- A thread that begins to wait: past its instruction, WAITING for `w` (R411). -/
def waitingFor (s : State) (t : Fin 8) (w : WaitOn) : State :=
  s.updThr t fun th => { th with pc := pcAdd th.pc 1, state := .waiting, waitOn := some w, bpMet := false }

section
variable {s : State} {t : Fin 8}

theorem beginWait_of_armed (h : s.eng.thr[t].wakeArmed = true) (rd : Fin 16) (w : WaitOn) :
    s.beginWait t rd w = s.waitingFor t w := if_pos h

theorem beginWait_of_unarmed (h : s.eng.thr[t].wakeArmed = false) (rd : Fin 16) (w : WaitOn) :
    s.beginWait t rd w = s.result t rd resTimeout := if_neg (by rw [h]; decide)

theorem waitingFor_thr_self (s : State) (t : Fin 8) (w : WaitOn) :
    (s.waitingFor t w).eng.thr[t] =
      { s.eng.thr[t] with pc := pcAdd s.eng.thr[t].pc 1, state := .waiting, waitOn := some w, bpMet := false } :=
  updThr_thr_self _ _ _

theorem waitingFor_thr_of_ne (s : State) {t x : Fin 8} (h : t ≠ x) (w : WaitOn) : (s.waitingFor t w).eng.thr[x] = s.eng.thr[x] := by
  rw [waitingFor, updThr_thr, if_neg h]

/-! ### wait (R449, R514) -/

theorem waitEvents_of_pending {rd : Fin 16} (h : s.events t &&& s.eng.thr[t].evm ≠ 0) :
    s.waitEvents t rd =
      (s.updThr t fun th => { th with ev := th.ev &&& ~~~ (s.events t &&& s.eng.thr[t].evm) }).result t rd
        ((s.events t &&& s.eng.thr[t].evm).setWidth 32) := if_pos h

theorem waitEvents_of_none {rd : Fin 16} (h : s.events t &&& s.eng.thr[t].evm = 0) :
    s.waitEvents t rd = s.beginWait t rd (.events rd) := if_neg (not_not_intro h)

end

end State

/-! ### The statement on halt, wait and yield -/

/-- Settles O22: halt by what a halt leaves of its thread and of the links to it, wait by its three outcomes. -/
theorem haltWaitAndYield : Obligations.HaltWaitAndYield := by
  unfold Obligations.HaltWaitAndYield
  refine ⟨fun s t code hi => leads_of_canIssue hi rfl ?halt, fun s t rd hi =>
    ⟨fun he => leads_of_canIssue hi rfl ?now, fun he ha => leads_of_canIssue hi rfl ?waits,
      fun he ha => leads_of_canIssue hi rfl ?timeout, exec_of_canIssue (k := (State.advance · t)) hi rfl⟩⟩
  case halt =>
    obtain ⟨p, hp⟩ := (s.advance t).haltThread_thr_self (t := t) (f := fun th => { th with exitCode := code, panRst := false }) rfl
    rw [hp]
    exact ⟨rfl, rfl, rfl, rfl, State.haltThread_locks _ rfl, State.haltThread_parent_ne _, State.haltThread_sys _,
      State.haltThread_tide _⟩
  case now =>
    have hw := (state_of_issues hi.2.1).2
    rw [State.waitEvents_of_pending he]
    refine ⟨fun hrd => State.result_gReg_self _ _ _ _ hrd, ?_, State.result_state _ _ _ _ ?_, State.putG_irq ..⟩
    · rw [State.result, advance_thr_self, putG_thr, updThr_thr_self]
      split <;> rfl
    · rwa [updThr_thr_self]
  case waits =>
    rw [State.waitEvents_of_none he, State.beginWait_of_armed ha, State.waitingFor_thr_self]
    exact ⟨rfl, rfl, rfl⟩
  case timeout =>
    rw [State.waitEvents_of_none he, State.beginWait_of_unarmed ha]
    refine ⟨State.result_state _ _ _ _ (state_of_issues hi.2.1).2, fun n => ?_⟩
    rw [State.result_gReg]
    by_cases h : rd = n
    · simp [h, resTimeout]
    · simp [h, Ne.symm h]

end Sys2Proof.Machine

/-! SUPPORT. The issue of every instruction, breakpoints and the wake compare (chapter 12), and the proofs of their statements. -/

namespace Sys2Proof.Machine

open Sys2Proof.Safety

/-! ### Every instruction is issued by its thread (R431) -/

/-- A bit-field instruction is issued, whether its fields fit or not (R485). -/
theorem State.bitField_issued (s : State) (t : Fin 8) (rd : Reg) (pos wid : BitVec 5) (v : Word) :
    ∃ k, Host.Outcome.next (s.bitField t rd pos wid v) = (.next (s.issue t k) : Out) := by
  unfold State.bitField
  split
  · exact ⟨_, rfl⟩
  · exact ⟨_, rfl⟩

/-- A command of the engine's instruction set has its effect through the issue of its thread. -/
theorem exec_of_issuer {c : Instr} {t : Fin 8} (h : issuer c = some t) (s : State) : ∃ k, exec c s = .next (s.issue t k) := by
  cases c <;> cases h
  case bext | bexts | bins => exact s.bitField_issued ..
  all_goals exact ⟨_, rfl⟩

namespace State

/-! ### Breakpoints (R467) -/

section
variable (s : State) (t : Fin 8)

theorem panFault_thr_of_not_waiting (n : Fin 4) (b : Nat) (h : s.eng.thr[t].state ≠ .waiting) :
    (s.panFault n b).eng.thr[t] = s.eng.thr[t] := (s.wakes_panFault n b).thr t h

theorem meetBreak_thr_self :
    (s.meetBreak t).eng.thr[t] = { s.eng.thr[t] with state := .debug, stepping := false, bpMet := true } := by
  have h : (s.updThr t fun th => { th with state := .debug, stepping := false, bpMet := true }).eng.thr[t] =
      { s.eng.thr[t] with state := .debug, stepping := false, bpMet := true } := updThr_thr_self ..
  rw [meetBreak, panFault_thr_of_not_waiting _ _ _ _ (by rw [h]; exact nofun), h]

theorem meetBreak_fault : bitOf (s.meetBreak t).pans[s.thrPan t].fault fltBrk = true := panFault_fault _ _ _ (by decide)

theorem meetBreak_locks : (s.meetBreak t).eng.locks = s.eng.locks := panFault_eng_locks ..

theorem meetBreak_mem : (s.meetBreak t).mem = s.mem := panFault_mem ..

/-- A comparator of the thread's pan at its PC is a breakpoint that it has not met. -/
theorem atBreakpoint_of_comparator {s : State} {t : Fin 8} (hm : s.eng.thr[t].bpMet = false) {k : Fin 4} {b : Breakpoint}
    (hb : s.eng.bp[k] = some b) (hn : b.pan = s.thrPan t) (hpc : b.pc = s.eng.thr[t].pc) (hw : bitOf b.mask (s.thrLocal t) = true) :
    s.atBreakpoint t = true := by
  rw [atBreakpoint, hm, Bool.not_false, Bool.true_and, List.any_eq_true]
  refine ⟨some b, ?_, by simp [hn, hpc, hw]⟩
  rw [← hb]
  exact Vector.mem_toList_iff.2 (Vector.getElem_mem k.isLt)

end

/-! ### The wake compare (R447) -/

/-- A wait that nothing but the wake compare ends: for a lock or a join, its answer in `rd`. -/
def WaitsIn (s : State) (t : Fin 8) (rd : Fin 16) : Prop :=
  s.eng.thr[t].state = .waiting ∧ ((∃ l, s.eng.thr[t].waitOn = some (.lock rd l)) ∨ ∃ c, s.eng.thr[t].waitOn = some (.join rd c))

section
variable {s : State} {t : Fin 8}

theorem comeToWake_thr : (s.comeToWake t).eng.thr = s.eng.thr := by
  unfold comeToWake
  split <;> rfl

theorem comeToWake_locks : (s.comeToWake t).eng.locks = s.eng.locks := by
  unfold comeToWake
  split <;> rfl

/-- TNOW has come to an armed WAKE, and has not gone back (log 17). -/
theorem comeToWake_tnow (h : s.eng.thr[t].wakeArmed = true) :
    s.eng.thr[t].wake ≤ (s.comeToWake t).eng.tnow ∧ s.eng.tnow ≤ (s.comeToWake t).eng.tnow := by
  rw [comeToWake, h, Bool.true_and]
  split
  · next hlt => exact ⟨BitVec.le_refl _, BitVec.le_of_lt (of_decide_eq_true hlt)⟩
  · next hlt => exact ⟨BitVec.not_lt.1 (of_decide_eq_false (eq_false_of_ne_true hlt)), BitVec.le_refl _⟩

/-- A thread whose wake compare is disarmed. -/
def disarmed (s : State) (t : Fin 8) : State := s.updThr t fun th => { th with wakeArmed := false }

theorem disarmed_thr_self (s : State) (t : Fin 8) : (s.disarmed t).eng.thr[t] = { s.eng.thr[t] with wakeArmed := false } :=
  updThr_thr_self _ _ _

/-- A reached wake compare is disarmed; it leaves TNOW and the locks. -/
theorem wakeReached_effect (h : s.eng.thr[t].wakeArmed = true) :
    (s.wakeReached t).eng.thr[t].wakeArmed = false ∧ (s.wakeReached t).eng.tnow = s.eng.tnow ∧
      (s.wakeReached t).eng.locks = s.eng.locks := by
  have hoff : (s.disarmed t).eng.thr[t].wakeArmed = false := by rw [disarmed_thr_self]
  have hcheck := ((s.disarmed t).checkWait_resumed t t).wakeArmed.trans hoff
  have hif : (!s.eng.thr[t].wakeArmed) ≠ true := by rw [h]; decide
  rw [wakeReached, if_neg hif]
  split
  · dsimp only
    split
    · exact ⟨(endWait_resumed ..).wakeArmed.trans hcheck, (endWait_eng_tnow ..).trans (checkWait_eng_tnow ..),
        (endWait_eng_locks ..).trans (checkWait_eng_locks ..)⟩
    · exact ⟨hcheck, checkWait_eng_tnow .., checkWait_eng_locks ..⟩
  · exact ⟨by rw [updThr_thr_self]; exact hoff, rfl, rfl⟩
  · exact ⟨hoff, rfl, rfl⟩

/-- It ends a wait for a lock or a join with TIMEOUT. -/
theorem wakeReached_of_waitsIn (h : s.eng.thr[t].wakeArmed = true) {rd : Fin 16} (hw : s.WaitsIn t rd) :
    s.wakeReached t = (s.disarmed t).endWait t rd resTimeout := by
  obtain ⟨hs, hon⟩ := hw
  have hoff := s.disarmed_thr_self t
  obtain ⟨w, hw, hcheck, hrd⟩ : ∃ w, s.eng.thr[t].waitOn = some w ∧ (s.disarmed t).checkWait t = s.disarmed t ∧
      s.eng.thr[t].waitRd = rd := by
    rcases hon with ⟨l, hl⟩ | ⟨c, hc⟩
    · exact ⟨_, hl, by simp only [checkWait, hoff, hs, hl], by simp only [Thread.waitRd, hl]⟩
    · exact ⟨_, hc, by simp only [checkWait, hoff, hs, hc], by simp only [Thread.waitRd, hc]⟩
  have hstill : ((s.disarmed t).checkWait t).eng.thr[t].state = .waiting := by rw [hcheck, hoff, hs]
  have hif : (!s.eng.thr[t].wakeArmed) ≠ true := by rw [h]; decide
  rw [wakeReached, if_neg hif, hs, hw]
  refine (if_pos (beq_iff_eq.2 hstill)).trans ?_
  rw [hrd]
  exact congrArg (fun u => endWait u t rd resTimeout) hcheck

end

end State

/-! ### The statements -/

/-- Settles O9: every instruction goes through the issue of its thread, whose three outcomes apart from the effect these are. -/
theorem issueNeedsAReadyThreadInReach : Obligations.IssueNeedsAReadyThreadInReach := by
  unfold Obligations.IssueNeedsAReadyThreadInReach
  refine ⟨fun c s t hc h => ?idle, fun c s t hc hr hi hb => ?meets, fun c s t hc hr hi hb ho => ?reach⟩ <;>
    obtain ⟨k, hk⟩ := exec_of_issuer hc s
  case idle => rw [hk, issue_of_not_ready s t k h]
  case meets =>
    refine ⟨s.meetBreak t, by rw [hk, issue_of_breakpoint s t k hr hi hb], ?_⟩
    dsimp only
    rw [s.meetBreak_thr_self t]
    exact ⟨rfl, rfl, s.meetBreak_fault t, s.meetBreak_locks t, s.meetBreak_mem t⟩
  case reach => rw [hk, issue_of_out_of_reach s t k hr hi hb ho]

/-- Settles O24: the wake compare by what it disarms and which wait it ends, a breakpoint by the comparator that it meets. -/
theorem wakeCompareAndBreakpoint : Obligations.WakeCompareAndBreakpoint := by
  unfold Obligations.WakeCompareAndBreakpoint
  refine fun s t hr => ⟨fun ha => ?wake, fun hs hm ⟨k, b, hb, hn, hpc, hw⟩ => ?meets⟩
  case wake =>
    have hthr : (s.comeToWake t).eng.thr = s.eng.thr := State.comeToWake_thr
    have ha' : (s.comeToWake t).eng.thr[t].wakeArmed = true := by rw [hthr, ha]
    obtain ⟨hoff, htnow, hlocks⟩ := State.wakeReached_effect ha'
    obtain ⟨hwake, hold⟩ := State.comeToWake_tnow ha
    have hends : ∀ rd, s.WaitsIn t rd → ((s.comeToWake t).wakeReached t).eng.thr[t].state ≠ .waiting ∧
        ((s.comeToWake t).wakeReached t).eng.thr[t].waitOn = none ∧
        (rd ≠ 0 → ((s.comeToWake t).wakeReached t).gReg t rd = 0xFFFFFF01) := by
      intro rd hw
      have hw' : (s.comeToWake t).WaitsIn t rd := by rwa [State.WaitsIn, hthr]
      rw [State.wakeReached_of_waitsIn ha' hw']
      obtain ⟨hstate, hon⟩ := ((s.comeToWake t).disarmed t).endWait_state t rd resTimeout
      exact ⟨hstate, hon, fun hrd => by rw [State.endWait_gReg, gReg_putG, if_pos ⟨rfl, rfl, hrd⟩]; rfl⟩
    refine ⟨_, congrArg Host.Outcome.next (if_pos hr), hoff, ?_, ?_, hlocks.trans State.comeToWake_locks,
      fun rd l hs hl => hends rd ⟨hs, .inl ⟨l, hl⟩⟩, fun rd c hs hc => hends rd ⟨hs, .inr ⟨c, hc⟩⟩⟩
    · rwa [htnow]
    · rwa [htnow]
  case meets =>
    have hat : (s.coreRuns && s.eng.thr[t].state == .running && s.atBreakpoint t) = true := by
      rw [hr, hs, State.atBreakpoint_of_comparator hm hb hn hpc hw]; rfl
    refine ⟨s.meetBreak t, congrArg Host.Outcome.next (if_pos hat), ?_⟩
    rw [s.meetBreak_thr_self t]
    exact ⟨rfl, rfl, s.meetBreak_fault t, s.meetBreak_mem t⟩

end Sys2Proof.Machine

/-! SUPPORT. fork, join and the lock instructions by their outcomes (chapters 11, 12, 14), and the proofs of their statements. -/

namespace Sys2Proof.Machine

open Sys2Proof.Safety

/-- The numbers a pan owns, rising, as entries of the table. -/
theorem map_idx_owned (count : Nat) [NeZero count] (owner : Nat → Fin 4) (n : Fin 4) :
    (owned count owner n).map (idx count) = (List.finRange count).filter fun k => owner k.val == n := by
  rw [owned, ← List.map_coe_finRange_eq_range, List.filter_map, List.map_map]
  exact (List.map_congr_left fun k _ => Fin.ofNat_val_eq_self k).trans (List.map_id _)

theorem startable_iff (th : Thread) : th.startable = true ↔ th.state = .halted ∧ th.parent = none := by
  simp [Thread.startable]

namespace State

/-! ### fork (R444, R511) -/

theorem poolThread_eq (s : State) (n : Fin 4) :
    s.poolThread n = Fin.find? fun t => decide (s.thrOwner t.val = n ∧ s.eng.thr[t].startable = true) := by
  simp only [poolThread, panThreads, map_idx_owned, List.find?_filter, beq_iff_eq, Fin.find?_eq_find?_finRange]

section
variable {s : State} {n : Fin 4}

theorem poolThread_eq_some {c : Fin 8} (hc : s.thrOwner c.val = n ∧ s.eng.thr[c].state = .halted ∧ s.eng.thr[c].parent = none)
    (hmin : ∀ d : Fin 8, d < c → ¬(s.thrOwner d.val = n ∧ s.eng.thr[d].state = .halted ∧ s.eng.thr[d].parent = none)) :
    s.poolThread n = some c := by
  simp only [poolThread_eq, Fin.find?_eq_some_iff, startable_iff]
  exact ⟨decide_eq_true hc, fun d hd => decide_eq_false (hmin d hd)⟩

theorem poolThread_eq_none
    (h : ∀ d : Fin 8, ¬(s.thrOwner d.val = n ∧ s.eng.thr[d].state = .halted ∧ s.eng.thr[d].parent = none)) :
    s.poolThread n = none := by
  simp only [poolThread_eq, Fin.find?_eq_none_iff, startable_iff]
  exact fun d => decide_eq_false (h d)

end

/-- Bits [31:15] of a location are zero. -/
theorem location_ok_iff (v : Word) : bitsOf v 15 17 = 0 ↔ v.toNat < 32768 := by
  have := v.isLt
  simp only [bitsOf, Nat.shiftRight_eq_div_pow]
  omega

/-- The child that fork starts at `pc` with an argument (R444). -/
def forked (s : State) (t c : Fin 8) (pc : BitVec 15) (arg : Word) : State :=
  (s.updThr c fun th => { th.begin pc (s.eng.tnow + 1) with parent := some t }).putG c 1 arg

section
variable {s : State} {t : Fin 8} {rd ra rc : Fin 16}

theorem fork_of_illegal (h : 32768 ≤ (s.gReg t ra).toNat) : s.fork t rd ra rc = s.threadFault t fcIllegal :=
  if_pos fun e => absurd ((location_ok_iff _).1 e) (Nat.not_lt.2 h)

theorem fork_of_empty_pool (h : (s.gReg t ra).toNat < 32768) (hp : s.poolThread (s.thrPan t) = none) :
    s.fork t rd ra rc = s.result t rd resNone := by
  rw [fork, if_neg (not_not_intro ((location_ok_iff _).2 h)), hp]

theorem fork_of_pool {c : Fin 8} (h : (s.gReg t ra).toNat < 32768) (hp : s.poolThread (s.thrPan t) = some c) :
    s.fork t rd ra rc =
      (s.forked t c ((s.gReg t ra).setWidth 15) (s.gReg t rc)).result t rd (BitVec.ofNat 32 (s.thrLocal c)) := by
  rw [fork, if_neg (not_not_intro ((location_ok_iff _).2 h)), hp]
  rfl

end

section
variable (s : State) (t c x : Fin 8) (pc : BitVec 15) (arg : Word)

theorem forked_thr_self : (s.forked t c pc arg).eng.thr[c] =
    { s.eng.thr[c].begin pc (s.eng.tnow + 1) with parent := some t, g := (Vector.replicate 16 0).set 1 arg } := by
  rw [forked, putG_thr, if_pos ⟨rfl, by decide⟩, updThr_thr_self]
  rfl

theorem forked_gReg_self (n : Fin 16) : (s.forked t c pc arg).gReg c n = if n = 1 then arg else 0 := by
  rw [forked, gReg_putG]
  by_cases h : n = 1
  · rw [if_pos ⟨rfl, h.symm, by decide⟩, if_pos h]
  · rw [if_neg fun k => h k.2.1.symm, if_neg h, gReg, updThr_thr_self]
    split
    · rfl
    · exact Vector.getElem_replicate ..

theorem forked_gReg_of_ne (h : c ≠ x) (n : Fin 16) : (s.forked t c pc arg).gReg x n = s.gReg x n := by
  rw [forked, gReg_putG, if_neg fun k => h k.1, gReg, updThr_thr, if_neg h]
  rfl

end

/-! ### join (R446, R512) -/

section
variable {s : State} {t c : Fin 8} {v : Word}

theorem childOf_of_child (hn : (s.panThreads (s.thrPan t))[v.toNat]? = some c.val) (hp : s.eng.thr[c].parent = some t)
    (hne : c ≠ t) : s.childOf t v = some c := by
  have hc : idx 8 c.val = c := Fin.ofNat_val_eq_self c
  simp only [childOf, hn, hc]
  exact if_pos ⟨hp, hne⟩

theorem childOf_of_no_child (h : (s.panThreads (s.thrPan t))[v.toNat]? = none ∨
    (s.panThreads (s.thrPan t))[v.toNat]? = some t.val ∨
    ∃ c : Fin 8, (s.panThreads (s.thrPan t))[v.toNat]? = some c.val ∧ s.eng.thr[c].parent ≠ some t) : s.childOf t v = none := by
  have hidx : ∀ c : Fin 8, idx 8 c.val = c := Fin.ofNat_val_eq_self
  rcases h with h | h | ⟨c, h, hp⟩
  · simp only [childOf, h]
  · simp only [childOf, h, hidx]
    exact if_neg fun k => k.2 rfl
  · simp only [childOf, h, hidx]
    exact if_neg fun k => hp k.1

variable {rd ra : Fin 16}

theorem join_of_no_child (h : s.childOf t (s.gReg t ra) = none) : s.join t rd ra = s.result t rd resNotChild := by
  rw [join, h]

theorem join_of_halted (h : s.childOf t (s.gReg t ra) = some c) (hs : s.eng.thr[c].state = .halted) :
    s.join t rd ra = (s.updThr c fun th => { th with parent := none }).result t rd s.eng.thr[c].joinResult := by
  rw [join, h]
  exact if_pos hs

theorem join_of_live (h : s.childOf t (s.gReg t ra) = some c) (hs : s.eng.thr[c].state ≠ .halted) :
    s.join t rd ra = s.beginWait t rd (.join rd c) := by
  rw [join, h]
  exact if_neg hs

end

/-! ### Locks taken (R408, R409, R516) -/

section
variable {s : State} {t : Fin 8} {rd : Fin 16} {n : Nat} {l : Fin 32} {busy : Fin 32 → State → State}

theorem lockGlobal_of_own (h : (s.panLocks (s.thrPan t))[n]? = some l.val) : s.lockGlobal t n = some l := by
  rw [lockGlobal, h]
  exact congrArg some (Fin.ofNat_val_eq_self l)

theorem lockOrderBroken_iff : s.lockOrderBroken t l = true ↔ ∃ k : Fin 32, l ≤ k ∧ s.eng.locks[k] = some t := by
  simp only [lockOrderBroken, List.any_eq_true, mem_locksOf, decide_eq_true_eq]
  exact exists_congr fun k => and_comm

theorem takeLock_of_foreign (h : (s.panLocks (s.thrPan t))[n]? = none) : s.takeLock t rd n busy = s.threadFault t fcForeign := by
  rw [takeLock, lockGlobal, h]
  rfl

variable (h : (s.panLocks (s.thrPan t))[n]? = some l.val)
include h

theorem takeLock_of_order (ho : ∃ k : Fin 32, l ≤ k ∧ s.eng.locks[k] = some t) :
    s.takeLock t rd n busy = s.threadFault t fcLockOrder := by
  rw [takeLock, lockGlobal_of_own h]
  exact if_pos (lockOrderBroken_iff.2 ho)

variable (ho : ∀ k : Fin 32, l ≤ k → s.eng.locks[k] ≠ some t)
include ho

theorem takeLock_of_free (hf : s.eng.locks[l] = none) : s.takeLock t rd n busy = (s.setLock l (some t)).result t rd 0 := by
  rw [takeLock, lockGlobal_of_own h]
  refine (if_neg fun hb => ?_).trans (if_pos (by rw [hf]; rfl))
  obtain ⟨k, hk, e⟩ := lockOrderBroken_iff.1 hb
  exact ho k hk e

theorem takeLock_of_taken (hf : s.eng.locks[l] ≠ none) : s.takeLock t rd n busy = busy l s := by
  rw [takeLock, lockGlobal_of_own h]
  refine (if_neg fun hb => ?_).trans (if_neg fun hn => hf (Option.isNone_iff_eq_none.1 hn))
  obtain ⟨k, hk, e⟩ := lockOrderBroken_iff.1 hb
  exact ho k hk e

end

/-! ### Locks released (R409, R457) -/

section
variable {s : State} {t : Fin 8} {rd : Fin 16} {n : Nat} {l : Fin 32}

theorem relLock_of_not_held (h : (s.panLocks (s.thrPan t))[n]? = some l.val) (hl : s.eng.locks[l] ≠ some t) :
    s.relLock t rd n = s.result t rd resNotHeld := by
  rw [relLock, lockGlobal_of_own h]
  exact if_neg hl

theorem relLock_of_held (h : (s.panLocks (s.thrPan t))[n]? = some l.val) (hl : s.eng.locks[l] = some t) :
    s.relLock t rd n = (s.releaseLock l).result t rd 0 := by
  rw [relLock, lockGlobal_of_own h]
  exact if_pos hl

theorem releaseLock_of_no_waiter (h : s.waiters l = []) : s.releaseLock l = s.setLock l none := by
  rw [releaseLock, h]
  rfl

theorem releaseLock_of_best {w : Fin 8} {r : Fin 16} (hs : s.eng.thr[w].state = .waiting)
    (hw : s.eng.thr[w].waitOn = some (.lock r l))
    (hb : ∀ x ∈ s.waiters l, x ≠ w → s.eng.thr[x].prio < s.eng.thr[w].prio ∨ (s.eng.thr[x].prio = s.eng.thr[w].prio ∧ w < x)) :
    s.releaseLock l = (s.setLock l (some w)).endWait w r 0 := by
  have hrise : (s.waiters l).Pairwise (· < ·) := (List.pairwise_lt_finRange 8).filter _
  have hrd : s.eng.thr[w].waitRd = r := by simp only [Thread.waitRd, hw]
  rw [releaseLock, bestWaiter_of_best hrise (mem_waiters.2 ⟨hs, r, hw⟩) hb]
  dsimp only
  rw [hrd]

end

end State

/-! ### The statements -/

/-- Settles O21: fork by the first thread of the pool, join by the child that its register names. -/
theorem forkAndJoin : Obligations.ForkAndJoin := by
  unfold Obligations.ForkAndJoin
  refine ⟨fun s t rd ra rc hi => ⟨fun hv => ?illegal, fun hv hp => ?empty, fun hv c hc hmin => leads_of_canIssue hi rfl ?forks⟩,
    fun s t rd ra hi => ⟨fun c hn hne hp => ⟨fun hs => leads_of_canIssue hi rfl ?result, fun hs ha => leads_of_canIssue hi rfl ?waits,
      fun hs ha => ?timeout⟩, fun h => ?stranger⟩⟩
  case illegal => exact (exec_of_canIssue hi rfl).trans (congrArg _ (State.fork_of_illegal hv))
  case empty => exact (exec_of_canIssue hi rfl).trans (congrArg _ (State.fork_of_empty_pool hv (State.poolThread_eq_none hp)))
  case forks =>
    have htc : t ≠ c := fun e => (state_of_issues hi.2.1).1 (e ▸ hc.2.1)
    rw [State.fork_of_pool hv (State.poolThread_eq_some hc hmin), State.result_thr_of_ne _ _ _ _ _ htc, State.forked_thr_self]
    refine ⟨rfl, ?_, rfl, rfl, rfl, rfl, rfl, rfl, rfl, rfl, fun n => ?_, fun hrd => State.result_gReg_self _ _ _ _ hrd,
      fun n hn => ?_, ?_⟩
    · exact (BitVec.toNat_setWidth ..).trans (Nat.mod_eq_of_lt hv)
    · rw [State.result_gReg_of_ne _ _ _ _ _ _ htc, State.forked_gReg_self]
    · rw [State.result_gReg, if_neg fun k => hn k.2.1.symm, State.forked_gReg_of_ne _ _ _ _ _ _ htc.symm]
    · exact (State.putG_mem ..).trans (State.putG_mem ..)
  case result =>
    rw [State.join_of_halted (State.childOf_of_child hn hp hne) hs, State.result_thr_of_ne _ _ _ _ _ hne.symm, updThr_thr_self]
    refine ⟨rfl, hs, fun hrd => ?_⟩
    rw [State.result_gReg_self _ _ _ _ hrd]
    simp only [Thread.joinResult, bne_iff_ne]
    rfl
  case waits =>
    rw [State.join_of_live (State.childOf_of_child hn hp hne) hs, State.beginWait_of_armed ha, State.waitingFor_thr_self,
      State.waitingFor_thr_of_ne _ hne.symm]
    exact ⟨rfl, rfl, rfl⟩
  case timeout =>
    exact (exec_of_canIssue hi rfl).trans
      (congrArg _ ((State.join_of_live (State.childOf_of_child hn hp hne) hs).trans (State.beginWait_of_unarmed ha ..)))
  case stranger => exact (exec_of_canIssue hi rfl).trans (congrArg _ (State.join_of_no_child (State.childOf_of_no_child h)))

/-- lk.acq and lk.try differ in what they do about a lock that another thread holds. -/
theorem lkAcq_lkTry_of_takeLock {s u : State} {t : Fin 8} {rd : Fin 16} {n : Fin 32} (hi : canIssue s t)
    (h : ∀ busy, s.takeLock t rd n.val busy = u) : exec (.lkAcq t rd n) s = .next u ∧ exec (.lkTry t rd n) s = .next u :=
  ⟨(exec_of_canIssue hi rfl).trans (congrArg _ (h _)), (exec_of_canIssue hi rfl).trans (congrArg _ (h _))⟩

/-- Settles O23: a lock taken by the outcomes of `takeLock`, a lock released by who waits for it. -/
theorem locks : Obligations.Locks := by
  unfold Obligations.Locks
  refine ⟨fun s t rd n hi => ⟨fun hn => lkAcq_lkTry_of_takeLock hi fun _ => State.takeLock_of_foreign hn, fun l hn =>
      ⟨fun ho => lkAcq_lkTry_of_takeLock hi fun _ => State.takeLock_of_order hn ho, fun ho =>
        ⟨fun hf => ⟨_, lkAcq_lkTry_of_takeLock hi fun _ => State.takeLock_of_free hn ho hf, ?free⟩,
          fun hf => ⟨?busy, fun ha => leads_of_canIssue hi rfl ?waits, fun ha => ?timeout⟩⟩⟩⟩,
    fun s t rd n l hi hn => ⟨fun hl => ?notHeld, fun hl => leads_of_canIssue hi rfl ?released⟩⟩
  case free =>
    rw [State.result_locks, State.setLock]
    refine ⟨by rw [set_get, if_pos rfl], fun k hk => by rw [set_get, if_neg hk.symm], fun hrd => State.result_gReg_self _ _ _ _ hrd⟩
  case busy => exact (exec_of_canIssue hi rfl).trans (congrArg _ (State.takeLock_of_taken hn ho hf))
  case waits =>
    rw [State.takeLock_of_taken hn ho hf, State.beginWait_of_armed ha, State.waitingFor_thr_self]
    exact ⟨rfl, rfl, rfl⟩
  case timeout =>
    exact (exec_of_canIssue hi rfl).trans (congrArg _ ((State.takeLock_of_taken hn ho hf).trans (State.beginWait_of_unarmed ha ..)))
  case notHeld => exact (exec_of_canIssue hi rfl).trans (congrArg _ (State.relLock_of_not_held hn hl))
  case released =>
    rw [State.relLock_of_held hn hl, State.result_locks]
    refine ⟨fun hrd => State.result_gReg_self _ _ _ _ hrd, fun k hk => State.releaseLock_lock_of_ne _ _ hk.symm, fun hw => ?_,
      fun w r hs hw hb => ?_⟩
    · have hnone : s.waiters l = [] := List.eq_nil_iff_forall_not_mem.2 fun x hx => hw x (State.mem_waiters.1 hx)
      rw [State.releaseLock_of_no_waiter hnone, State.setLock, set_get, if_pos rfl]
    · have htw : t ≠ w := fun e => (state_of_issues hi.2.1).2 (e ▸ hs)
      rw [State.releaseLock_of_best hs hw fun x hx => hb x (State.mem_waiters.1 hx), State.result_thr_of_ne _ _ _ _ _ htw,
        State.endWait_eng_locks, State.result_gReg_of_ne _ _ _ _ _ _ htw, State.endWait_gReg, State.setLock, set_get, if_pos rfl]
      obtain ⟨hstate, hon⟩ := State.endWait_state _ w r 0
      exact ⟨rfl, hstate, hon, fun hr => by rw [gReg_putG, if_pos ⟨rfl, rfl, hr⟩]⟩

end Sys2Proof.Machine

/-! SUPPORT. The engine's registers: GO, KICK, START, HALT, the end of the authentication (chapters 12, 21), and the proof of their statement. -/

namespace Sys2Proof.Machine

open Sys2Proof.Safety

/-! ### Threads that start (R441, R443) -/

theorem Thread.writeCtl_like (th : Thread) (v : Word) :
    ∃ q k, th.writeCtl v = { th with prio := BitVec.ofNat 3 (bitsOf v 0 3), strict := bitOf v 3, qdyn := q, quota := k } := by
  unfold Thread.writeCtl
  split <;> exact ⟨_, _, rfl⟩

theorem Thread.writeCtl_startable (th : Thread) (v : Word) : (th.writeCtl v).startable = th.startable := by
  obtain ⟨q, k, h⟩ := th.writeCtl_like v
  rw [h]
  rfl

namespace State

section
variable {s : State} {t : Fin 8} {pc : BitVec 15}

theorem startThread_of_startable (hl : s.sys.panLock = true) (ht : s.eng.thr[t].startable = true) :
    (s.startThread t pc).2 = s.updThr t fun th => th.begin pc (s.eng.tnow + 1) := by
  rw [startThread, hl, ht]
  rfl

theorem startThread_of_not_startable (h : s.sys.panLock = false ∨ s.eng.thr[t].startable = false) : (s.startThread t pc).2 = s := by
  rw [startThread]
  rcases h with h | h <;> simp only [h, Bool.false_and, Bool.and_false] <;> rfl

theorem startThread_thr_of_ne {x : Fin 8} (h : t ≠ x) : (s.startThread t pc).2.eng.thr[x] = s.eng.thr[x] := by
  unfold startThread
  split
  · rw [updThr_thr, if_neg h]
  · rfl

end

/-! ### GO (R443) -/

/-- From `s` to `u` threads start, and with them stock images; nothing else happens. -/
def Starts (s u : State) : Prop := u = { s with eng := { s.eng with thr := u.eng.thr, stock := u.eng.stock } }

theorem Starts.refl (s : State) : Starts s s := rfl

theorem Starts.trans {s u v : State} (h : Starts s u) (k : Starts u v) : Starts s v := by
  rw [Starts] at h ⊢
  rw [k, h]

theorem starts_startThread (s : State) (t : Fin 8) (pc : BitVec 15) : Starts s (s.startThread t pc).2 := by
  unfold startThread
  split <;> rfl

/-- Where the first thread of pan `n` starts. -/
def goPc (s : State) (n : Fin 4) : BitVec 15 := if bitOf s.eng.romPan n then 0x4000 else 0

theorem goThread_thr (s : State) (n : Fin 4) (t x : Fin 8) :
    (s.goThread n t).eng.thr[x] = (s.startThread t (s.goPc n)).2.eng.thr[x] := by
  unfold goThread goPc
  split
  · dsimp only
    split <;> rfl
  · rfl

theorem starts_goThread (s : State) (n : Fin 4) (t : Fin 8) : Starts s (s.goThread n t) := by
  unfold goThread
  split
  · dsimp only
    split
    · exact (s.starts_startThread t 0x4000).trans rfl
    · exact s.starts_startThread t 0x4000
  · exact s.starts_startThread t 0

/-- GO in one pan. -/
def goPan (s : State) (n : Fin 4) : State :=
  if s.panEn n then
    match (s.panThreads n).head? with
    | some t => s.goThread n (idx 8 t)
    | none => s
  else s

theorem goNow_eq (s : State) :
    s.goNow = [0, 1, 2, 3].foldl goPan { s with eng := { s.eng with go := true, started := true, auth := false } } := rfl

theorem starts_goPan (s : State) (n : Fin 4) : Starts s (s.goPan n) := by
  unfold goPan
  split
  · split
    · exact s.starts_goThread ..
    · exact .refl s
  · exact .refl s

theorem starts_foldl_goPan (s : State) (ns : List (Fin 4)) : Starts s (ns.foldl goPan s) := by
  induction ns generalizing s with
  | nil => exact .refl s
  | cons n ns ih => exact (s.starts_goPan n).trans (ih _)

/-- GO in pan `n` leaves the threads of the other pans. -/
theorem goPan_thr_of_ne (s : State) {n : Fin 4} {x : Fin 8} (h : s.thrOwner x.val ≠ n) : (s.goPan n).eng.thr[x] = s.eng.thr[x] := by
  unfold goPan
  split
  · split
    · next t ht =>
      have hmem : t ∈ s.panThreads n := List.mem_of_head? ht
      obtain ⟨hlt, how⟩ := List.mem_filter.1 hmem
      rw [goThread_thr, startThread_thr_of_ne]
      intro e
      refine h ?_
      rw [← e, idx, Fin.val_ofNat, Nat.mod_eq_of_lt (List.mem_range.1 hlt)]
      exact eq_of_beq how
    · rfl
  · rfl

/-- Pan `n` is enabled, and its lowest thread `t` can start. -/
structure GoesIn (s : State) (n : Fin 4) (t : Fin 8) : Prop where
  lock : s.sys.panLock = true
  en : s.panEn n = true
  head : (s.panThreads n).head? = some t.val
  startable : s.eng.thr[t].startable = true

theorem GoesIn.owner {s : State} {n : Fin 4} {t : Fin 8} (h : GoesIn s n t) : s.thrOwner t.val = n := by
  simpa using (List.mem_filter.1 (List.mem_of_head? h.head)).2

theorem GoesIn.of_starts {s u : State} {n : Fin 4} {t : Fin 8} (h : GoesIn s n t) (hu : Starts s u)
    (ht : u.eng.thr[t] = s.eng.thr[t]) : GoesIn u n t where
  lock := by rw [hu]; exact h.lock
  en := by rw [hu]; exact h.en
  head := by rw [hu]; exact h.head
  startable := by rw [ht]; exact h.startable

theorem GoesIn.goPan_thr {s : State} {n : Fin 4} {t : Fin 8} (h : GoesIn s n t) :
    (s.goPan n).eng.thr[t] = s.eng.thr[t].begin (s.goPc n) (s.eng.tnow + 1) := by
  have hidx : idx 8 t.val = t := Fin.ofNat_val_eq_self t
  rw [goPan, if_pos h.en, h.head]
  dsimp only
  rw [goThread_thr, hidx, startThread_of_startable h.lock h.startable, updThr_thr_self]

theorem foldl_goPan_thr_of_not_mem (s : State) {x : Fin 8} {ns : List (Fin 4)} (h : s.thrOwner x.val ∉ ns) :
    (ns.foldl goPan s).eng.thr[x] = s.eng.thr[x] := by
  induction ns generalizing s with
  | nil => rfl
  | cons n ns ih =>
    obtain ⟨hn, hns⟩ := not_or.1 (mt List.mem_cons.2 h)
    rw [List.foldl_cons, ih, s.goPan_thr_of_ne hn]
    rw [s.starts_goPan n]
    exact hns

theorem GoesIn.foldl_goPan_thr {s : State} {n : Fin 4} {t : Fin 8} {ns : List (Fin 4)} (h : GoesIn s n t) (hd : ns.Nodup)
    (hn : n ∈ ns) : (ns.foldl goPan s).eng.thr[t] = s.eng.thr[t].begin (s.goPc n) (s.eng.tnow + 1) := by
  induction ns generalizing s with
  | nil => cases hn
  | cons m ns ih =>
    obtain ⟨hm, hd⟩ := List.nodup_cons.1 hd
    by_cases hmn : m = n
    · subst hmn
      rw [List.foldl_cons, foldl_goPan_thr_of_not_mem, h.goPan_thr]
      rw [s.starts_goPan m]
      exact fun k => hm (h.owner ▸ k)
    · have hsame : (s.goPan m).eng.thr[t] = s.eng.thr[t] := s.goPan_thr_of_ne fun e => hmn (e.symm.trans h.owner)
      rw [List.foldl_cons, ih (h.of_starts (s.starts_goPan m) hsame) hd ((List.mem_cons.1 hn).resolve_left (Ne.symm hmn)), hsame,
        s.starts_goPan m]
      rfl

/-- After GO each enabled pan's lowest thread runs from its start. -/
theorem GoesIn.goNow_thr {s : State} {n : Fin 4} {t : Fin 8} (h : GoesIn s n t) :
    s.goNow.eng.thr[t] = s.eng.thr[t].begin (s.goPc n) (s.eng.tnow + 1) := by
  have h' : GoesIn { s with eng := { s.eng with go := true, started := true, auth := false } } n t :=
    ⟨h.lock, h.en, h.head, h.startable⟩
  rw [goNow_eq]
  exact h'.foldl_goPan_thr (by decide) (by fin_cases n <;> decide)

theorem goNow_eng (s : State) :
    s.goNow.eng = { s.eng with go := true, started := true, auth := false, thr := s.goNow.eng.thr, stock := s.goNow.eng.stock } :=
  congrArg State.eng (starts_foldl_goPan { s with eng := { s.eng with go := true, started := true, auth := false } } [0, 1, 2, 3])

/-! ### ENG_CTL (R443, R461, R728) -/

section
variable (s : State) (v : Word)

/-- A KICK leaves the engine but for the watchdog's count. -/
theorem kick_same {β : Type} (F : Engine → β) (hF : ∀ (e : Engine) n, F { e with wdLeft := n } = F e) :
    F s.kick.eng = F s.eng := by
  unfold kick
  split
  · exact hF ..
  · rfl

theorem writeEngCtl_same {β : Type} (F : Engine → β) (hF : ∀ (e : Engine) n, F { e with wdLeft := n } = F e) :
    F (s.writeEngCtl v).eng = F (if bitOf v 0 then (s.updEng (·.writeCtl v)).writeGo else s.updEng (·.writeCtl v)).eng := by
  rw [writeEngCtl]
  split
  · exact kick_same _ F hF
  · rfl

variable {s} {v}

theorem writeGo_of_unlocked (h : s.sys.panLock = false) : s.writeGo = s := by simp [writeGo, h]

theorem writeGo_of_ready (hl : s.sys.panLock = true) (hs : s.sys.scrub = false) (hg : s.eng.go = false) (ha : s.eng.auth = false)
    (hr : s.otp.romOnly = false) (hq : s.otp.authReq = false) : s.writeGo = s.goNow := by
  simp [writeGo, hl, hs, hg, ha, hr, hq]

end

end State

section
variable (e : Engine) (v : Word)

theorem Engine.writeCtl_thr : (e.writeCtl v).thr = e.thr := by
  unfold Engine.writeCtl
  dsimp only
  split <;> rfl

theorem Engine.writeCtl_go : (e.writeCtl v).go = e.go := by
  unfold Engine.writeCtl
  dsimp only
  split <;> rfl

theorem Engine.writeCtl_auth : (e.writeCtl v).auth = e.auth := by
  unfold Engine.writeCtl
  dsimp only
  split <;> rfl

theorem Engine.writeCtl_tnow : (e.writeCtl v).tnow = e.tnow := by
  unfold Engine.writeCtl
  dsimp only
  split <;> rfl

variable {e}

/-- ROMPAN is written while GO does not stand. -/
theorem Engine.writeCtl_romPan (h : e.go = false) : (e.writeCtl v).romPan = BitVec.ofNat 4 (bitsOf v 1 4) := by
  unfold Engine.writeCtl
  dsimp only
  split <;> exact if_neg (by rw [h]; decide)

/-- With the watchdog on, its period and its enable stand (R462). -/
theorem Engine.writeCtl_wd (h : e.wdEn = true) : (e.writeCtl v).wdEn = true ∧ (e.writeCtl v).wdt = e.wdt := by
  have hon : (bitOf v 5 && !e.wdEn) ≠ true := by rw [h]; simp
  rw [Engine.writeCtl]
  dsimp only
  rw [if_neg hon]
  refine ⟨h, ?_⟩
  dsimp only
  split
  · rfl
  · next hbad => simp_all

end

/-! ### ENG_TCTLn (R441, R442) -/

namespace State

section
variable (s : State) (t : Fin 8) (v : Word)

/-- The state in which START or HALT acts: the other fields of its word written. -/
def tctlSet (s : State) (t : Fin 8) (v : Word) : State := s.updThr t fun th => th.writeCtl v

theorem writeTctl_start (h5 : bitOf v 5 = true) (h6 : bitOf v 6 = false) :
    s.writeTctl t v = ((s.tctlSet t v).startThread t s.eng.thr[t].pc).2 := by
  rw [writeTctl, h5, h6]
  rfl

theorem writeTctl_halt (h5 : bitOf v 5 = false) (h6 : bitOf v 6 = true) : s.writeTctl t v = (s.tctlSet t v).haltWrite t := by
  rw [writeTctl, h5, h6]
  rfl

theorem tctlSet_thr_self : (s.tctlSet t v).eng.thr[t] = s.eng.thr[t].writeCtl v := updThr_thr_self _ _ _

theorem tctlSet_thr_of_ne {x : Fin 8} (h : t ≠ x) : (s.tctlSet t v).eng.thr[x] = s.eng.thr[x] := by
  rw [tctlSet, updThr_thr, if_neg h]

end

section
variable {s : State} {t : Fin 8} {v : Word}

theorem writeTctl_of_startable (h5 : bitOf v 5 = true) (h6 : bitOf v 6 = false) (hl : s.sys.panLock = true)
    (ht : s.eng.thr[t].startable = true) :
    (s.writeTctl t v).eng.thr[t] = (s.eng.thr[t].writeCtl v).begin s.eng.thr[t].pc (s.eng.tnow + 1) ∧
      ∀ x, x ≠ t → (s.writeTctl t v).eng.thr[x] = s.eng.thr[x] := by
  have ht' : (s.tctlSet t v).eng.thr[t].startable = true := by rw [tctlSet_thr_self, Thread.writeCtl_startable, ht]
  have hl' : (s.tctlSet t v).sys.panLock = true := hl
  rw [writeTctl_start s t v h5 h6, startThread_of_startable hl' ht']
  refine ⟨?_, fun x hx => ?_⟩
  · rw [updThr_thr_self, tctlSet_thr_self]
    rfl
  · rw [updThr_thr, if_neg hx.symm, tctlSet_thr_of_ne _ _ _ hx.symm]

theorem writeTctl_of_not_startable (h5 : bitOf v 5 = true) (h6 : bitOf v 6 = false)
    (h : s.sys.panLock = false ∨ s.eng.thr[t].startable = false) : (s.writeTctl t v).eng.thr[t] = s.eng.thr[t].writeCtl v := by
  rw [writeTctl_start s t v h5 h6, startThread_of_not_startable, tctlSet_thr_self]
  rwa [tctlSet_thr_self, Thread.writeCtl_startable]

theorem writeTctl_of_not_halted (h5 : bitOf v 5 = false) (h6 : bitOf v 6 = true) (h : s.eng.thr[t].state ≠ .halted) :
    (∃ p, (s.writeTctl t v).eng.thr[t] = { (s.eng.thr[t].writeCtl v).stop with panRst := false, parent := p }) ∧
      ∀ l : Fin 32, (s.writeTctl t v).eng.locks[l] ≠ some t := by
  have hst : (s.tctlSet t v).eng.thr[t].state ≠ .halted := by
    obtain ⟨q, k, hq⟩ := s.eng.thr[t].writeCtl_like v
    rwa [tctlSet_thr_self, hq]
  rw [writeTctl_halt s t v h5 h6, haltWrite, if_neg hst]
  obtain ⟨p, hp⟩ := (s.tctlSet t v).haltThread_thr_self (t := t) (f := fun th => { th with panRst := false }) rfl
  exact ⟨⟨p, by rw [hp, tctlSet_thr_self]⟩, haltThread_locks _ rfl⟩

end

theorem bitOf_romPan (v : Word) (n : Fin 4) : bitOf (BitVec.ofNat 4 (bitsOf v 1 4)) n.val = v.getLsbD (1 + n.val) := by
  rw [bitOf, BitVec.getLsbD_ofNat, testBit_bitsOf]
  simp [n.isLt]

/-! ### Served writes of ENG_CTL and ENG_TCTLn -/

section
variable {s : State} {p : Party} {via : Via} {v : Word} {P : State → Prop}

theorem writing_scrub (s : State) (p : Party) (key : Option (Fin 5)) (r : Rg) : (s.writing p key r).sys.scrub = s.sys.scrub := by
  rw [writing_eq]
theorem writing_otp (s : State) (p : Party) (key : Option (Fin 5)) (r : Rg) : (s.writing p key r).otp = s.otp := by
  rw [writing_eq]

/-- GO is taken at once after PANLOCK and its scrub, where neither OTP bit holds it back. -/
theorem writeEngCtl_go {β : Type} (F : Engine → β) (hF : ∀ (e : Engine) n, F { e with wdLeft := n } = F e) (hv : bitOf v 0 = true)
    (hl : s.sys.panLock = true) (hs : s.sys.scrub = false) (hg : s.eng.go = false) (ha : s.eng.auth = false)
    (hr : s.otp.romOnly = false) (hq : s.otp.authReq = false) :
    F (s.writeEngCtl v).eng = F (s.updEng (·.writeCtl v)).goNow.eng := by
  rw [writeEngCtl_same s v F hF, if_pos hv]
  exact congrArg (fun u : State => F u.eng)
    (writeGo_of_ready hl hs ((s.eng.writeCtl_go v).trans hg) ((s.eng.writeCtl_auth v).trans ha) hr hq)

theorem writeEngCtl_unlocked {β : Type} (F : Engine → β) (hF : ∀ (e : Engine) n, F { e with wdLeft := n } = F e)
    (hl : s.sys.panLock = false) : F (s.writeEngCtl v).eng = F (s.eng.writeCtl v) := by
  rw [writeEngCtl_same s v F hF]
  split
  · exact congrArg (fun u : State => F u.eng) (writeGo_of_unlocked (s := s.updEng (·.writeCtl v)) hl)
  · rfl

theorem writeEngCtl_kick (h0 : bitOf v 0 = false) (h6 : bitOf v 6 = true) (hw : s.eng.wdEn = true) :
    s.writeEngCtl v = s.updEng fun e => { e.writeCtl v with wdLeft := (e.writeCtl v).wdPeriod } := by
  have hon : (s.updEng (·.writeCtl v)).eng.wdEn = true := (Engine.writeCtl_wd v hw).1
  rw [writeEngCtl, h0, h6, hw]
  exact if_pos hon

theorem gReg_of_begin {u : State} {t : Fin 8} {th : Thread} {pc : BitVec 15} {ready : BitVec 64}
    (h : u.eng.thr[t] = th.begin pc ready) (n : Fin 16) : u.gReg t n = 0 := by
  rw [gReg, h]
  split
  · rfl
  · exact Vector.getElem_replicate ..

theorem leads_engCtl {c : Instr} (he : exec c s = .next (s.partyWrite p .sys 0x300 v)) (hs : served s p .sys)
    (hP : ∀ u, LikeState u ((s.writing p none .engCtl).writeEngCtl v) → P u) : Leads c s P :=
  leads_open_write he hs rfl rfl rfl (writeEngCtl_keeps v (.refl false _)) hP

theorem leads_tctl {c : Instr} {n t : Fin 8} (he : exec c s = .next (s.partyWrite p via (tctlAt via n) v)) (hs : served s p via)
    (hr : s.regAt via (tctlAt via n) = .tctl t)
    (hP : ∀ u, LikeState u ((s.writing p none (.tctl t)).writeTctl t v) → P u) : Leads c s P :=
  leads_open_write he hs hr rfl rfl (writeTctl_keeps t v (.refl false _)) hP

end

end State

/-! ### The statement -/

/-- Settles O36: GO by the fold over the pans, the other writes by the one field or thread that each acts on. -/
theorem engineRegisters : Obligations.EngineRegisters := by
  unfold Obligations.EngineRegisters
  refine fun s p v => ⟨fun hs hv hg ha => ⟨fun hl hsc hq hro => ?go, fun hl => ?ignored⟩, fun hs hv hk hw => ?kick,
    fun via n t hs hr => ⟨fun h5 h6 hl ht hp => ?start, fun h5 h6 hno => ?none, fun h5 h6 hst => ?halt⟩,
    fun hr ha => ⟨fun hi => ?accepted, fun hi => ?refused⟩⟩
  case go =>
    refine State.leads_engCtl rfl hs fun u hu => ?_
    have heng : ∀ {β : Type} (F : Engine → β), (∀ (e : Engine) n, F { e with wdLeft := n } = F e) →
        F u.eng = F ((s.writing p none .engCtl).updEng (·.writeCtl v)).goNow.eng := by
      intro β F hF
      rw [hu.eng]
      exact State.writeEngCtl_go F hF hv (by rwa [State.writing_panLock]) (by rwa [State.writing_scrub]) (by rwa [State.writing_eng])
        (by rwa [State.writing_eng]) (by rwa [State.writing_otp]) (by rwa [State.writing_otp])
    have hrom : ((s.writing p none .engCtl).updEng (·.writeCtl v)).eng.romPan = BitVec.ofNat 4 (bitsOf v 1 4) := by
      rw [State.updEng, State.writing_eng]
      exact Engine.writeCtl_romPan v hg
    refine ⟨?_, ?_, ?_, fun n t hen hhead hst hpar => ?_⟩
    · rw [heng Engine.go fun _ _ => rfl, State.goNow_eng]
    · rw [heng Engine.started fun _ _ => rfl, State.goNow_eng]
    · rw [heng Engine.romPan fun _ _ => rfl, State.goNow_eng]
      dsimp only
      rw [hrom, BitVec.toNat_ofNat, bitsOf, Nat.shiftRight_eq_div_pow]
      omega
    · have hthr : ((s.writing p none .engCtl).updEng (·.writeCtl v)).eng.thr = s.eng.thr := by
        rw [State.updEng, State.writing_eng]
        exact Engine.writeCtl_thr ..
      have hgoes : State.GoesIn ((s.writing p none .engCtl).updEng (·.writeCtl v)) n t :=
        { lock := (State.writing_panLock ..).trans hl
          en := (State.writing_panEn ..).trans hen
          head := by
            rw [← hhead, State.panThreads, State.panThreads]
            exact congrArg (fun o => (owned 8 o n).head?) (State.writing_thrOwner ..)
          startable := by rw [hthr]; exact (startable_iff _).2 ⟨hst, hpar⟩ }
      have hbegin := (heng (fun e => e.thr[t]) fun _ _ => rfl).trans hgoes.goNow_thr
      refine ⟨by rw [hbegin]; rfl, ?_, State.gReg_of_begin hbegin⟩
      rw [hbegin, ← State.bitOf_romPan, ← hrom]
      rfl
  case ignored =>
    refine State.leads_engCtl rfl hs fun u hu => ?_
    have hl' : (s.writing p none .engCtl).sys.panLock = false := (State.writing_panLock ..).trans hl
    rw [hu.eng]
    refine ⟨(State.writeEngCtl_unlocked Engine.go (fun _ _ => rfl) hl').trans ?_,
      (State.writeEngCtl_unlocked Engine.thr (fun _ _ => rfl) hl').trans ?_⟩
    · rw [Engine.writeCtl_go, State.writing_eng, hg]
    · rw [Engine.writeCtl_thr, State.writing_eng]
  case kick =>
    refine State.leads_engCtl rfl hs fun u hu => ?_
    rw [hu.eng, State.writeEngCtl_kick hv hk (by rwa [State.writing_eng]), State.updEng, State.writing_eng]
    obtain ⟨hen, hwdt⟩ := Engine.writeCtl_wd v hw
    exact ⟨congrArg (·.toNat * 3200000) hwdt, hwdt, hen, Engine.writeCtl_thr ..⟩
  case start =>
    refine State.leads_tctl rfl hs hr fun u hu => ?_
    obtain ⟨hself, hother⟩ := State.writeTctl_of_startable (s := s.writing p none (.tctl t)) h5 h6 (by rwa [State.writing_panLock])
      (by rw [State.writing_eng]; exact (startable_iff _).2 ⟨ht, hp⟩)
    rw [← hu.eng, State.writing_eng] at hself hother
    obtain ⟨q, k, hq⟩ := s.eng.thr[t].writeCtl_like v
    refine ⟨by rw [hself]; rfl, by rw [hself]; rfl, by rw [hself]; rfl, by rw [hself]; rfl, by rw [hself]; rfl, by rw [hself]; rfl,
      State.gReg_of_begin hself, ?_, hother⟩
    rw [hself, hq]
    exact (BitVec.toNat_ofNat ..).trans (by rw [bitsOf_zero]; omega)
  case none =>
    refine State.leads_tctl rfl hs hr fun u hu => ?_
    have hself := State.writeTctl_of_not_startable (s := s.writing p none (.tctl t)) (t := t) h5 h6 <| by
      rw [State.writing_panLock, State.writing_eng]
      exact hno.imp_right fun h => Bool.eq_false_iff.2 fun k => not_and_or.2 h ((startable_iff _).1 k)
    rw [← hu.eng, State.writing_eng] at hself
    obtain ⟨q, k, hq⟩ := s.eng.thr[t].writeCtl_like v
    rw [hself, hq]
    exact ⟨rfl, rfl⟩
  case halt =>
    refine State.leads_tctl rfl hs hr fun u hu => ?_
    obtain ⟨⟨x, hself⟩, hlocks⟩ := State.writeTctl_of_not_halted (s := s.writing p none (.tctl t)) (t := t) h5 h6
      (by rwa [State.writing_eng])
    rw [← hu.eng] at hself hlocks
    rw [State.writing_eng] at hself
    obtain ⟨q, k, hq⟩ := s.eng.thr[t].writeCtl_like v
    rw [hself, hq]
    exact ⟨rfl, rfl, rfl, hlocks, rfl⟩
  case accepted =>
    refine ⟨s.goNow, congrArg Host.Outcome.next ((if_pos hr).trans ?_), by rw [State.goNow_eng], by rw [State.goNow_eng]⟩
    rw [State.authEnd, ha, hi]
    rfl
  case refused =>
    refine ⟨s.updEng fun e => { e with auth := false, cfgErr := true }, congrArg Host.Outcome.next ((if_pos hr).trans ?_), rfl⟩
    rw [State.authEnd, ha, hi]
    rfl

end Sys2Proof.Machine

/-! SUPPORT. The debug command of a host port by its operations (chapters 12, 18), and the proof of its statement. -/

namespace Sys2Proof.Machine

open Sys2Proof.Safety

/-! ### The answer of a debug command (R643) -/

theorem dbgWords_code (o : Option (Fin 8)) (y : DbgOut) (h : y.1 < 256) : ((dbgWords o y).headD 0).toNat % 256 = y.1 := by
  show (field 0 y.1 ||| field 8 _).toNat % 2 ^ 8 = y.1
  rw [BitVec.toNat_or, Nat.or_mod_two_pow, field, field, BitVec.toNat_ofNat, BitVec.toNat_ofNat, Nat.shiftLeft_eq, Nat.shiftLeft_eq]
  have h8 : ∀ c : Nat, c * 2 ^ 8 % 2 ^ 32 % 2 ^ 8 = 0 := by omega
  have h0 : y.1 * 2 ^ 0 % 2 ^ 32 % 2 ^ 8 = y.1 := by omega
  rw [h8, h0, Nat.or_zero]

theorem dbgWords_value (o : Option (Fin 8)) (y : DbgOut) : (dbgWords o y)[1]? = some y.2.1 := rfl

/-! ### TARGET (R465, R643) -/

section
variable {target : Byte} {n : Fin 4} {k : Nat}

theorem targetCode_of_thread (hk : k < 8) (h : target.toNat = 16 * n.val + k) : targetCode target = lcOk := by
  have hn := n.isLt
  have h3 : bitOf target 3 = false := by
    rw [bitOf, BitVec.getLsbD, Nat.testBit_eq_decide_div_mod_eq]
    exact decide_eq_false (by omega)
  have h6 : bitsOf target 6 2 = 0 := by
    rw [bitsOf, Nat.shiftRight_eq_div_pow]
    omega
  rw [targetCode, h3, h6]
  rfl

theorem targetPan_of_thread (hk : k < 8) (h : target.toNat = 16 * n.val + k) : targetPan target = n := by
  have hn := n.isLt
  have h4 : bitsOf target 4 2 = n.val := by
    rw [bitsOf, Nat.shiftRight_eq_div_pow]
    omega
  rw [targetPan, h4]
  exact Fin.ofNat_val_eq_self n

theorem targetNo_of_thread (hk : k < 8) (h : target.toNat = 16 * n.val + k) : targetNo target = k := by
  rw [targetNo, bitsOf_zero]
  omega

end

/-- A served debug command that names thread `t` of a pan `n` of its port. -/
structure Addressed (s : State) (x : Xfer) (n : Fin 4) (t : Fin 8) (target : Byte) : Prop where
  plain : plain s x
  code : targetCode target = lcOk
  pan : targetPan target = n
  mine : (s.portPans x.port).contains n = true
  thread : s.targetThread target = some t

theorem addressed_of_target {s : State} {x : Xfer} {n : Fin 4} {k : Nat} {t : Fin 8} {target : Byte} (hp : plain s x) (hk : k < 8)
    (h : target.toNat = 16 * n.val + k) (ht : (s.panThreads n)[k]? = some t.val) (hn : n ∈ s.portPans x.port) :
    Addressed s x n t target where
  plain := hp
  code := targetCode_of_thread hk h
  pan := targetPan_of_thread hk h
  mine := List.contains_iff_mem.2 hn
  thread := by
    rw [State.targetThread, targetPan_of_thread hk h, targetNo_of_thread hk h, ht]
    exact congrArg some (Fin.ofNat_val_eq_self t)

/-- The command ends with LAST OK, the result code and `P`. -/
def Gives (c : Instr) (s : State) (h : HostPort) (code : Nat) (P : State → Prop) : Prop :=
  Leads c s fun u => u.host[h.ix].last = 0 ∧ (u.host[h.ix].resp.headD 0).toNat % 256 = code ∧ P u

/-- What a transaction leaves in its port's record. -/
theorem endTx_host {u : State} (hu : u.sys.swPend = false) (h : HostPort) (st : Byte) (ws : List Word) :
    (u.endTx h st (lcOk, ws)).host[h.ix].last = 0 ∧ (u.endTx h st (lcOk, ws)).host[h.ix].resp = ws := by
  have hn : ¬ u.sys.swPend = true := by rw [hu]; decide
  have he : (u.endTx h st (lcOk, ws)).host =
      tabUpd u.host h.ix fun y => { last := 0, errCnt := y.errCnt, status := st, resp := ws, tx := none, held := [] } :=
    congrArg State.host (if_neg hn)
  rw [he, tabUpd_get, if_pos rfl]
  exact ⟨rfl, rfl⟩

section
variable {s : State} {x : Xfer} {n : Fin 4} {t : Fin 8} {target : Byte} {c : Instr} {k : State → Fin 8 → DbgOut} {P : State → Prop}

/-- A transaction that answers with a result code and a value, and changes the engine alone. -/
theorem gives_of_answer {f : State → Served} {o : Option (Fin 8)} {code : Nat} {v : Word} {e : Engine} (hp : plain s x)
    (he : exec c s = .next (s.transact x false lcOk f))
    (hf : f (s.endRequest false) =
      (lcOk, dbgWords o (code, v, { s.endRequest false with eng := e }), { s.endRequest false with eng := e }))
    (hc : code < 256) (hP : ∀ u : State, u.eng = e → u.pans = s.pans → u.host[x.port.ix].resp[1]? = some v → P u) :
    Gives c s x.port code P := by
  have hw : ({ s.endRequest false with eng := e } : State).sys.swPend = false := hp.1
  obtain ⟨hlast, hresp⟩ := endTx_host hw x.port (s.statusByte x.port false) (dbgWords o (code, v, { s.endRequest false with eng := e }))
  obtain ⟨hu⟩ := likeState_endTx _ x.port (s.statusByte x.port false) (lcOk, dbgWords o (code, v, { s.endRequest false with eng := e })) hw
  have heng := congrArg State.eng hu
  have hpans := congrArg State.pans hu
  rw [transact_of_plain s x false f hp, hf] at he
  refine ⟨_, he, hlast, ?_, hP _ heng hpans ?_⟩
  · exact (congrArg (fun ws => (ws.headD 0).toNat % 256) hresp).trans (dbgWords_code o _ hc)
  · exact (congrArg (fun ws => ws[1]?) hresp).trans (dbgWords_value o _)

variable (ha : Addressed s x n t target)
  (he : exec c s = .next (s.transact x false (targetCode target) fun u => u.dbg x.port target (k u)))
include ha he

/-- Under DBGLOCK the operation is refused (R468). -/
theorem gives_refused (hl : s.sys.dbgLock = true) :
    Gives c s x.port dbRefused fun u => u.eng = s.eng ∧ u.pans = s.pans := by
  rw [ha.code] at he
  exact gives_of_answer (e := s.eng) ha.plain he (if_pos hl) (by decide) fun u hu hpans _ => ⟨hu, hpans⟩

/-- Without DBGLOCK and DBGOFF the operation acts on the thread. -/
theorem gives_answer (hl : s.sys.dbgLock = false) (ho : s.otp.dbgOff = false) {code : Nat} {v : Word} {e : Engine}
    (hk : k (s.endRequest false) t = (code, v, { s.endRequest false with eng := e })) (hc : code < 256)
    (hP : ∀ u : State, u.eng = e → u.host[x.port.ix].resp[1]? = some v → P u) : Gives c s x.port code P := by
  rw [ha.code] at he
  refine gives_of_answer (o := some t) ha.plain he ?_ hc fun u hu _ hv => hP u hu hv
  have hl' : ¬ (s.endRequest false).sys.dbgLock = true := by
    show ¬ s.sys.dbgLock = true
    rw [hl]; decide
  have ht : (s.endRequest false).targetThread target = some t := ha.thread
  have hm : ((s.endRequest false).portPans x.port).contains (targetPan target) = true := by rw [ha.pan]; exact ha.mine
  have ho' : (s.endRequest false).otp.dbgOff = false := ho
  simp only [State.dbg, if_neg hl', ho', hm, ht, hk, Bool.not_true, Bool.or_self, Bool.false_eq_true, if_false]

end

section
variable {s : State} {x : Xfer} {n : Fin 4} {t : Fin 8} {target : Byte} {c : Instr} {k : State → Fin 8 → DbgOut} {P : State → Prop}
  {code : Nat} {v : Word} (ha : Addressed s x n t target)
  (he : exec c s = .next (s.transact x false (targetCode target) fun u => u.dbg x.port target (k u)))
  (hl : s.sys.dbgLock = false) (ho : s.otp.dbgOff = false) (hc : code < 256)
include ha he hl ho hc

/-- An operation that changes nothing. -/
theorem gives_kept (hk : k (s.endRequest false) t = (code, v, s.endRequest false))
    (hP : ∀ u : State, u.eng = s.eng → u.host[x.port.ix].resp[1]? = some v → P u) : Gives c s x.port code P :=
  gives_answer ha he hl ho (e := s.eng) hk hc hP

/-- An operation that changes the thread. -/
theorem gives_thread {f : Thread → Thread} (hk : k (s.endRequest false) t = (code, v, (s.endRequest false).updThr t f))
    (hP : ∀ u : State, u.eng.thr[t] = f s.eng.thr[t] → P u) : Gives c s x.port code P :=
  gives_answer ha he hl ho (e := (s.updThr t f).eng) hk hc fun u hu _ => hP u (by rw [hu]; exact updThr_thr_self s t f)

/-- An operation that changes a comparator. -/
theorem gives_comparator {d : Fin 4} {b : Option Breakpoint}
    (hk : k (s.endRequest false) t = (code, v, (s.endRequest false).setBp d b))
    (hP : ∀ u : State, (∀ j : Fin 4, u.eng.bp[j] = if d = j then b else s.eng.bp[j]) →
      u.host[x.port.ix].resp[1]? = some v → P u) : Gives c s x.port code P :=
  gives_answer ha he hl ho (e := (s.setBp d b).eng) hk hc fun u hu => hP u fun j => by rw [hu]; exact set_get ..

end

/-! ### The operations -/

section
variable {s : State} {t : Fin 8}

theorem dbgHalt_of_live (h : s.eng.thr[t].state ≠ .halted) :
    s.dbgHalt t = (dbOk, 0, s.updThr t fun th => { th with state := .debug, stepping := false }) :=
  if_neg (by simpa using h)

theorem dbgHalt_of_halted (h : s.eng.thr[t].state = .halted) : s.dbgHalt t = (dbNotDebug, 0, s) := if_pos (by simpa using h)

/-- Two changes of one thread in a row are one. -/
theorem updThr_updThr (s : State) (t : Fin 8) (f g : Thread → Thread) : (s.updThr t f).updThr t g = s.updThr t fun th => g (f th) := by
  have h : tabUpd (tabUpd s.eng.thr t f) t g = tabUpd s.eng.thr t fun th => g (f th) := by
    simp only [tabUpd, Vector.set_set, Fin.getElem_fin, Vector.getElem_set_self]
  exact congrArg (fun thr => { s with eng := { s.eng with thr := thr } }) h

theorem dbgResume_of_debug (h : s.eng.thr[t].state = .debug) (hw : s.eng.thr[t].waitOn = none) :
    s.dbgResume t = (dbOk, 0, s.updThr t fun th => { th with stepping := false, state := .running }) := by
  rw [State.dbgResume, if_neg (by rw [h]; decide), hw]
  exact congrArg (fun u => (dbOk, 0, u)) (updThr_updThr s t _ _)

theorem dbgResume_of_ne_debug (h : s.eng.thr[t].state ≠ .debug) : s.dbgResume t = (dbNotDebug, 0, s) := if_pos (by simpa using h)

theorem dbgStep_of_debug (h : s.eng.thr[t].state = .debug) (hw : s.eng.thr[t].waitOn = none) :
    s.dbgStep t = (dbOk, 0, s.updThr t fun th => { th with stepping := true }) := by
  rw [State.dbgStep, if_neg (by rw [h]; decide), hw]

/-- A debugged thread in a step issues its instruction. -/
theorem issues_of_step {th : Thread} (h : th.state = .debug) : Thread.issues { th with stepping := true } = true := by
  rw [Thread.issues, h]
  rfl

theorem dbgStep_of_ne_debug (h : s.eng.thr[t].state ≠ .debug) : s.dbgStep t = (dbNotDebug, 0, s) := if_pos (by simpa using h)

/-! ### Registers by INDEX (R466) -/

section
variable {i : Byte} {r : Fin 16} (h1 : 1 ≤ i.toNat) (hr : i.toNat = r.val)
include h1 hr

theorem dbgIndexOk_of_reg : dbgIndexOk i = true := by
  have := r.isLt
  simp only [dbgIndexOk, Bool.and_eq_true, decide_eq_true_eq]
  omega

theorem dbgValue_of_reg : s.dbgValue t i = s.gReg t r := by
  have := r.isLt
  unfold State.dbgValue
  split
  case h_5 => rw [hr, idx, Fin.ofNat_val_eq_self]
  all_goals omega

theorem dbgPut_of_reg (v : Word) : s.dbgPut t i v = s.updThr t fun th => { th with g := th.g.set r.val v r.isLt } := by
  have := r.isLt
  have h0 : r ≠ 0 := fun h => by subst h; simp at hr; omega
  unfold State.dbgPut
  split
  case h_5 => rw [hr, idx, Fin.ofNat_val_eq_self, State.putG, if_neg h0]
  all_goals omega

theorem dbgRead_of_reg (h : s.eng.thr[t].state = .debug) : s.dbgRead t i = (dbOk, s.gReg t r, s) := by
  rw [State.dbgRead, if_neg (by rw [dbgIndexOk_of_reg h1 hr]; decide), if_pos (by rw [h]; decide), dbgValue_of_reg h1 hr]

theorem dbgWrite_of_reg (h : s.eng.thr[t].state = .debug) (v : Word) :
    s.dbgWrite t i v = (dbOk, 0, s.updThr t fun th => { th with g := th.g.set r.val v r.isLt }) := by
  rw [State.dbgWrite, if_neg (by rw [dbgIndexOk_of_reg h1 hr]; decide), if_pos (by rw [h]; decide), dbgPut_of_reg h1 hr]

end

theorem dbgWrite_pc (h : s.eng.thr[t].state = .debug) (v : Word) :
    s.dbgWrite t 16 v = (dbOk, 0, s.updThr t fun th => { th with pc := v.setWidth 15, bpMet := false }) := by
  rw [State.dbgWrite, if_neg (by decide), if_pos (by rw [h]; decide)]
  rfl

end

/-! ### Breakpoint comparators (R467) -/

section
variable {s : State} {n : Fin 4} {c : Fin 4}

theorem dbgSet_of_free (v : Word) (hc : s.eng.bp[c] = none) (hlow : ∀ d, d < c → s.eng.bp[d] ≠ none) :
    s.dbgSet n 0 v = (dbOk, field 0 c.val, s.setBp c (some ⟨v.setWidth 15, n, BitVec.ofNat 8 (bitsOf v 16 8)⟩)) := by
  have hf : (List.finRange 4).find? (fun k : Fin 4 => (s.eng.bp[k]).isNone) = some c := by
    rw [← Fin.find?_eq_find?_finRange, Fin.find?_eq_some_iff]
    exact ⟨by rw [hc]; rfl, fun d hd => Option.isNone_eq_false_iff.2 (Option.isSome_iff_ne_none.2 (hlow d hd))⟩
  rw [State.dbgSet, if_neg (by decide), hf]

theorem dbgSet_of_taken (v : Word) (h : ∀ d : Fin 4, s.eng.bp[d] ≠ none) : s.dbgSet n 0 v = (dbBusy, 0, s) := by
  have hf : (List.finRange 4).find? (fun k : Fin 4 => (s.eng.bp[k]).isNone) = none := by
    rw [← Fin.find?_eq_find?_finRange, Fin.find?_eq_none_iff]
    exact fun d => Option.isNone_eq_false_iff.2 (Option.isSome_iff_ne_none.2 (h d))
  rw [State.dbgSet, if_neg (by decide), hf]

theorem dbgClear_of_held (h : HostPort) {i : Byte} {b : Breakpoint} (hi : i.toNat = c.val) (hb : s.eng.bp[c] = some b)
    (hn : b.pan = n) : s.dbgClear h n i = (dbOk, 0, s.setBp c none) := by
  have hc : idx 4 i.toNat = c := by rw [hi, idx, Fin.ofNat_val_eq_self]
  subst hc
  rw [State.dbgClear, if_neg (by omega), hb]
  exact if_pos hn

end

/-! ### The obligation -/

/-- A register of a thread whose register `r` took `v`. -/
theorem gReg_of_thr_set {u s : State} {t : Fin 8} {r : Fin 16} {v : Word}
    (h : u.eng.thr[t] = { s.eng.thr[t] with g := s.eng.thr[t].g.set r.val v r.isLt }) (q : Fin 16) :
    u.gReg t q = if r = q ∧ q ≠ 0 then v else s.gReg t q := by
  unfold State.gReg
  rw [h]
  by_cases h0 : q = 0
  · rw [if_pos h0, if_neg fun k => k.2 h0, if_pos h0]
  · rw [if_neg h0, if_neg h0]
    exact (set_get ..).trans (if_congr (by simp [h0]) rfl rfl)

/-- Settles O49: every operation is one answer of `State.dbg` inside a plain transaction, and each answer has its own equation. -/
theorem debugCommands : Obligations.DebugCommands := by
  unfold Obligations.DebugCommands
  intro s x n k t target hp hk htarget hthread hmine
  have ha := addressed_of_target hp hk htarget hthread hmine
  refine ⟨fun hl ho => ⟨fun hlive => ?halt, fun hhalted => ?haltHalted, fun hd hw => ⟨?resume, ?step⟩,
    fun hd => ⟨?resumeNot, ?stepNot⟩, fun i v r h1 hr hd => ⟨?read, ?write⟩, fun v hd => ?writePc, fun v c hc hlow => ?set,
    fun v hfull => ?setFull, fun c i b hi hb hn => ?clear⟩, fun hl => ?locked⟩
  case halt =>
    exact gives_thread ha rfl hl ho (by decide) (dbgHalt_of_live hlive) fun u hu => by rw [hu]; exact ⟨rfl, rfl, rfl⟩
  case haltHalted => exact gives_kept ha rfl hl ho (by decide) (dbgHalt_of_halted hhalted) fun u hu _ => hu
  case resume =>
    exact gives_thread ha rfl hl ho (by decide) (dbgResume_of_debug hd hw) fun u hu => by rw [hu]; exact ⟨rfl, rfl⟩
  case step =>
    exact gives_thread ha rfl hl ho (by decide) (dbgStep_of_debug hd hw) fun u hu => by
      rw [hu]
      exact ⟨issues_of_step hd, rfl⟩
  case resumeNot => exact gives_kept ha rfl hl ho (by decide) (dbgResume_of_ne_debug hd) fun u hu _ => hu
  case stepNot => exact gives_kept ha rfl hl ho (by decide) (dbgStep_of_ne_debug hd) fun u hu _ => hu
  case read =>
    exact gives_kept ha rfl hl ho (by decide) (dbgRead_of_reg h1 hr hd) fun u hu hv => ⟨hv, hu⟩
  case write =>
    have h0 : r ≠ 0 := fun h => by subst h; simp at hr; omega
    exact gives_thread ha rfl hl ho (by decide) (dbgWrite_of_reg (s := s.endRequest false) h1 hr hd v) fun u hu =>
      ⟨(gReg_of_thr_set hu r).trans (if_pos ⟨rfl, h0⟩), fun q hq => (gReg_of_thr_set hu q).trans (if_neg fun k => hq k.1.symm)⟩
  case writePc => exact gives_thread ha rfl hl ho (by decide) (dbgWrite_pc (s := s.endRequest false) hd v) fun u hu => by rw [hu]
  case set =>
    refine gives_comparator ha rfl hl ho (by decide) (dbgSet_of_free v hc hlow) fun u hu hv => ⟨?_, ?_⟩
    · rw [hu, if_pos rfl, ha.pan]
    · rw [hv, field, Nat.shiftLeft_zero]
  case setFull => exact gives_kept ha rfl hl ho (by decide) (dbgSet_of_taken v hfull) fun u hu _ => hu
  case clear =>
    exact gives_comparator ha rfl hl ho (by decide) (dbgClear_of_held x.port hi hb (hn.trans ha.pan.symm)) fun u hu _ =>
      ⟨(hu c).trans (if_pos rfl), fun d hd => (hu d).trans (if_neg hd.symm)⟩
  case locked =>
    simp only [List.forall_mem_cons]
    exact ⟨gives_refused ha rfl hl, gives_refused ha rfl hl, gives_refused ha rfl hl, gives_refused ha rfl hl,
      gives_refused ha rfl hl, gives_refused ha rfl hl, gives_refused ha rfl hl, List.forall_mem_nil _⟩

end Sys2Proof.Machine

/-! SUPPORT. What a fault leaves of its thread, and the proof of the statement on the illegal word (chapters 12, 13). -/

namespace Sys2Proof.Machine

open Sys2Proof.Safety

theorem next_congr {s u : State} (h : s = u) : (.next s : Out) = .next u := congrArg _ h

/-- What a fault writes into the thread that it halts (R459). -/
def Thread.faulted (c : Nat) (th : Thread) : Thread := { th with fcause := BitVec.ofNat 4 c, panRst := false }

namespace State

theorem thrLocal_le (s : State) (t : Nat) : s.thrLocal t ≤ t :=
  (List.length_filter_le ..).trans_eq List.length_range

section
variable (s : State) (t : Fin 8) (c : Nat)

/-- The halt of a fault, before the fault is reported to the pan (R459). -/
def faulting (s : State) (t : Fin 8) (c : Nat) : State := s.haltThread t (Thread.faulted c)

/-- A fault halts its thread and is reported to the pan; a missing capability sets a bit of the pan's record beside it. -/
theorem threadFault_eq : ∃ u : State, u.eng = (s.faulting t c).eng ∧
    s.threadFault t c = u.panFault (s.thrPan t) (8 + s.thrLocal t) := by
  by_cases h : c = fcCapability
  · exact ⟨(s.faulting t c).updPan (s.thrPan t) fun p => { p with fault := putBit p.fault fltCap true }, updPan_eng ..,
      congrArg (panFault · (s.thrPan t) (8 + s.thrLocal t)) (if_pos h)⟩
  · exact ⟨s.faulting t c, rfl, congrArg (panFault · (s.thrPan t) (8 + s.thrLocal t)) (if_neg h)⟩

/-- A thread that faults stands still, FCAUSE says why, and its PC and EXIT stay. -/
theorem threadFault_thr_self : ∃ p, (s.threadFault t c).eng.thr[t] = { s.eng.thr[t].stop.faulted c with parent := p } := by
  obtain ⟨u, hu, he⟩ := s.threadFault_eq t c
  obtain ⟨p, hp⟩ := s.haltThread_thr_self (t := t) (f := Thread.faulted c) rfl
  have hthr : u.eng.thr[t] = { s.eng.thr[t].stop.faulted c with parent := p } := by
    rw [hu]
    exact hp
  exact ⟨p, by rw [he, panFault_thr_of_not_waiting _ _ _ _ (by rw [hthr]; exact nofun), hthr]⟩

theorem threadFault_locks (l : Fin 32) : (s.threadFault t c).eng.locks[l] ≠ some t := by
  obtain ⟨u, hu, he⟩ := s.threadFault_eq t c
  rw [he, panFault_eng_locks, hu]
  exact s.haltThread_locks rfl l

theorem threadFault_fault : bitOf (s.threadFault t c).pans[s.thrPan t].fault (8 + s.thrLocal t) = true := by
  obtain ⟨u, -, he⟩ := s.threadFault_eq t c
  have := s.thrLocal_le t
  rw [he]
  exact panFault_fault _ _ _ (by omega)

end

end State

/-- Settles O10: an illegal word is the fault ILLEGAL, whatever the thread was about to do. -/
theorem illegalWordFaultsTheThread : Obligations.IllegalWordFaultsTheThread := by
  unfold Obligations.IllegalWordFaultsTheThread
  intro s t hi
  obtain ⟨p, hp⟩ := s.threadFault_thr_self t fcIllegal
  refine ⟨s.threadFault t fcIllegal, exec_of_canIssue (k := (State.threadFault · t fcIllegal)) hi rfl, ?_⟩
  rw [hp]
  exact ⟨rfl, rfl, rfl, rfl, s.threadFault_fault t fcIllegal, s.threadFault_locks t fcIllegal⟩

end Sys2Proof.Machine

/-! SUPPORT. The functions of Tables 13-3 and 13-4 as numbers and bits, and the proofs of the statements on them (chapter 13). -/

namespace Sys2Proof.Machine

open Sys2Proof.Safety

/-! ### Comparisons, extrema and shifts -/

section
variable (a b : Word)

theorem shamt_eq : shamt b = b.toNat % 32 := bitsOf_zero b 5

theorem cmpSigned_eq :
    cmpSigned a b = if a.toInt < b.toInt then 0xFFFFFFFF else if a.toInt = b.toInt then 0 else 1 := by
  simp only [cmpSigned, BitVec.slt_iff_toInt_lt, BitVec.toInt_inj]

theorem cmpUnsigned_eq :
    cmpUnsigned a b = if a.toNat < b.toNat then 0xFFFFFFFF else if a.toNat = b.toNat then 0 else 1 := by
  simp only [cmpUnsigned, BitVec.lt_def, BitVec.toNat_inj]

theorem signedMin_eq : (if a.slt b then a else b) = BitVec.ofInt 32 (min a.toInt b.toInt) := by
  simp only [min_def_lt, apply_ite (BitVec.ofInt 32), BitVec.ofInt_toInt, BitVec.slt_iff_toInt_lt]

theorem signedMax_eq : (if a.slt b then b else a) = BitVec.ofInt 32 (max a.toInt b.toInt) := by
  simp only [max_def_lt, apply_ite (BitVec.ofInt 32), BitVec.ofInt_toInt, BitVec.slt_iff_toInt_lt]

theorem unsignedMin_eq : (if a < b then a else b) = BitVec.ofNat 32 (min a.toNat b.toNat) := by
  simp only [min_def_lt, apply_ite (BitVec.ofNat 32), BitVec.ofNat_toNat, BitVec.setWidth_eq, BitVec.lt_def]

theorem unsignedMax_eq : (if a < b then b else a) = BitVec.ofNat 32 (max a.toNat b.toNat) := by
  simp only [max_def_lt, apply_ite (BitVec.ofNat 32), BitVec.ofNat_toNat, BitVec.setWidth_eq, BitVec.lt_def]

/-! ### Counts of bits -/

/-- The number that clz answers: above it every bit is zero, and the bit it stops at is one. -/
theorem clzWord_spec : ∃ n : Nat, n ≤ 32 ∧ clzWord a = BitVec.ofNat 32 n ∧
    (∀ i, 32 - n ≤ i → a.getLsbD i = false) ∧ (n < 32 → a.getLsbD (31 - n) = true) := by
  by_cases h0 : a = 0
  · subst h0
    exact ⟨32, le_rfl, rfl, fun i _ => BitVec.getLsbD_zero, fun h => absurd h (by decide)⟩
  · have hne : a.toNat ≠ 0 := fun h => h0 (BitVec.eq_of_toNat_eq h)
    have hlog : a.toNat.log2 < 32 := (Nat.log2_lt hne).2 a.isLt
    refine ⟨31 - a.toNat.log2, by omega, if_neg h0, fun i hi => Nat.testBit_lt_two_pow ?_, fun _ => ?_⟩
    · exact Nat.lt_log2_self.trans_le (Nat.pow_le_pow_right (by decide) (by omega))
    · rw [Nat.sub_sub_self (by omega)]
      exact Nat.testBit_log2 hne

/-- The entries of a list that pass a test are as many as its answers add up to. -/
theorem length_filter_eq_sum {α : Type} (p : α → Bool) (l : List α) :
    (l.filter p).length = (l.map fun x => (p x).toNat).sum := by
  induction l with
  | nil => rfl
  | cons x l ih => cases h : p x <;> simp [h, ih, Nat.add_comm]

theorem popcWord_eq : popcWord a = BitVec.ofNat 32 ((List.range 32).map fun i => (a.getLsbD i).toNat).sum :=
  congrArg (BitVec.ofNat 32) (length_filter_eq_sum _ _)

end

/-! ### Bytes of a word -/

section
variable {n : Nat} (x : BitVec n) (b : Byte)

theorem extractLsb'_append_byte_succ (k : Nat) : (x ++ b).extractLsb' (8 * (k + 1)) 8 = x.extractLsb' (8 * k) 8 :=
  (BitVec.extractLsb'_append_eq_of_le (by omega)).trans (by rw [Nat.mul_succ, Nat.add_sub_cancel])

theorem extractLsb'_append_byte_zero : (x ++ b).extractLsb' 0 8 = b :=
  (BitVec.extractLsb'_append_eq_of_add_le (by decide)).trans BitVec.extractLsb'_eq_self

end

/-- The bytes of a word put together from four, the lowest last. -/
theorem extractLsb'_bytes {b₃ b₂ b₁ b₀ : Byte} {f : Nat → Byte} (h₃ : b₃ = f 3) (h₂ : b₂ = f 2) (h₁ : b₁ = f 1)
    (h₀ : b₀ = f 0) {i : Nat} (hi : i < 4) : (b₃ ++ b₂ ++ b₁ ++ b₀ : Word).extractLsb' (8 * i) 8 = f i := by
  subst h₃ h₂ h₁ h₀
  match i, hi with
  | 0, _ => exact extractLsb'_append_byte_zero _ _
  | 1, _ => exact (extractLsb'_append_byte_succ _ _ 0).trans (extractLsb'_append_byte_zero _ _)
  | 2, _ =>
    exact (extractLsb'_append_byte_succ _ _ 1).trans ((extractLsb'_append_byte_succ _ _ 0).trans
      (extractLsb'_append_byte_zero _ _))
  | 3, _ =>
    exact (extractLsb'_append_byte_succ _ _ 2).trans ((extractLsb'_append_byte_succ _ _ 1).trans
      ((extractLsb'_append_byte_succ _ _ 0).trans BitVec.extractLsb'_eq_self))

theorem getLsbD_bswapWord (a : Word) {i j : Nat} (hi : i < 4) (hj : j < 8) :
    (bswapWord a).getLsbD (8 * i + j) = a.getLsbD (8 * (3 - i) + j) := by
  have hbyte : (bswapWord a).extractLsb' (8 * i) 8 = a.extractLsb' (8 * (3 - i)) 8 := by
    rw [bswapWord]
    refine extractLsb'_bytes (f := fun k => a.extractLsb' (8 * (3 - k)) 8) ?_ ?_ ?_ ?_ hi <;> rfl
  simpa only [BitVec.getLsbD_extractLsb', hj, decide_true, Bool.true_and] using congrArg (BitVec.getLsbD · j) hbyte

/-! ### Immediates (R484) -/

section
variable (a : Word) (imm : BitVec 16)

theorem toInt_sext16 : (sext16 imm).toInt = imm.toInt := BitVec.toInt_signExtend_of_le (by decide)

theorem toNat_zext16 : (zext16 imm).toNat = imm.toNat := BitVec.toNat_setWidth_of_le (by decide)

theorem add_sext16 : a + sext16 imm = BitVec.ofInt 32 (a.toInt + imm.toInt) := by
  rw [BitVec.ofInt_add, BitVec.ofInt_toInt, ← toInt_sext16 imm, BitVec.ofInt_toInt]

theorem mul_sext16 : a * sext16 imm = BitVec.ofInt 32 (a.toInt * imm.toInt) := by
  rw [BitVec.ofInt_mul, BitVec.ofInt_toInt, ← toInt_sext16 imm, BitVec.ofInt_toInt]

theorem and_zext16 : a &&& zext16 imm = BitVec.ofNat 32 (a.toNat &&& imm.toNat) := by
  rw [← toNat_zext16 imm, ← BitVec.toNat_and, BitVec.ofNat_toNat, BitVec.setWidth_eq]

theorem or_zext16 : a ||| zext16 imm = BitVec.ofNat 32 (a.toNat ||| imm.toNat) := by
  rw [← toNat_zext16 imm, ← BitVec.toNat_or, BitVec.ofNat_toNat, BitVec.setWidth_eq]

theorem xor_zext16 : a ^^^ zext16 imm = BitVec.ofNat 32 (a.toNat ^^^ imm.toNat) := by
  rw [← toNat_zext16 imm, ← BitVec.toNat_xor, BitVec.ofNat_toNat, BitVec.setWidth_eq]

theorem zext16_shiftLeft : zext16 imm <<< 16 = BitVec.ofNat 32 (imm.toNat * 65536) := by
  rw [← toNat_zext16 imm]
  exact congrArg (BitVec.ofNat 32) (Nat.shiftLeft_eq ..)

end

/-! ### The statements -/

/-- An instruction that only writes a register and goes on. -/
theorem writes_of_canIssue {c : Instr} {s : State} {t : Fin 8} {rd : Reg} {v w : Word} (hi : canIssue s t)
    (he : exec c s = .next (s.issueReg t rd v)) (hv : v = w) : Writes c s t rd w := by
  rw [← hv]
  exact he.trans (next_congr (issueReg_of_canIssue s t rd v hi))

/-- Settles O11: each row of Table 13-3 by the function that its instruction writes. -/
theorem registerInstructionsWriteTheirResult : Obligations.RegisterInstructionsWriteTheirResult := by
  unfold Obligations.RegisterInstructionsWriteTheirResult
  intro s t rd ra rb hi a b
  have writes {c : Instr} {v w : Word} (he : exec c s = .next (s.issueReg t rd v)) (hv : v = w) : Writes c s t rd w :=
    writes_of_canIssue hi he hv
  obtain ⟨n, hn, hclz, hzero, hone⟩ := clzWord_spec a
  exact ⟨writes rfl rfl, writes rfl rfl, writes rfl rfl, writes rfl rfl, writes rfl rfl, writes rfl rfl,
    writes rfl (congrArg (a <<< ·) (shamt_eq b)), writes rfl (congrArg (a >>> ·) (shamt_eq b)),
    writes rfl (congrArg a.sshiftRight (shamt_eq b)), writes rfl rfl, writes rfl rfl, writes rfl rfl,
    writes rfl (cmpSigned_eq a b), writes rfl (cmpUnsigned_eq a b), writes rfl (signedMin_eq a b),
    writes rfl (signedMax_eq a b), writes rfl (unsignedMin_eq a b), writes rfl (unsignedMax_eq a b),
    ⟨n, hn, writes rfl hclz, hzero, hone⟩, writes rfl (popcWord_eq a),
    ⟨bswapWord a, writes rfl rfl, fun _ _ => getLsbD_bswapWord a⟩⟩

/-- Settles O12: each row of Table 13-4 by how its instruction extends the immediate. -/
theorem immediateInstructionsWriteTheirResult : Obligations.ImmediateInstructionsWriteTheirResult := by
  unfold Obligations.ImmediateInstructionsWriteTheirResult
  intro s t rd ra imm n hi a
  have writes {c : Instr} {v w : Word} (he : exec c s = .next (s.issueReg t rd v)) (hv : v = w) : Writes c s t rd w :=
    writes_of_canIssue hi he hv
  refine ⟨writes rfl (add_sext16 a imm), writes rfl (and_zext16 a imm), writes rfl (or_zext16 a imm),
    writes rfl (xor_zext16 a imm), writes rfl rfl, writes rfl rfl, writes rfl rfl, writes rfl (mul_sext16 a imm),
    writes rfl ?cmp, writes rfl ?cmpu, writes rfl (zext16_shiftLeft imm)⟩
  case cmp => rw [cmpSigned_eq, toInt_sext16]
  case cmpu => rw [cmpUnsigned_eq, toNat_zext16]

end Sys2Proof.Machine

/-! SUPPORT. The bit-field instructions bit by bit (chapter 13), and the proof of their statement. -/

namespace Sys2Proof.Machine

open Sys2Proof.Safety

/-! ### Fields of words, extended (R485, R488) -/

/-- A field of `w` bits, and above it zeros, or ones where the field's weight is taken off. -/
theorem getLsbD_extended {v w : Nat} (hv : v < 2 ^ w) (hw : w ≤ 32) (neg : Bool) {i : Nat} (hi : i < 32) :
    (if neg then BitVec.ofNat 32 v - BitVec.ofNat 32 (2 ^ w) else BitVec.ofNat 32 v).getLsbD i =
      if i < w then v.testBit i else neg := by
  cases neg
  case false =>
    rw [if_neg (by decide), BitVec.getLsbD_ofNat, decide_eq_true hi, Bool.true_and]
    split
    · rfl
    · exact Nat.testBit_lt_two_pow (hv.trans_le (Nat.pow_le_pow_right (by decide) (by omega)))
  case true =>
    have hsum : 2 ^ w * (2 ^ (32 - w) - 1) + v + 2 ^ w = v + 2 ^ 32 := by
      have hpow : 2 ^ w * 2 ^ (32 - w) = 2 ^ 32 := by rw [← Nat.pow_add, Nat.add_sub_cancel' hw]
      have hle : 2 ^ w ≤ 2 ^ w * 2 ^ (32 - w) := Nat.le_mul_of_pos_right _ (Nat.two_pow_pos _)
      rw [Nat.mul_sub, Nat.mul_one]
      omega
    have hsub : BitVec.ofNat 32 v - BitVec.ofNat 32 (2 ^ w) = BitVec.ofNat 32 (2 ^ w * (2 ^ (32 - w) - 1) + v) := by
      rw [BitVec.sub_eq_iff_eq_add, ← BitVec.ofNat_add, hsum]
      exact BitVec.eq_of_toNat_eq (by rw [BitVec.toNat_ofNat, BitVec.toNat_ofNat, Nat.add_mod_right])
    rw [if_pos rfl, hsub, BitVec.getLsbD_ofNat, decide_eq_true hi, Bool.true_and, Nat.testBit_two_pow_mul_add _ hv,
      Nat.testBit_two_pow_sub_one]
    split
    · rfl
    · exact decide_eq_true (by omega)

section
variable (a d : Word) {p w : Nat}

theorem getLsbD_bextWord (h : p + w ≤ 32) (i : Nat) :
    (bextWord a p w).getLsbD i = (decide (i < w) && a.getLsbD (p + i)) := by
  rw [bextWord, BitVec.getLsbD_ofNat, testBit_bitsOf, ← Bool.and_assoc, ← Bool.decide_and]
  exact congrArg (· && _) (decide_eq_decide.2 ⟨And.right, fun hi => ⟨by omega, hi⟩⟩)

/-- The bits of a sign-extended field: above its top bit copies of that bit. -/
theorem getLsbD_bextsWord (hw : 0 < w) (h : p + w ≤ 32) {i : Nat} (hi : i < 32) :
    (bextsWord a p w).getLsbD i = a.getLsbD (p + min i (w - 1)) := by
  rw [bextsWord, bextWord, getLsbD_extended (bitsOf_lt a p w) (by omega) _ hi, testBit_bitsOf, bitOf]
  by_cases hiw : i < w
  · rw [if_pos hiw, decide_eq_true hiw, Bool.true_and, Nat.min_eq_left (by omega)]
  · rw [if_neg hiw, Nat.min_eq_right (by omega), Nat.add_sub_assoc hw]

theorem getLsbD_binsWord (h : p + w ≤ 32) (i : Nat) :
    (binsWord d a p w).getLsbD i = if p ≤ i ∧ i < p + w then a.getLsbD (i - p) else d.getLsbD i := by
  by_cases hi : i < 32
  · rw [binsWord, getLsbD_putBits d _ hi, testBit_bitsOf, Nat.zero_add]
    refine ite_congr rfl (fun hin => ?_) fun _ => rfl
    rw [decide_eq_true (by omega), Bool.true_and]
  · rw [if_neg (by omega), BitVec.getLsbD_of_ge _ _ (by omega), BitVec.getLsbD_of_ge _ _ (by omega)]

end

/-! ### The statement -/

section
variable {s : State} {t : Fin 8} {rd : Reg} {pos wid : BitVec 5} (v : Word)

theorem State.bitField_of_fits (h : pos.toNat + (wid.toNat + 1) ≤ 32) : s.bitField t rd pos wid v = s.issueReg t rd v :=
  if_neg (Nat.not_lt.2 h)

theorem State.bitField_of_wide (hi : canIssue s t) (h : 32 < pos.toNat + (wid.toNat + 1)) :
    s.bitField t rd pos wid v = s.threadFault t fcIllegal :=
  (if_pos h).trans (issue_of_canIssue s t _ hi)

end

/-- Settles O13: a field that fits by the bits it gives, one that does not by the fault. -/
theorem bitFieldInstructions : Obligations.BitFieldInstructions := by
  unfold Obligations.BitFieldInstructions
  intro s t rd ra pos wid hi a d P W
  refine ⟨fun h => ?fits, fun h => ?wide⟩
  case fits =>
    have writes {c : Instr} {v : Word} (he : exec c s = .next (s.bitField t rd pos wid v)) : Writes c s t rd v :=
      writes_of_canIssue hi (he.trans (next_congr (State.bitField_of_fits v h))) rfl
    exact ⟨⟨bextWord a P W, writes rfl, getLsbD_bextWord a h⟩,
      ⟨bextsWord a P W, writes rfl, fun _ => getLsbD_bextsWord a (Nat.succ_pos _) h⟩,
      ⟨binsWord d a P W, writes rfl, getLsbD_binsWord a d h⟩⟩
  case wide =>
    have faults (v : Word) : Host.Outcome.next (s.bitField t rd pos wid v) = (.next (s.threadFault t fcIllegal) : Out) :=
      next_congr (State.bitField_of_wide v hi h)
    exact ⟨faults _, faults _, faults _⟩

end Sys2Proof.Machine

/-! SUPPORT. Branches, calls and jumps by the PC and the link register they leave (chapter 13), and the proofs. -/

namespace Sys2Proof.Machine

open Sys2Proof.Safety

/-! ### Changes of a thread -/

/-- A change of a thread is what it makes of the thread as it stands. -/
theorem updThr_congr {s : State} {t : Fin 8} {f f' : Thread → Thread} (h : f s.eng.thr[t] = f' s.eng.thr[t]) :
    s.updThr t f = s.updThr t f' := by
  unfold State.updThr tabUpd
  rw [h]

theorem updThr_of_same {s : State} {t : Fin 8} {f : Thread → Thread} (h : f s.eng.thr[t] = s.eng.thr[t]) :
    s.updThr t f = s := by
  rw [State.updThr, tabUpd_of_same _ _ _ h]

section
variable (s : State) (t : Fin 8)

theorem jump_thr_self (pc : BitVec 15) : (s.jump t pc).eng.thr[t] =
    { s.eng.thr[t] with
        pc := pc, state := if s.eng.thr[t].stepping then .debug else s.eng.thr[t].state, stepping := false, bpMet := false } :=
  updThr_thr_self _ _ _

/-- To go on is to jump to the next location. -/
theorem advance_eq_jump : s.advance t = s.jump t (pcAdd s.eng.thr[t].pc 1) := updThr_congr rfl

end

/-! ### Locations (R493, R495) -/

/-- An offset keeps the space. -/
theorem pcAdd_space (pc : BitVec 15) (off : Int) : (pcAdd pc off).getLsbD 14 = pc.getLsbD 14 := by
  rw [pcAdd, getLsbD_putBits _ _ (by decide), if_neg (by decide)]

/-- An offset counts the index modulo 16,384. -/
theorem pcAdd_index (pc : BitVec 15) (off : Int) :
    (((pcAdd pc off).toNat % 16384 : Nat) : Int) = (((pc.toNat % 16384 : Nat) : Int) + off) % 16384 := by
  rw [toNat_pcAdd]
  omega

/-! ### The statements -/

section
variable {s : State} {t : Fin 8} (hi : canIssue s t)
include hi

/-- A branch is a jump, to its target or to the next location. -/
theorem State.branch_of_canIssue {c : Bool} {taken : Prop} [Decidable taken] (off : BitVec 16) (hc : c = true ↔ taken) :
    s.branch t c off = s.jump t (if taken then pcAdd s.eng.thr[t].pc off.toInt else pcAdd s.eng.thr[t].pc 1) := by
  rw [State.branch, issue_of_canIssue s t _ hi]
  by_cases h : taken
  · rw [if_pos (hc.2 h), if_pos h]
  · rw [if_neg (mt hc.1 h), if_neg h, advance_eq_jump]

theorem State.jumpTo_of_location {v : Word} (rd : Fin 16) (hv : v.toNat < 32768) :
    s.jumpTo t rd v = (s.putG t rd (s.returnLoc t)).jump t (v.setWidth 15) :=
  (issue_of_canIssue s t _ hi).trans (if_pos ((State.location_ok_iff v).2 hv))

theorem State.jumpTo_of_illegal {v : Word} (rd : Fin 16) (hv : 32768 ≤ v.toNat) :
    s.jumpTo t rd v = s.threadFault t fcIllegal :=
  (issue_of_canIssue s t _ hi).trans (if_neg fun h => Nat.not_lt.2 hv ((State.location_ok_iff v).1 h))

end

/-- Settles O15: each branch by when its condition holds, a location an offset away by its two fields. -/
theorem branchesMoveThePc : Obligations.BranchesMoveThePc := by
  unfold Obligations.BranchesMoveThePc
  refine ⟨fun s t ra rb off hi => ?_, fun pc off => ⟨pcAdd_space pc off, pcAdd_index pc off⟩⟩
  intro a b next
  have branches {c : Bool} {taken : Prop} [Decidable taken] (hc : c = true ↔ taken) :
      (.next (s.branch t c off) : Out) =
        .next (s.jump t (if taken then pcAdd s.eng.thr[t].pc off.toInt else pcAdd s.eng.thr[t].pc 1)) :=
    next_congr (State.branch_of_canIssue hi off hc)
  have hlt : a.slt b = true ↔ a.toInt < b.toInt := BitVec.slt_iff_toInt_lt
  have hltu : decide (a < b) = true ↔ a.toNat < b.toNat := decide_eq_true_iff
  refine ⟨branches beq_iff_eq, branches bne_iff_ne, branches hlt, branches ?bge, branches hltu, branches ?bgeu⟩
  case bge => rw [Bool.not_eq_true', Bool.eq_false_iff, ne_eq, hlt, not_lt]
  case bgeu => rw [Bool.not_eq_true', Bool.eq_false_iff, ne_eq, hltu, not_lt]

/-- Settles O16: call and the two jumps by the state a jump leaves, and the jump to no location by the fault. -/
theorem callsAndJumps : Obligations.CallsAndJumps := by
  unfold Obligations.CallsAndJumps
  intro s t rd ra off hi pc ret v
  refine ⟨exec_of_canIssue (k := fun s => (s.putG t 15 (s.returnLoc t)).jump t (pcAdd s.eng.thr[t].pc off.toInt)) hi rfl,
    fun hv => ?location, fun hv => ?illegal⟩
  case location =>
    have hpc : (v.setWidth 15).toNat = v.toNat := (BitVec.toNat_setWidth ..).trans (Nat.mod_eq_of_lt hv)
    refine ⟨⟨_, next_congr (State.jumpTo_of_location hi 0 hv), ?_, ?_⟩,
      ⟨_, next_congr (State.jumpTo_of_location hi rd hv), ?_, fun n => ?_⟩⟩
    · rw [jump_thr_self]
      exact hpc
    · rw [jump_thr_self]
      rfl
    · rw [jump_thr_self]
      exact hpc
    · rw [gReg_jump, gReg_putG]
      exact if_congr ⟨fun ⟨_, h, h0⟩ => ⟨h.symm, h ▸ h0⟩, fun ⟨h, h0⟩ => ⟨rfl, h.symm, h ▸ h0⟩⟩ rfl rfl
  case illegal =>
    exact ⟨next_congr (State.jumpTo_of_illegal hi 0 hv),
      next_congr (State.jumpTo_of_illegal hi rd hv)⟩

end Sys2Proof.Machine

/-! SUPPORT. Loads and stores by their outcomes (chapter 13), and the proof of the statement on those that are faults. -/

namespace Sys2Proof.Machine

open Sys2Proof.Safety

namespace State

theorem effAddr_eq (s : State) (t : Fin 8) (base : Fin 16) (off : BitVec 16) :
    s.effAddr t base off = ((s.gReg t base).toNat + (off.signExtend 32).toNat) % 2 ^ 32 := BitVec.toNat_add ..

section
variable {s : State} {t : Fin 8} {rt base : Fin 16} {off : BitVec 16} {size a : Nat} (hi : canIssue s t)
  (ha : s.effAddr t base off = a)
include hi ha

/-! ### Outside the reach of the pan (R487) -/

theorem load_of_unreached (signed : Bool) (hx : s.thrPlace (s.thrPan t) (wordAddr a) = none) :
    s.load t rt base off size signed = s.threadFault t fcForeign := by
  rw [load, issue_of_canIssue s t _ hi]
  dsimp only
  rw [ha, hx]

theorem store_of_unreached (hx : s.thrPlace (s.thrPan t) (wordAddr a) = none) :
    s.store t rt base off size = s.threadFault t fcForeign := by
  rw [store, issue_of_canIssue s t _ hi]
  dsimp only
  rw [ha, hx]

/-! ### At a place within reach (R488, R492) -/

variable {x : Place × Nat} (hx : s.thrPlace (s.thrPan t) (wordAddr a) = some x)
include hx

theorem load_of_reached (signed : Bool) : s.load t rt base off size signed =
    if a % size ≠ 0 then s.threadFault t fcMisaligned
    else ((s.thrRead t x).2.putG t rt (loadPart (s.thrRead t x).1 a size signed)).advance t := by
  rw [load, issue_of_canIssue s t _ hi]
  dsimp only
  rw [ha, hx]

theorem store_of_reached {v : Word} (hv : storePart (s.oldWord x) a size (s.gReg t rt) = v) : s.store t rt base off size =
    if !x.1.stores then s.threadFault t fcIllegal
    else if a % size ≠ 0 then s.threadFault t fcMisaligned
    else if s.thrCapMissing t x v then s.threadFault t fcCapability
    else (if (s.thrWrite t x v).eng.thr[t].panRst && !s.eng.thr[t].panRst then s.thrWrite t x v
      else (s.thrWrite t x v).advance t).swReset := by
  rw [store, issue_of_canIssue s t _ hi]
  dsimp only
  rw [ha, hx, ← hv]

theorem store_of_readOnly (hst : x.1.stores = false) : s.store t rt base off size = s.threadFault t fcIllegal :=
  (store_of_reached hi ha hx rfl).trans (if_pos (by rw [hst]; rfl))

theorem store_of_misaligned (hst : x.1.stores = true) (h : a % size ≠ 0) :
    s.store t rt base off size = s.threadFault t fcMisaligned :=
  (store_of_reached hi ha hx rfl).trans ((if_neg (by rw [hst]; decide)).trans (if_pos h))

/-- A store whose write leaves the threads alone and asks for no software reset goes on past it. -/
theorem store_of_aligned {v : Word} (hv : storePart (s.oldWord x) a size (s.gReg t rt) = v) (hst : x.1.stores = true)
    (h : a % size = 0) (hcap : s.thrCapMissing t x v = false) (heng : (s.thrWrite t x v).eng = s.eng)
    (hsw : (s.thrWrite t x v).sys.swPend = false) : s.store t rt base off size = (s.thrWrite t x v).advance t := by
  have hrst : ((s.thrWrite t x v).eng.thr[t].panRst && !s.eng.thr[t].panRst) = false := by rw [heng, Bool.and_not_self]
  rw [store_of_reached hi ha hx hv, if_neg (by rw [hst]; decide), if_neg (not_not_intro h), if_neg (ne_true_of_eq_false hcap),
    if_neg (ne_true_of_eq_false hrst), swReset, advance_sys, if_neg (ne_true_of_eq_false hsw)]

end

end State

/-- Settles O19: the outcomes of a load and of a store that are faults, each for every size. -/
theorem accessesThatFault : Obligations.AccessesThatFault := by
  unfold Obligations.AccessesThatFault
  intro s t rt base off hi a all sts
  have ha : s.effAddr t base off = a := s.effAddr_eq t base off
  refine ⟨fun hx => ?foreign, fun x hx => ⟨?loads, ?stores, ?readOnly⟩⟩
  case foreign =>
    have hl size signed := next_congr (State.load_of_unreached (rt := rt) (size := size) hi ha signed hx)
    have hs size := next_congr (State.store_of_unreached (rt := rt) (size := size) hi ha hx)
    exact ⟨⟨hl 4 false, hl 2 false, hl 2 true, hl 1 false, hl 1 true⟩, hs 4, hs 2, hs 1⟩
  case loads =>
    have hl size signed (h : a % size ≠ 0) :=
      next_congr ((State.load_of_reached (rt := rt) hi ha hx signed).trans (if_pos h))
    exact ⟨hl 4 false, hl 2 false, hl 2 true, hl 1 false, hl 1 true⟩
  case stores =>
    have hs size (h : a % size ≠ 0) (hst : x.1.stores = true) :=
      next_congr (State.store_of_misaligned (rt := rt) hi ha hx hst h)
    exact ⟨hs 4, hs 2, hs 1⟩
  case readOnly =>
    have hst (h : x.1 = .iram ∨ ∃ i, x.1 = .rom i) : x.1.stores = false := by
      rcases h with h | ⟨i, h⟩ <;> rw [h] <;> rfl
    have hs size (h : x.1 = .iram ∨ ∃ i, x.1 = .rom i) :=
      next_congr (State.store_of_readOnly (rt := rt) (size := size) hi ha hx (hst h))
    exact ⟨hs 4, hs 2, hs 1⟩

end Sys2Proof.Machine

/-! SUPPORT. What loads read and stores write, byte by byte (chapter 13), and the proofs of their statements. -/

namespace Sys2Proof.Machine

open Sys2Proof.Safety

/-! ### Bytes of words in memory -/

theorem extractLsb'_memWord (m : List Host.Cell) (a : Nat) {k : Nat} (hk : k < 4) :
    (memWord m a).extractLsb' (8 * k) 8 = memGet m (a + k) := by
  rw [memWord]
  exact extractLsb'_bytes (f := fun k => memGet m (a + k)) rfl rfl rfl rfl hk

theorem memGet_memPutWord (m : List Host.Cell) (a : Nat) (v : Word) {k : Nat} (hk : k < 4) :
    memGet (memPutWord m a v) (a + k) = v.extractLsb' (8 * k) 8 := by
  rw [← extractLsb'_memWord _ _ hk, memWord_memPutWord]

/-! ### Parts of words (R488) -/

section
variable {a size : Nat}

/-- The bits of the part of a word that a load takes. -/
theorem getLsbD_loadPart (h : a % 4 + size ≤ 4) (w : Word) (hs : 0 < size) (signed : Bool) {i : Nat} (hi : i < 32) :
    (loadPart w a size signed).getLsbD i =
      if i < 8 * size then w.getLsbD (8 * (a % 4) + i) else (signed && w.getLsbD (8 * (a % 4) + 8 * size - 1)) := by
  rw [loadPart, getLsbD_extended (bitsOf_lt ..) (by omega) _ hi, testBit_bitsOf, testBit_bitsOf,
    decide_eq_true (by omega : 8 * size - 1 < 8 * size), Bool.true_and, Nat.add_sub_assoc (by omega)]
  refine ite_congr rfl (fun hin => ?_) fun _ => rfl
  rw [decide_eq_true hin, Bool.true_and]

/-- The bytes of the word that a store writes: the addressed ones are the register's, lowest first. -/
theorem extractLsb'_storePart (old v : Word) {k : Nat} (hk : k < 4) :
    (storePart old a size v).extractLsb' (8 * k) 8 =
      if a % 4 ≤ k ∧ k < a % 4 + size then v.extractLsb' (8 * (k - a % 4)) 8 else old.extractLsb' (8 * k) 8 := by
  refine BitVec.eq_of_getLsbD_eq fun j hj => ?_
  rw [BitVec.getLsbD_extractLsb', storePart, getLsbD_putBits _ _ (by omega), decide_eq_true hj, Bool.true_and]
  by_cases hin : a % 4 ≤ k ∧ k < a % 4 + size
  · rw [if_pos hin, if_pos (by omega), BitVec.getLsbD_extractLsb', decide_eq_true hj, Bool.true_and]
    exact congrArg v.toNat.testBit (by omega)
  · rw [if_neg hin, if_neg (by omega), BitVec.getLsbD_extractLsb', decide_eq_true hj, Bool.true_and]

/-- Memory after the part of a word at `w` has been stored. -/
theorem memGet_storePart (h : a % 4 + size ≤ 4) (m : List Host.Cell) (w : Nat) (v : Word) (b : Nat) :
    memGet (memPutWord m w (storePart (memWord m w) a size v)) b =
      if w + a % 4 ≤ b ∧ b < w + a % 4 + size then v.extractLsb' (8 * (b - (w + a % 4))) 8 else memGet m b := by
  by_cases hb : w ≤ b ∧ b < w + 4
  · obtain ⟨k, rfl⟩ := Nat.exists_eq_add_of_le hb.1
    rw [memGet_memPutWord _ _ _ (by omega), extractLsb'_storePart _ _ (by omega), extractLsb'_memWord _ _ (by omega),
      Nat.add_sub_add_left]
    exact if_congr (by omega) rfl rfl
  · rw [memGet_memPutWord_of_ne _ _ _ _ (by omega), if_neg (by omega)]

end

/-! ### Loads -/

/-- Settles O17: a load by the part it takes of the word read, a word in memory by its bytes. -/
theorem loadsReadTheAddressedPart : Obligations.LoadsReadTheAddressedPart := by
  unfold Obligations.LoadsReadTheAddressedPart
  intro s t rt base off x hi a hx w loads
  have ha : s.effAddr t base off = a := s.effAddr_eq t base off
  have hload {c : Instr} {size : Nat} {signed : Bool} (he : exec c s = .next (s.load t rt base off size signed)) (hs : 0 < size)
      (hfit : a % size = 0 → a % 4 + size ≤ 4) : loads c size signed := fun h =>
    ⟨loadPart w a size signed, he.trans (next_congr ((State.load_of_reached hi ha hx signed).trans (if_neg (not_not_intro h)))),
      fun _ => getLsbD_loadPart (hfit h) w hs signed⟩
  refine ⟨hload rfl (by decide) (by omega), hload rfl (by decide) (by omega), hload rfl (by decide) (by omega),
    hload rfl (by decide) (by omega), hload rfl (by decide) (by omega), fun hp => ?ram, fun g n hp => ?brine⟩
  case ram =>
    have hread : s.thrRead t x = (memWord s.mem x.2, s) := by
      rcases hp with hp | hp <;> simp only [State.thrRead, hp]
    exact ⟨by rw [hread], fun k hk => by simp only [w, hread, extractLsb'_memWord _ _ hk]⟩
  case brine =>
    have hread : s.thrRead t x = (s.slotWord g n, s) := by simp only [State.thrRead, hp]
    exact ⟨by rw [hread], fun k hk => by simp only [w, hread, State.slotWord, slotAddr, extractLsb'_memWord _ _ hk]⟩

/-! ### Stores (R488, R491) -/

/-- What a thread's write of a word of a slot other than W2 makes of memory and of the pans (R339). -/
theorem State.writeSlot_of_data (s : State) (t : Fin 8) (g : Nat) {w : Nat} (v : Word) (hw : w ≠ 2) :
    (s.writeSlot (.thread t) g w v).2 =
      if s.slotHeldBy g t then s.putSlotWord g w (v &&& slotMask w) else s.ownRef (s.slotOwner g) := by
  simp only [State.writeSlot, State.holds, hw, decide_false, Bool.false_and, Bool.false_eq_true, if_false]
  split <;> rfl

section
variable {s : State} {t : Fin 8} {rt base : Fin 16} {off : BitVec 16} {size a : Nat} (hi : canIssue s t)
  (hsw : s.sys.swPend = false) (ha : s.effAddr t base off = a) (h : a % size = 0)
include hi hsw ha h

theorem State.store_to_scratch (ht : a - a % 4 < 0x4000) (hr : a - a % 4 < (s.scratchRegion (s.thrPan t)).2) :
    s.store t rt base off size =
      let w := (s.scratchRegion (s.thrPan t)).1 + wordAddr a
      { s.advance t with mem := memPutWord s.mem w (storePart (memWord s.mem w) a size (s.gReg t rt)) } := by
  have hx : s.thrPlace (s.thrPan t) (wordAddr a) = some (.scratch, (s.scratchRegion (s.thrPan t)).1 + wordAddr a) :=
    (if_pos ht).trans (if_pos hr)
  exact State.store_of_aligned hi ha hx rfl rfl h rfl rfl hsw

theorem State.store_to_slot {g w x : Nat} (hx : s.thrPlace (s.thrPan t) (wordAddr a) = some (.brine g w, x)) :
    s.store t rt base off size =
      (s.writeSlot (.thread t) g w (storePart (s.slotWord g w) a size (s.gReg t rt))).2.advance t := by
  have heng (v : Word) : (s.writeSlot (.thread t) g w v).2.eng = s.eng := by rw [State.writeSlot_eq]
  have hsys (v : Word) : (s.writeSlot (.thread t) g w v).2.sys = s.sys := by rw [State.writeSlot_eq]
  exact State.store_of_aligned hi ha hx rfl rfl h rfl (heng _) ((congrArg Sys.swPend (hsys _)).trans hsw)

end

/-- Settles O18: a store by the bytes of its one write to memory, and by whether the thread holds the slot. -/
theorem storesToMemory : Obligations.StoresToMemory := by
  unfold Obligations.StoresToMemory
  refine ⟨fun s t rt base off hi hsw => ?scratch, fun s t rt base off g w x hi hsw => ?slot⟩
  case scratch =>
    intro a r ht hr stores
    have ha : s.effAddr t base off = a := s.effAddr_eq t base off
    have hword : r.1 + wordAddr a + a % 4 = r.1 + a := by
      rw [Nat.add_assoc, wordAddr, Nat.sub_add_cancel (Nat.mod_le ..)]
    have hstore {c : Instr} {size : Nat} (he : exec c s = .next (s.store t rt base off size))
        (hfit : a % size = 0 → a % 4 + size ≤ 4) : stores c size := by
      intro h
      replace hfit := hfit h
      have hmem := memGet_storePart hfit s.mem (r.1 + wordAddr a) (s.gReg t rt)
      rw [hword] at hmem
      refine ⟨_, he.trans (next_congr (State.store_to_scratch hi hsw ha h ht hr)), rfl, fun k hk => ?_, fun b hb => ?_⟩
      · exact (hmem _).trans ((if_pos (by omega)).trans (by rw [Nat.add_sub_cancel_left]))
      · exact (hmem b).trans (if_neg (by omega))
    exact ⟨hstore rfl (by omega), hstore rfl (by omega), hstore rfl (by omega)⟩
  case slot =>
    intro a hx hw stores
    have ha : s.effAddr t base off = a := s.effAddr_eq t base off
    have hstore {c : Instr} {size : Nat} (he : exec c s = .next (s.store t rt base off size))
        (hfit : a % size = 0 → a % 4 + size ≤ 4) : stores c size := by
      intro h
      replace hfit := hfit h
      have hwrite := s.writeSlot_of_data t g (storePart (s.slotWord g w) a size (s.gReg t rt)) hw
      refine ⟨_, he.trans (next_congr (State.store_to_slot hi hsw ha h hx)), fun hh => ?held, fun hh => ?refused,
        fun b hb => ?frame, ?state⟩
      case held =>
        rw [hwrite, if_pos hh]
        refine ⟨fun k hk => ?_, rfl⟩
        have hbyte := extractLsb'_storePart (a := a) (size := size) (s.slotWord g w) (s.gReg t rt) (k := a % 4 + k) (by omega)
        rw [if_pos (by omega), Nat.add_sub_cancel_left] at hbyte
        rw [Nat.add_assoc _ (a % 4) k, ← hbyte, ← BitVec.extractLsb'_and]
        exact memGet_memPutWord _ _ _ (by omega)
      case refused =>
        rw [hwrite, if_neg (ne_true_of_eq_false hh)]
        exact ⟨rfl, s.ownRef_self _⟩
      case frame =>
        rw [hwrite, State.advance_mem]
        split
        · exact memGet_memPutWord_of_ne _ _ _ _ hb
        · rfl
      case state =>
        rw [advance_thr_self, State.writeSlot_eq]
        dsimp only
        split
        · exact nofun
        · exact (state_of_issues hi.2.1).1
    exact ⟨hstore rfl (by omega), hstore rfl (by omega), hstore rfl (by omega)⟩

end Sys2Proof.Machine

/-! SUPPORT. Special registers by what csrr reads and csrw writes (chapter 13), and the proof of their statement. -/

namespace Sys2Proof.Machine

open Sys2Proof.Safety

/-! ### Words put together -/

theorem field_eq (lo v : Nat) : field lo v = BitVec.ofNat 32 v <<< lo := by
  refine BitVec.eq_of_getLsbD_eq fun i hi => ?_
  rw [getLsbD_field _ _ hi, BitVec.getLsbD_shiftLeft, BitVec.getLsbD_ofNat, decide_eq_true hi,
    decide_eq_true (by omega : i - lo < 32), Bool.true_and, Bool.true_and, ← decide_not]
  simp only [not_lt]

/-- EVM takes the five bits of the events. -/
theorem and_evm (v : Word) : (v &&& 0x1F).setWidth 8 = BitVec.ofNat 8 (v.toNat % 32) := by
  refine BitVec.eq_of_toNat_eq ?_
  rw [BitVec.toNat_setWidth, BitVec.toNat_and, BitVec.toNat_ofNat]
  exact congrArg (· % 2 ^ 8) (Nat.and_two_pow_sub_one_eq_mod v.toNat 5)

namespace State

section
variable {s : State} {t : Fin 8} {rd ra : Fin 16} {n : Nat}

/-! ### The two instructions (R498) -/

section
variable (hi : canIssue s t)
include hi

theorem csrr_of_some {x : Word × State} (h : s.csrRead t n = some x) : s.csrr t rd n = (x.2.putG t rd x.1).advance t := by
  rw [csrr, issue_of_canIssue s t _ hi, h]

theorem csrr_of_none (h : s.csrRead t n = none) : s.csrr t rd n = s.threadFault t fcIllegal := by
  rw [csrr, issue_of_canIssue s t _ hi, h]

theorem csrw_of_some {u : State} (h : s.csrWrite t n (s.gReg t ra) = some u) : s.csrw t n ra = u.advance t := by
  rw [csrw, issue_of_canIssue s t _ hi, h]

theorem csrw_of_none (h : s.csrWrite t n (s.gReg t ra) = none) : s.csrw t n ra = s.threadFault t fcIllegal := by
  rw [csrw, issue_of_canIssue s t _ hi, h]

end

/-! ### The numbers of Table 13-9 -/

theorem csrRead_of_reserved (h : n = 7 ∨ 10 < n) : s.csrRead t n = none := by
  match n, h with
  | 7, _ => rfl
  | _ + 11, _ => rfl

theorem csrWrite_of_reserved (h : n = 7 ∨ 10 < n) (v : Word) : s.csrWrite t n v = none := by
  match n, h with
  | 7, _ => rfl
  | _ + 11, _ => rfl

/-- WAKE_LO arms the compare with the word that WAKE_HI holds (R499). -/
theorem armWake_wakeHi (v : Word) : s.armWake t (s.eng.thr[t].wakeHi ++ v) = s.updThr t fun th =>
    { th with
        wake := s.eng.thr[t].wakeHi ++ v
        wakeArmed := decide (s.eng.tnow.toNat < (s.eng.thr[t].wakeHi ++ v : BitVec 64).toNat) } := by
  have hhi : (s.eng.thr[t].wakeHi ++ v : BitVec 64).extractLsb' 32 32 = s.eng.thr[t].wakeHi :=
    (BitVec.extractLsb'_append_eq_of_le (by decide)).trans BitVec.extractLsb'_eq_self
  refine updThr_congr ?_
  rw [hhi]
  rfl

/-- WAKE_CTL can only disarm the compare. -/
theorem csrWrite_wakeCtl (v : Word) : s.csrWrite t 4 v =
    some (s.updThr t fun th => { th with wakeArmed := th.wakeArmed && v.getLsbD 0 }) := by
  refine congrArg some ?_
  cases h : v.getLsbD 0
  case false =>
    refine (if_neg (by rw [bitOf, h]; decide)).trans (updThr_congr ?_)
    rw [Bool.and_false]
  case true =>
    refine (if_pos (by rw [bitOf, h])).trans (updThr_of_same ?_).symm
    rw [Bool.and_true]

end

end State

/-- Settles O20: each number of Table 13-9 by its line of `State.csrRead` and of `State.csrWrite`. -/
theorem specialRegisters : Obligations.SpecialRegisters := by
  unfold Obligations.SpecialRegisters
  intro s t rd ra hi th v reads writes
  have hread {n : BitVec 12} {w : Word} (h : s.csrRead t n.toNat = some (w, s)) : reads n w :=
    next_congr (State.csrr_of_some hi h)
  have hwrite {n : BitVec 12} {f : Thread → Thread} (h : s.csrWrite t n.toNat v = some (s.updThr t f)) : writes n f :=
    next_congr (State.csrw_of_some hi h)
  refine ⟨⟨_, next_congr (State.csrr_of_some hi rfl), ?tnowHi, fun hrd => ?tnowLo, fun n hn => ?others⟩, hread rfl,
    hread rfl, hread rfl, hread rfl, hread rfl, hread rfl, hread ?tid, hread ?quota, hread rfl, ?wake, hwrite rfl,
    hwrite (State.csrWrite_wakeCtl v), hwrite ?evm, fun n hn => ?reserved, fun n hn => ?readOnly⟩
  case tnowHi =>
    rw [advance_thr_self, putG_thr, updThr_thr_self]
    split <;> rfl
  case tnowLo =>
    rw [gReg_advance, gReg_putG, if_pos ⟨rfl, rfl, hrd⟩]
    rfl
  case others =>
    rw [gReg_advance, gReg_putG, if_neg fun h => hn h.2.1.symm, State.gReg, updThr_thr_self]
    rfl
  case tid =>
    refine congrArg (fun w : Word => some (w, s)) ?_
    rw [field_eq, field_eq, field_eq, BitVec.shiftLeft_zero]
  case quota =>
    refine congrArg (fun w : Word => some (w, s)) ?_
    rw [field_eq, field_eq, BitVec.shiftLeft_zero]
  case wake => exact hwrite (congrArg some (State.armWake_wakeHi v))
  case evm => exact congrArg some (updThr_congr (by rw [and_evm]))
  case reserved =>
    have hn' : n.toNat = 7 ∨ 10 < n.toNat := hn.imp_left (congrArg BitVec.toNat)
    exact ⟨next_congr (State.csrr_of_none hi (State.csrRead_of_reserved hn')),
      next_congr (State.csrw_of_none hi (State.csrWrite_of_reserved hn' _))⟩
  case readOnly =>
    simp only [List.mem_cons, List.not_mem_nil, or_false] at hn
    rcases hn with rfl | rfl | rfl | rfl | rfl | rfl <;> exact next_congr (State.csrw_of_none hi rfl)

end Sys2Proof.Machine

/-! SUPPORT. Status words as sums of their fields, CRC-24 bit by bit, and the proof of the statement on tread and crc24 (chapters 3, 5,
14). -/

namespace Sys2Proof.Machine

open Sys2Proof.Safety

/-! ### Words put together from fields that do not meet -/

section
variable {w : Word} {n i v : Nat} {b : Bool}

theorem toNat_field (h : v * 2 ^ i < 2 ^ 32) : (field i v).toNat = v * 2 ^ i := by
  rw [field, BitVec.toNat_ofNat, Nat.shiftLeft_eq, Nat.mod_eq_of_lt h]

/-- A field above everything in a word adds to its value. -/
theorem toNat_or_field (hw : w.toNat = n) (hn : n < 2 ^ i) (h : v * 2 ^ i < 2 ^ 32) :
    (w ||| field i v).toNat = n + v * 2 ^ i := by
  rw [BitVec.toNat_or, toNat_field h, hw, ← Nat.shiftLeft_eq, Nat.or_comm, ← Nat.shiftLeft_add_eq_or_of_lt hn, Nat.add_comm]

theorem flag_eq_field (i : Nat) (b : Bool) : flag i b = field i b.toNat := by
  cases b
  · simp [flag, field]
  · rfl

theorem toNat_or_flag (hw : w.toNat = n) (hn : n < 2 ^ i) (hi : i < 32) :
    (w ||| flag i b).toNat = n + b.toNat * 2 ^ i := by
  rw [flag_eq_field]
  refine toNat_or_field hw hn ?_
  calc b.toNat * 2 ^ i ≤ 1 * 2 ^ i := Nat.mul_le_mul_right _ b.toNat_le
    _ = 2 ^ i := Nat.one_mul _
    _ < 2 ^ 32 := Nat.pow_lt_pow_right (by decide) hi

/-- The part of a flag that a mask lets through. -/
theorem flag_and (i : Nat) (b : Bool) (m : Word) : flag i b &&& m = flag i (b && m.getLsbD i) := by
  refine BitVec.eq_of_getLsbD_eq fun j hj => ?_
  rw [BitVec.getLsbD_and, getLsbD_flag _ _ hj, getLsbD_flag _ _ hj]
  by_cases h : i = j
  · rw [h, decide_eq_true rfl, Bool.and_true, Bool.and_true]
  · rw [decide_eq_false h, Bool.and_false, Bool.and_false, Bool.false_and]

theorem getLsbD_of_toNat (h : w.toNat / 2 ^ i % 2 = b.toNat) : w.getLsbD i = b := by
  rw [BitVec.getLsbD, Nat.testBit_eq_decide_div_mod_eq, h]
  cases b <;> rfl

end

/-! ### TIDE_STAT as a thread reads it (R522) -/

theorem lockCode_lt (l : Lock) : lockCode l < 4 := by cases l <;> decide

theorem Tide.treadStatus_eq (x : Tide) : x.treadStatus =
    field 0 (lockCode x.lock) ||| field 8 x.keeper.toNat ||| flag 16 x.backup ||| flag 17 x.auth ||| flag 18 x.hold := by
  have hlock : field 0 (lockCode x.lock) &&& 0x00073F03 = field 0 (lockCode x.lock) := by cases x.lock <;> rfl
  have hkeeper : ∀ k : BitVec 6, field 8 k.toNat &&& 0x00073F03 = field 8 k.toNat := by decide
  have hperiod : ∀ k : BitVec 4, field 20 k.toNat &&& 0x00073F03 = 0 := by decide
  simp only [Tide.treadStatus, Tide.status, BitVec.and_or_distrib_right, hlock, hkeeper, hperiod, flag_and]
  simp [flag]

theorem Tide.toNat_treadStatus (x : Tide) : x.treadStatus.toNat =
    lockCode x.lock * 2 ^ 0 + x.keeper.toNat * 2 ^ 8 + x.backup.toNat * 2 ^ 16 + x.auth.toNat * 2 ^ 17 + x.hold.toNat * 2 ^ 18 := by
  have hl := lockCode_lt x.lock
  have hk := x.keeper.isLt
  have hb := x.backup.toNat_lt
  have ha := x.auth.toNat_lt
  rw [Tide.treadStatus_eq]
  have h := toNat_or_field (i := 8) (v := x.keeper.toNat) (toNat_field (i := 0) (v := lockCode x.lock) (by omega)) (by omega) (by omega)
  exact toNat_or_flag (toNat_or_flag (toNat_or_flag h (by omega) (by decide)) (by omega) (by decide)) (by omega) (by decide)

/-! ### CRC-24 (Table 3-3) -/

/-- One bit through CRC-24. -/
def crcShift (c : BitVec 24) (b : Bool) : BitVec 24 :=
  if c.getLsbD 23 = b then c <<< 1 else (c <<< 1) ^^^ 0x864CFB

/-- CRC-24 after the first `i` of the low `n` bits of a word, the highest of them first. -/
def crcAfter (c : BitVec 24) (v : Word) (n : Nat) : Nat → BitVec 24
  | 0 => c
  | i + 1 => crcShift (crcAfter c v n i) (v.getLsbD (n - 1 - i))

theorem toNat_crcShift (c : BitVec 24) (b : Bool) : (crcShift c b).toNat = crcBit c.toNat b := by
  have hsh : (c <<< 1).toNat = 2 * c.toNat % 2 ^ 24 := by
    rw [BitVec.toNat_shiftLeft, Nat.shiftLeft_eq, Nat.mul_comm, pow_one]
  have htop : (c.toNat.testBit 23 != b) = true ↔ c.getLsbD 23 ≠ b := bne_iff_ne
  rw [crcShift, crcBit]
  by_cases h : c.getLsbD 23 = b
  · rw [if_pos h, if_neg (mt htop.1 (not_not_intro h)), hsh]
  · rw [if_neg h, if_pos (htop.2 h), BitVec.toNat_xor, hsh]
    rfl

theorem crcBits_crcAfter (c : BitVec 24) (v : Word) {n i k : Nat} (h : i + k = n) :
    crcBits (crcAfter c v n i).toNat v k = (crcAfter c v n n).toNat := by
  induction k generalizing i with
  | zero => rw [← h]; rfl
  | succ k ih =>
    rw [crcBits, bitOf, ← toNat_crcShift, ← ih (i := i + 1) (by omega), crcAfter, show n - 1 - i = k by omega]

theorem State.crc24_of_length {s : State} {t : Fin 8} {rd ra : Fin 16} {n : Nat} (h1 : 1 ≤ n) (h2 : n ≤ 32) :
    s.crc24 t rd ra n = s.result t rd ((crcAfter ((s.gReg t rd).setWidth 24) (s.gReg t ra) n n).setWidth 32) := by
  have hseed : bitsOf (s.gReg t rd) 0 24 = ((s.gReg t rd).setWidth 24).toNat := by rw [bitsOf_zero, BitVec.toNat_setWidth]
  rw [State.crc24, if_neg (by omega), hseed]
  refine congrArg (s.result t rd) ?_
  rw [← BitVec.ofNat_toNat 32, ← crcBits_crcAfter (i := 0) _ _ (Nat.zero_add n), crcAfter]

/-! ### The statement -/

/-- Settles O28: the three words of tread by what each reads, crc24 by its value after each of the bits. -/
theorem treadAndCrc24 : Obligations.TreadAndCrc24 := by
  unfold Obligations.TreadAndCrc24
  refine ⟨fun s t rd hi => ⟨leads_of_canIssue hi rfl ?tick,
    exec_of_canIssue (k := fun s => s.result t rd s.tide.latch[(Party.thread t).ix]) hi rfl, s.tide.treadStatus,
    exec_of_canIssue (k := fun s => s.result t rd s.tide.treadStatus) hi rfl, ?status⟩,
    fun s t rd ra n hi => ⟨fun hn => ?illegal, fun h1 h2 => ?crc⟩⟩
  case tick =>
    refine ⟨fun hrd => ?_, ?_⟩
    · rw [State.result_gReg_self _ _ _ _ hrd]
      exact BitVec.toNat_setWidth_of_le (by decide)
    · rw [State.result_tide, State.readEffect_tideTick]
      refine ⟨(set_get _ _ _ _).trans (if_pos rfl), rfl, rfl, fun n hn => ?_⟩
      rw [State.result_gReg, if_neg fun h => hn h.2.1.symm]
      rfl
  case status =>
    have hw := s.tide.toNat_treadStatus
    have hk := s.tide.keeper.isLt
    have hb := s.tide.backup.toNat_lt
    have ha := s.tide.auth.toNat_lt
    have hh := s.tide.hold.toNat_lt
    have hl := lockCode_lt s.tide.lock
    have hlock : s.tide.treadStatus.toNat % 256 = lockCode s.tide.lock := by omega
    refine ⟨hlock.trans (by cases s.tide.lock <;> rfl), by omega, getLsbD_of_toNat (by omega), getLsbD_of_toNat (by omega),
      getLsbD_of_toNat (by omega), by omega⟩
  case illegal =>
    exact (exec_of_canIssue (k := fun s => s.crc24 t rd ra n.toNat) hi rfl).trans (next_congr (if_pos hn))
  case crc =>
    refine ⟨crcAfter ((s.gReg t rd).setWidth 24) (s.gReg t ra) n.toNat, rfl, fun _ _ => rfl, ?_⟩
    exact (exec_of_canIssue (k := fun s => s.crc24 t rd ra n.toNat) hi rfl).trans (next_congr (State.crc24_of_length h1 h2))

end Sys2Proof.Machine

/-! SUPPORT. Doorbells, claims and completions at an engine target, and the proof of the statement on ring and irq.done (chapters 14,
15). -/

namespace Sys2Proof.Machine

open Sys2Proof.Safety

namespace State

/-! ### Deliverable sources (R546) -/

section
variable {s : State} {en : BitVec 128} {x : Fin 10}

theorem deliverables_eq_filter (s : State) (en : BitVec 128) (x : Fin 10) :
    s.deliverables en x = (List.finRange 128).filter fun k => s.deliverable en x k := by
  rw [deliverables]
  split
  · next h =>
    refine (List.filter_eq_nil_iff.2 fun k _ => ?_).symm
    simp [deliverable, pendingAt, h, bitOf]
  · rfl

theorem deliverables_of_none (h : ∀ k, s.deliverable en x k = false) : s.deliverables en x = [] := by
  rw [deliverables_eq_filter]
  exact List.filter_eq_nil_iff.2 fun k _ => ne_true_of_eq_false (h k)

/-- The lowest-numbered deliverable source comes first. -/
theorem deliverables_of_least {k : Fin 128} (h : s.deliverable en x k = true) (hmin : ∀ j, j < k → s.deliverable en x j = false) :
    ∃ ks, s.deliverables en x = k :: ks := by
  rw [deliverables_eq_filter, ← List.head?_eq_some_iff, List.head?_filter, ← Fin.find?_eq_find?_finRange, Fin.find?_eq_some_iff]
  exact ⟨h, hmin⟩

/-- What the engine targets have in service does not bear on what is deliverable. -/
theorem deliverable_congr {u : State} {e : Tab (Option (BitVec 7)) 8} (hi : u.irq = { s.irq with eng := e })
    (hl : u.sys.panLock = s.sys.panLock) (ha : u.alloc = s.alloc) (k : Fin 128) :
    u.deliverable en x k = s.deliverable en x k := by
  have hsrc (j : Nat) : u.srcOwner j = s.srcOwner j := by simp only [srcOwner, packOwner_congr hl ha]
  have hport (m : Fin 4) : u.panPort m = s.panPort m := by
    rw [panPort, allocWord, ha]
    rfl
  have hallowed : u.maskAllowed k = s.maskAllowed k := by
    funext y
    rcases y with _ | _ | y <;> simp only [maskAllowed, hport, thrOwner, hsrc, packOwner_congr hl ha]
  have hmask : u.maskOf k = s.maskOf k := by simp only [maskOf, hallowed, hi]
  have hheld : u.heldFor k x = s.heldFor k x := by
    simp only [heldFor, hgOwner, hsrc, packOwner_congr hl ha, hi]
  have hrunning (h : Fin 2) : Irq.running { s.irq with eng := e } h = s.irq.running h := rfl
  simp only [deliverable, pendingAt, hmask, hheld, hi, hrunning]

end

/-! ### Claims at an engine target (R547, R553) -/

section
variable {s : State} {t : Fin 8}

theorem engClaim_of_none (h : ∀ k, s.deliverable s.irq.claimEn (engTarget t) k = false) :
    s.engClaim t = s.emptyClaim (engTarget t) := by
  rw [engClaim, deliverables_of_none h]

/-- The state after the claim of source `k` at the engine target of a thread. -/
def claimed (s : State) (t : Fin 8) (k : Fin 128) : State :=
  (s.takeSource (engTarget t) k).updIrq fun q => { q with eng := q.eng.set t.val (some (BitVec.ofFin k)) t.isLt }

theorem engClaim_of_least {k : Fin 128} (h : s.deliverable s.irq.claimEn (engTarget t) k = true)
    (hmin : ∀ j, j < k → s.deliverable s.irq.claimEn (engTarget t) j = false) :
    s.engClaim t = (BitVec.ofNat 32 k.val, s.claimed t k) := by
  obtain ⟨ks, hks⟩ := deliverables_of_least h hmin
  rw [engClaim, hks]
  rfl

theorem claimed_eng (s : State) (t : Fin 8) (k : Fin 128) : (s.claimed t k).irq.eng[t] = some (BitVec.ofFin k) :=
  (set_get _ _ _ _).trans (if_pos rfl)

theorem claimed_pend (s : State) (t : Fin 8) (k : Fin 128) : (s.claimed t k).irq.pend = putBit s.irq.pend k false := by
  have hhold (q : Irq) (own : Bool) : (q.startHold (engTarget t) k own).pend = q.pend := by
    unfold Irq.startHold
    dsimp only
    split <;> rfl
  exact hhold ..

/-! ### The completion of a source without further arrivals (R549) -/

theorem engComplete_of_last {k : BitVec 7} (h : s.irq.eng[t] = some k) (hc : s.irq.cnt[k.toFin] = 0) :
    s.engComplete t = (s.updIrq fun q => { q with eng := q.eng.set t.val none t.isLt }).settleWaits := by
  have hk : idx 128 k.toNat = k.toFin := Fin.ext (Nat.mod_eq_of_lt k.isLt)
  rw [engComplete, h]
  dsimp only
  rw [hk]
  exact congrArg (fun q => settleWaits { s with irq := q }) (if_pos hc)

/-! ### irq.done (R527) -/

section
variable {rd ra : Fin 16} {k : BitVec 7}

theorem irqDone_of_busy (h : s.irq.eng[t] = some k) (hra : ra = 0) : s.irqDone t rd ra = s.result t rd resBusy := by
  rw [irqDone, h]
  exact if_pos hra

theorem irqDone_of_other (h : s.irq.eng[t] = some k) (hra : ra ≠ 0) (hv : (s.gReg t ra).toNat ≠ k.toNat) :
    s.irqDone t rd ra = s.result t rd resNotHeld := by
  rw [irqDone, h]
  refine (if_neg hra).trans (if_neg fun e => hv ?_)
  rw [e, BitVec.toNat_setWidth_of_le (by decide)]

theorem irqDone_of_served (h : s.irq.eng[t] = some k) (hra : ra ≠ 0) (hv : (s.gReg t ra).toNat = k.toNat) :
    s.irqDone t rd ra = ((s.engComplete t).engClaim t).2.result t rd ((s.engComplete t).engClaim t).1 := by
  rw [irqDone, h]
  refine (if_neg hra).trans (if_pos (BitVec.eq_of_toNat_eq ?_))
  rw [hv, BitVec.toNat_setWidth_of_le (by decide)]

theorem irqDone_of_not_held (h : s.irq.eng[t] = none) (hra : ra ≠ 0) : s.irqDone t rd ra = s.result t rd resNotHeld := by
  rw [irqDone, h]
  exact if_neg hra

theorem irqDone_of_claim (h : s.irq.eng[t] = none) (hra : ra = 0) :
    s.irqDone t rd ra = (s.engClaim t).2.result t rd (s.engClaim t).1 := by
  rw [irqDone, h]
  exact if_pos hra

end

end

/-! ### ring (R526, R559) -/

section
variable {s : State} {n : Fin 4} {k : Fin 128}

theorem doorbell_of_idle (hlo : 96 ≤ k.val) (hhi : k.val ≤ 119) (ho : s.srcOwner k.val = n) (hr : s.coreRuns = true)
    (hp : bitOf s.irq.pend k = false) (hs : s.irq.inService k = false) :
    s.doorbell n k.val = (s.updIrq fun q => { q with pend := putBit q.pend k true }).settleWaits := by
  have hsrc : srcExists k.val = true := by simp [srcExists]; omega
  have hidx : idx 128 k.val = k := Fin.ofNat_val_eq_self k
  have harrive : s.irq.arrive k = { s.irq with pend := putBit s.irq.pend k true } := if_pos (by rw [hp, hs]; rfl)
  rw [doorbell, if_pos (by simp [hlo, hhi, ho]), arrive, if_neg (by rw [hsrc]; decide), if_pos hr, hidx, updIrq, harrive]
  rfl

theorem doorbell_of_foreign (h : k.val < 96 ∨ 119 < k.val ∨ s.srcOwner k.val ≠ n) :
    s.doorbell n k.val = s.panFault n fltAccess := by
  refine if_neg ?_
  simp only [Bool.and_eq_true, decide_eq_true_eq, beq_iff_eq]
  omega

end

end State

/-! ### The statement -/

/-- Settles O30: a doorbell by its arrival or the fault, irq.done by what is in service and what is deliverable. That register code 0
names no source is log 24. -/
theorem ringAndIrqDone : Obligations.RingAndIrqDone := by
  unfold Obligations.RingAndIrqDone
  intro s t rd ra n hi m v x
  have hdone {u : State} (h : s.irqDone t rd ra = u) : exec (.irqDone t rd ra) s = .next u :=
    (exec_of_canIssue (k := fun s => s.irqDone t rd ra) hi rfl).trans (next_congr h)
  refine ⟨fun k hk => ?ring, fun k h hra => hdone (State.irqDone_of_busy h hra),
    fun k h hra hv => hdone (State.irqDone_of_other h hra hv), fun h hra => hdone (State.irqDone_of_not_held h hra),
    fun h hra hnone => ⟨_, hdone (State.irqDone_of_claim h hra), ?empty⟩,
    fun h hra k hk hmin => ⟨_, hdone (State.irqDone_of_claim h hra), ?claim⟩,
    fun k h hra hv hc hnone => ⟨_, hdone (State.irqDone_of_served h hra hv), ?completion⟩⟩
  case ring =>
    have hnum : bitsOf (v + n.setWidth 32) 0 7 = k.val := by
      rw [bitsOf_zero, BitVec.toNat_add, BitVec.toNat_setWidth_of_le (by decide), hk]
      exact Nat.mod_mod_of_dvd _ (by decide)
    have hring {u : State} (h : s.doorbell m k.val = u) : exec (.ring t ra n) s = .next (u.advance t) := by
      refine (exec_of_canIssue (k := fun s => (s.doorbell (s.thrPan t) (bitsOf (s.gReg t ra + n.setWidth 32) 0 7)).advance t)
        hi rfl).trans (next_congr ?_)
      rw [hnum, h]
    refine ⟨fun hlo hhi ho hp hs => ⟨_, hring (State.doorbell_of_idle hlo hhi ho hi.1 hp hs), ?_⟩,
      fun h => ⟨_, hring (State.doorbell_of_foreign h), ?_⟩⟩
    · dsimp only
      rw [State.advance_irq, State.settleWaits_irq]
      refine ⟨(bitOf_putBit _ _ _ _ k.isLt).trans (if_pos rfl), fun j hj => (bitOf_putBit _ _ _ _ j.isLt).trans (if_neg ?_), rfl⟩
      exact fun e => hj (Fin.ext e.symm)
    · exact State.panFault_fault s m fltAccess (by decide)
  case empty =>
    dsimp only
    rw [State.engClaim_of_none hnone, State.result_irq]
    exact ⟨rfl, rfl, fun hrd => State.result_gReg_self _ _ _ _ hrd⟩
  case claim =>
    dsimp only
    rw [State.engClaim_of_least hk hmin, State.result_irq]
    refine ⟨State.claimed_eng .., ?_, fun hrd => ?_⟩
    · rw [State.claimed_pend, bitOf_putBit _ _ _ _ k.isLt, if_pos rfl]
    · rw [State.result_gReg_self _ _ _ _ hrd, BitVec.toNat_ofNat]
      exact Nat.mod_eq_of_lt (k.isLt.trans (by decide))
  case completion =>
    have hcompl := State.engComplete_of_last h hc
    have hirq : (s.engComplete t).irq = { s.irq with eng := s.irq.eng.set t.val none t.isLt } := by
      rw [hcompl, State.settleWaits_irq]
      rfl
    have hnone' (j : Fin 128) : (s.engComplete t).deliverable (s.engComplete t).irq.claimEn x j = false := by
      rw [State.deliverable_congr (s := s) (by rw [hirq]) (by rw [State.engComplete_sys]) (State.engComplete_alloc ..), hirq]
      exact hnone j
    dsimp only
    rw [State.engClaim_of_none hnone', State.result_irq]
    have heng : ((s.engComplete t).emptyClaim x).2.irq.eng = (s.engComplete t).irq.eng := rfl
    rw [heng, hirq]
    exact (set_get _ _ _ _).trans (if_pos rfl)

end Sys2Proof.Machine

/-! SUPPORT. The status words of queues, FIFOs and schedule entries as sums of their fields, and the proof of the statement on fstat and
flush (chapters 7, 9, 14). -/

namespace Sys2Proof.Machine

open Sys2Proof.Safety

/-! ### SCHn_STAT (Table 7-3) -/

/-- STATE as SCHn_STAT shows it. -/
def SchState.code : SchState → Nat
  | .idle => 0
  | .armed => 1
  | .committed => 2

theorem SchState.code_lt (k : SchState) : k.code < 4 := by cases k <;> decide

namespace SchEntry

theorem toNat_stat (x : SchEntry) :
    x.stat.toNat = x.state.code * 2 ^ 0 + x.result.toNat * 2 ^ 4 + x.unsync.toNat * 2 ^ 8 + x.wrej.toNat * 2 ^ 9 := by
  have heq : x.stat = field 0 x.state.code ||| field 4 x.result.toNat ||| flag 8 x.unsync ||| flag 9 x.wrej := by
    unfold SchEntry.stat
    cases x.state <;> rfl
  have hc := x.state.code_lt
  have hr := x.result.isLt
  have hu := x.unsync.toNat_lt
  have h := toNat_or_field (i := 4) (v := x.result.toNat) (toNat_field (i := 0) (v := x.state.code) (by omega)) (by omega) (by omega)
  rw [heq]
  exact toNat_or_flag (toNat_or_flag h (by omega) (by decide)) (by omega) (by decide)

/-- The completion code that fstat shows for a RESULT (R520). -/
def fstatCode (x : SchEntry) : Nat := if x.result = 2 then 13 else if x.result = 3 then 14 else 0

theorem toNat_fstat (x : SchEntry) : x.fstat.toNat = x.stat.toNat + x.fstatCode * 2 ^ 16 := by
  have hlt : x.stat.toNat < 2 ^ 10 := by
    have := x.toNat_stat
    have := x.state.code_lt
    have := x.result.isLt
    have := x.unsync.toNat_lt
    have := x.wrej.toNat_lt
    omega
  have hmask : (x.stat &&& 0x3FF).toNat = x.stat.toNat := by
    rw [BitVec.toNat_and]
    exact (Nat.and_two_pow_sub_one_eq_mod _ 10).trans (Nat.mod_eq_of_lt hlt)
  have hcode : x.fstatCode < 15 := by
    unfold fstatCode
    split_ifs <;> decide
  exact toNat_or_field (v := x.fstatCode) hmask (by omega) (by omega)

end SchEntry

/-! ### The status words of a queue and of a FIFO (R520) -/

theorem TxQueue.fstat_eq (q : TxQueue) (hl : q.level < 256) (hd : q.done.length < 256) :
    q.fstat = BitVec.ofNat 32 (q.last.toNat + 256 * q.level + 65536 * q.done.length + 16777216 * q.trunc.toNat) := by
  have hlast := q.last.isLt
  have ht := q.trunc.isLt
  have h := toNat_or_field (i := 8) (v := q.level) (toNat_field (i := 0) (v := q.last.toNat) (by omega)) (by omega) (by omega)
  refine BitVec.eq_of_toNat_eq ((toNat_or_field (toNat_or_field h (by omega) (by omega)) (by omega) (by omega)).trans ?_)
  rw [BitVec.toNat_ofNat]
  omega

theorem RxFifo.fstat_eq (q : RxFifo) (hl : q.frames.length < 256) :
    q.fstat = BitVec.ofNat 32 (q.frames.length + 256 * q.ovfCnt.toNat + 65536 * q.ovf.toNat + 16777216 * q.part.toNat) := by
  have hc := q.ovfCnt.isLt
  have ho := q.ovf.toNat_lt
  have hp := q.part.isLt
  have h := toNat_or_field (i := 8) (v := q.ovfCnt.toNat) (toNat_field (i := 0) (v := q.frames.length) (by omega)) (by omega) (by omega)
  refine BitVec.eq_of_toNat_eq ((toNat_or_field (toNat_or_flag h (by omega) (by decide)) (by omega) (by omega)).trans ?_)
  rw [BitVec.toNat_ofNat]
  omega

namespace State

/-! ### Entries by their pan-local numbers -/

section
variable {s : State} {t : Fin 8} {n : Nat}

theorem entryGlobal_of_some {e : Fin 32} (h : (s.panEntries (s.thrPan t))[n]? = some e.val) : s.entryGlobal t n = some e := by
  rw [entryGlobal, h]
  exact congrArg some (Fin.ofNat_val_eq_self e)

theorem entryGlobal_of_none (h : (s.panEntries (s.thrPan t))[n]? = none) : s.entryGlobal t n = none := by
  rw [entryGlobal, h]
  rfl

end

/-! ### The report of a flush (R521) -/

theorem flushQueue_report (s : State) (n q : Fin 4) :
    let tq := s.tq n q
    let w := (s.flushQueue n q).1
    w.toNat % 256 = (tq.items.filter fun i => i.st == .queued).length % 256 ∧ w.getLsbD 8 = tq.filling.isSome ∧
      w.getLsbD 9 = tq.items.any fun i => i.st == .onWire := by
  intro tq w
  have hf := tq.filling.isSome.toNat_lt
  have hw := (tq.items.any fun i => i.st == .onWire).toNat_lt
  have hlow : (BitVec.ofNat 32 ((tq.items.filter fun i => i.st == .queued).length % 256)).toNat =
      (tq.items.filter fun i => i.st == .queued).length % 256 := by
    rw [BitVec.toNat_ofNat]
    omega
  have h8 := toNat_or_flag (i := 8) (b := tq.filling.isSome) hlow (by omega) (by decide)
  have h9 := toNat_or_flag (i := 9) (b := tq.items.any fun i => i.st == .onWire) h8 (by omega) (by decide)
  have h : w.toNat = _ := h9
  exact ⟨by omega, getLsbD_of_toNat (by omega), getLsbD_of_toNat (by omega)⟩

end State

/-! ### The statement -/

/-- Settles O27: fstat by the sum that its word is, flush by its report and by what it leaves of the queue. -/
theorem fstatAndFlush : Obligations.FstatAndFlush := by
  unfold Obligations.FstatAndFlush
  intro s t rd q k e hi n tq rx
  refine ⟨fun hl hd => ?tq, fun hl => ?rxf, fun he => ?sch, fun he => ?foreign, ?flush⟩
  case tq =>
    rw [← tq.fstat_eq hl hd]
    exact exec_of_canIssue (k := fun s => s.result t rd (s.tq (s.thrPan t) q).fstat) hi rfl
  case rxf =>
    rw [← rx.fstat_eq hl]
    exact exec_of_canIssue (k := fun s => s.result t rd (s.rxf (s.thrPan t) q).fstat) hi rfl
  case sch =>
    have hw := s.sched.ent[e].toNat_fstat
    rw [SchEntry.toNat_stat] at hw
    have hc := s.sched.ent[e].state.code_lt
    have hr := s.sched.ent[e].result.isLt
    have hu := s.sched.ent[e].unsync.toNat_lt
    have hj := s.sched.ent[e].wrej.toNat_lt
    have hstate : s.sched.ent[e].fstat.toNat % 4 = s.sched.ent[e].state.code := by omega
    refine ⟨s.sched.ent[e].fstat, (exec_of_canIssue (k := fun s => s.fstatSch t rd k.val) hi rfl).trans (next_congr ?_),
      hstate.trans (by cases s.sched.ent[e].state <;> rfl), by omega, ?_⟩
    · rw [State.fstatSch, State.entryGlobal_of_some he]
      rfl
    · have hcode : s.sched.ent[e].fstat.toNat / 65536 = s.sched.ent[e].fstatCode := by omega
      exact hcode
  case foreign =>
    refine (exec_of_canIssue (k := fun s => s.fstatSch t rd k.val) hi rfl).trans (next_congr ?_)
    rw [State.fstatSch, State.entryGlobal_of_none he]
  case flush =>
    obtain ⟨hopen, -, hitems⟩ := s.flushQueue_tq n q
    refine ⟨_, exec_of_canIssue (k := fun s => (s.flushQueue (s.thrPan t) q).2.result t rd (s.flushQueue (s.thrPan t) q).1) hi rfl, ?_⟩
    rw [State.tq_congr (State.result_pans ..)]
    refine ⟨hopen, hitems, fun hrd => ?_⟩
    rw [State.result_gReg_self _ _ _ _ hrd]
    exact s.flushQueue_report n q

end Sys2Proof.Machine

/-! SUPPORT. sset and sclr by the writes of an entry's registers that they make, and the proof of their statement (chapters 7, 14). -/

namespace Sys2Proof.Machine

open Sys2Proof.Safety

/-! ### Fields of SCHn_STAT (Table 7-3) -/

namespace SchEntry

theorem stat_low (x : SchEntry) : x.stat.toNat % 256 = x.state.code + 16 * x.result.toNat := by
  have h := x.toNat_stat
  have hc := x.state.code_lt
  have hr := x.result.isLt
  omega

theorem stat_state (x : SchEntry) : x.stat.toNat % 4 = x.state.code := by
  have h := x.stat_low
  have hc := x.state.code_lt
  omega

theorem stat_result (x : SchEntry) : x.stat.toNat / 16 % 16 = x.result.toNat := by
  have h := x.stat_low
  have hc := x.state.code_lt
  have hr := x.result.isLt
  omega

theorem stat_wrej (x : SchEntry) : x.stat.getLsbD 9 = x.wrej := by
  have h := x.toNat_stat
  have hc := x.state.code_lt
  have hr := x.result.isLt
  have hu := x.unsync.toNat_lt
  have hw := x.wrej.toNat_lt
  exact getLsbD_of_toNat (by omega)

end SchEntry

namespace State

/-! ### Entries written one after the other -/

section
variable {s t u : State} {e : Fin 32} {x y : SchEntry}

theorem PutsEntry.trans (h : s.PutsEntry t e x) (k : t.PutsEntry u e y) : s.PutsEntry u e y := by
  unfold PutsEntry at h k ⊢
  rw [k, h, Vector.set_set]

/-- The fields of an IDLE entry are written (R260). -/
theorem schWrite_of_idle (h : s.sched.ent[e].state = .idle) (f : SchEntry → SchEntry) : s.schWrite e f = s.updSch e f := by
  have hf : (if s.sched.ent[e].state == .idle then f s.sched.ent[e] else { s.sched.ent[e] with wrej := true }) = f s.sched.ent[e] :=
    if_pos (by rw [h]; rfl)
  rw [schWrite, updSch, updSch, tabUpd, hf]
  rfl

theorem schWrite_of_not_idle (h : s.sched.ent[e].state ≠ .idle) (f : SchEntry → SchEntry) :
    s.PutsEntry (s.schWrite e f) e { s.sched.ent[e] with wrej := true } := by
  have hput := s.putsEntry_updSch e fun x => if x.state == .idle then f x else { x with wrej := true }
  rwa [if_neg (by simpa using h)] at hput

end

/-! ### sset (R523) -/

/-- The fields that a register group gives an entry. -/
def groupFields (s : State) (t : Fin 8) (ra : Fin 16) (x : SchEntry) : SchEntry :=
  { x with
      tick := BitVec.ofNat 28 (bitsOf (s.gReg t (groupReg ra 0)) 0 28), sec := s.gReg t (groupReg ra 1)
      opnd := s.gReg t (groupReg ra 3) }

/-- The entry's fields, then its arming write. -/
def ssetEntry (s : State) (t : Fin 8) (ra : Fin 16) (e : Fin 32) : State :=
  (s.schWrite e (s.groupFields t ra)).schArm (.thread t) e (putBit (s.gReg t (groupReg ra 2)) 31 true)

section
variable {s : State} {t : Fin 8} {rd ra : Fin 16} {n : Nat}

theorem sset_of_illegal (h : ¬(1 ≤ ra.val ∧ ra.val ≤ 12)) : s.sset t rd ra n = s.threadFault t fcIllegal := by
  rw [← groupOk_iff, Bool.not_eq_true] at h
  exact if_pos (by rw [h]; rfl)

theorem sset_of_foreign (h : 1 ≤ ra.val ∧ ra.val ≤ 12) (hn : (s.panEntries (s.thrPan t))[n]? = none) :
    s.sset t rd ra n = s.threadFault t fcForeign := by
  rw [sset, (groupOk_iff ra).2 h, entryGlobal_of_none hn]
  rfl

theorem sset_of_entry {e : Fin 32} (h : 1 ≤ ra.val ∧ ra.val ≤ 12) (hn : (s.panEntries (s.thrPan t))[n]? = some e.val) :
    s.sset t rd ra n = (s.ssetEntry t ra e).result t rd (s.ssetEntry t ra e).sched.ent[e].stat := by
  rw [sset, (groupOk_iff ra).2 h, entryGlobal_of_some hn]
  rfl

end

section
variable {s : State} {t : Fin 8} {ra : Fin 16} {e : Fin 32}

theorem ssetEntry_of_not_idle (h : s.sched.ent[e].state ≠ .idle) :
    s.PutsEntry (s.ssetEntry t ra e) e { s.sched.ent[e] with wrej := true } := by
  have hput := schWrite_of_not_idle h (s.groupFields t ra)
  have hstate : (s.schWrite e (s.groupFields t ra)).sched.ent[e].state ≠ .idle := by rwa [hput.self]
  rw [ssetEntry, schArm_of_not_idle _ _ _ _ hstate]
  exact hput.updSch fun x => { x with wrej := true }

/-- The checks of an arming write see the written fields. -/
theorem armFinds_groupFields (v : Word) :
    (s.updSch e (s.groupFields t ra)).armFinds (.thread t) e (putBit v 31 true) =
      if bitsOf v 0 4 = 0 ∨ 6 < bitsOf v 0 4 ∨ bitsOf v 4 2 = 3 then .bad
      else s.checkArm (s.schOwner e) (some t) (bitsOf v 0 4) (s.gReg t (groupReg ra 3)) := by
  rw [armFinds, bitsOf_putBit_of_le v true (i := 31) (lo := 0) (len := 4) (by decide) (by decide),
    bitsOf_putBit_of_le v true (i := 31) (lo := 4) (len := 2) (by decide) (by decide),
    (s.putsEntry_updSch e (s.groupFields t ra)).self]
  rfl

theorem groupFields_tick (x : SchEntry) : (s.groupFields t ra x).tick = (s.gReg t (groupReg ra 0)).setWidth 28 := by
  show BitVec.ofNat 28 (bitsOf _ 0 28) = _
  rw [bitsOf_zero, ← BitVec.toNat_setWidth, BitVec.ofNat_toNat, BitVec.setWidth_eq]

section
variable (hidle : s.sched.ent[e].state = .idle)
include hidle

theorem ssetEntry_of_idle : s.ssetEntry t ra e =
    (s.updSch e (s.groupFields t ra)).schArm (.thread t) e (putBit (s.gReg t (groupReg ra 2)) 31 true) := by
  rw [ssetEntry, schWrite_of_idle hidle]

theorem ssetEntry_puts_of_accepted
    (hf : (s.updSch e (s.groupFields t ra)).armFinds (.thread t) e (putBit (s.gReg t (groupReg ra 2)) 31 true) = .ok)
    (ht : bitsOf (s.gReg t (groupReg ra 0)) 0 28 < 200000000) (hl : s.sys.panLock = true)
    (hp : s.isPast ⟨s.gReg t (groupReg ra 1), (s.gReg t (groupReg ra 0)).setWidth 28⟩ = false) :
    ∃ g who, s.PutsEntry (s.ssetEntry t ra e) e
      { s.groupFields t ra s.sched.ent[e] with
          ctl := schCtlOf (putBit (s.gReg t (groupReg ra 2)) 31 true), state := .armed, slot := g, armedBy := who } := by
  have hput := s.putsEntry_updSch e (s.groupFields t ra)
  have htick : (s.groupFields t ra s.sched.ent[e]).tick.toNat < 200000000 := by
    rw [groupFields_tick, BitVec.toNat_setWidth, ← bitsOf_zero]
    exact ht
  have hpast : s.isPast (s.groupFields t ra s.sched.ent[e]).instant = false := by
    rw [SchEntry.instant, groupFields_tick]
    exact hp
  rw [ssetEntry_of_idle hidle]
  obtain ⟨g, who, harm⟩ := schArm_puts_of_accepted (s := s.updSch e (s.groupFields t ra)) (by rw [hput.self]; exact hidle) hf
    (by rw [hput.self]; exact htick) hl (by rw [hput.self]; exact hpast)
  rw [hput.self] at harm
  exact ⟨g, who, hput.trans harm⟩

theorem ssetEntry_puts_of_refused
    (hf : (s.updSch e (s.groupFields t ra)).armFinds (.thread t) e (putBit (s.gReg t (groupReg ra 2)) 31 true) ≠ .ok) :
    s.PutsEntry (s.ssetEntry t ra e) e
      (({ s.groupFields t ra s.sched.ent[e] with ctl := schCtlOf (putBit (s.gReg t (groupReg ra 2)) 31 true) } : SchEntry).ended
        rsBadarg) := by
  have hput := s.putsEntry_updSch e (s.groupFields t ra)
  rw [ssetEntry_of_idle hidle]
  have harm := schArm_puts_of_refused (s := s.updSch e (s.groupFields t ra)) (by rw [hput.self]; exact hidle) (.inl hf)
  rw [hput.self] at harm
  exact hput.trans harm

end

end

/-! ### sclr (R524) -/

section
variable {s : State} {t : Fin 8} {rd : Fin 16} {n : Nat}

theorem sclr_of_foreign (hn : (s.panEntries (s.thrPan t))[n]? = none) : s.sclr t rd n = s.threadFault t fcForeign := by
  rw [sclr, entryGlobal_of_none hn]

/-- sclr is a write of SCHn_CTL that keeps its settings and has ARM = 0. -/
theorem sclr_of_entry {e : Fin 32} (hn : (s.panEntries (s.thrPan t))[n]? = some e.val) :
    ∃ v, s.sclr t rd n = (s.schDisarm e v).result t rd (s.schDisarm e v).sched.ent[e].stat := by
  have harm (w : Word) : bitOf (w &&& 0x13F) 31 = false := by
    rw [bitOf, BitVec.getLsbD_and]
    exact Bool.and_false _
  refine ⟨s.sched.ent[e].ctlWord &&& 0x13F, ?_⟩
  rw [sclr, entryGlobal_of_some hn]
  dsimp only
  rw [schCtl, if_neg (ne_true_of_eq_false (harm _))]

end

end State

/-- Settles O29: sset by the arming write that it makes of the written entry, sclr by the write with ARM = 0. -/
theorem schedulesBySsetAndSclr : Obligations.SchedulesBySsetAndSclr := by
  unfold Obligations.SchedulesBySsetAndSclr
  intro s t rd ra n hi r named group act
  have hsset {u : State} (h : s.sset t rd ra n.val = u) : exec (.sset t rd ra n) s = .next u :=
    (exec_of_canIssue (k := fun s => s.sset t rd ra n.val) hi rfl).trans (next_congr h)
  have hsclr {u : State} (h : s.sclr t rd n.val = u) : exec (.sclr t rd n) s = .next u :=
    (exec_of_canIssue (k := fun s => s.sclr t rd n.val) hi rfl).trans (next_congr h)
  refine ⟨fun hg => hsset (State.sset_of_illegal hg),
    fun hn => ⟨fun hg => hsset (State.sset_of_foreign hg hn), hsclr (State.sclr_of_foreign hn)⟩, fun e hn => ?_⟩
  have hown : s.schOwner e = s.thrPan t := owner_of_owned hn
  have hfind : (s.updSch e (s.groupFields t ra)).armFinds (.thread t) e (putBit (r 2) 31 true) =
      if act = 0 ∨ 6 < act ∨ bitsOf (r 2) 4 2 = 3 then .bad else s.checkArm (s.thrPan t) (some t) act (r 3) :=
    hown ▸ State.armFinds_groupFields (r 2)
  obtain ⟨w, hclr⟩ := State.sclr_of_entry (rd := rd) hn
  refine ⟨fun hg hidle hl h1 h6 hp ht hc hpast => ⟨_, hsset (State.sset_of_entry hg hn), ?armed⟩,
    fun hg hidle hc => ⟨_, hsset (State.sset_of_entry hg hn), ?refused⟩,
    fun hg hbusy => ⟨_, hsset (State.sset_of_entry hg hn), ?busy⟩,
    fun harmed hd => ⟨_, hsclr hclr, ?disarm⟩, fun harmed hd => ⟨_, hsclr hclr, ?due⟩,
    fun hcom => ⟨_, hsclr hclr, ?committed⟩⟩
  case armed =>
    have hf := hfind.trans ((if_neg (by omega)).trans hc)
    obtain ⟨g, who, hput⟩ := State.ssetEntry_puts_of_accepted hidle hf ht hl hpast
    dsimp only
    rw [State.result_sched, hput.self]
    refine ⟨rfl, State.groupFields_tick s.sched.ent[e], rfl, rfl, (schCtlOf_putBit (r 2) true).1, fun hrd => ?_, hput.other⟩
    rw [State.result_gReg_self _ _ _ _ hrd, SchEntry.stat_state]
    rfl
  case refused =>
    have hf : (s.updSch e (s.groupFields t ra)).armFinds (.thread t) e (putBit (r 2) 31 true) ≠ .ok := by
      rw [hfind]
      split
      · decide
      · exact hc
    have hput := State.ssetEntry_puts_of_refused hidle hf
    dsimp only
    rw [State.result_sched, hput.self]
    refine ⟨rfl, rfl, fun hrd => ?_⟩
    rw [State.result_gReg_self _ _ _ _ hrd, SchEntry.stat_result]
    rfl
  case busy =>
    have hput := State.ssetEntry_of_not_idle (t := t) (ra := ra) hbusy
    dsimp only
    rw [State.result_sched, hput.self]
    refine ⟨rfl, fun hrd => ?_⟩
    rw [State.result_gReg_self _ _ _ _ hrd, SchEntry.stat_wrej]
  case disarm =>
    have hput := State.schDisarm_puts_of_armed (v := w) harmed hd
    dsimp only
    rw [State.result_sched, hput.self]
    refine ⟨rfl, rfl, fun hrd => ?_⟩
    rw [State.result_gReg_self _ _ _ _ hrd, SchEntry.stat_low]
    rfl
  case due =>
    dsimp only
    rw [State.result_sched, State.schDisarm_of_due w harmed hd]
    exact (s.putsEntry_updSch e _).self
  case committed =>
    dsimp only
    rw [State.result_sched, State.schDisarm_of_committed w hcom]
    exact (s.putsEntry_updSch e _).self

end Sys2Proof.Machine

/-! SUPPORT. Frames copied from slot to slot, and the proof of the statement on fget and fpeek (chapters 9, 14). -/

namespace Sys2Proof.Machine

open Sys2Proof.Safety

namespace State

/-! ### Words put into a slot (Table 9-2) -/

section
variable (s : State) (g : Nat)

theorem slotWord_putSlotWords_of_ne {h w x : Nat} (vs : List Word) (hne : g ≠ h) (hx : x < 24) (hw : w + vs.length ≤ 24) :
    (s.putSlotWords g w vs).slotWord h x = s.slotWord h x := by
  induction vs generalizing s w with
  | nil => rfl
  | cons v vs ih =>
    rw [List.length_cons] at hw
    rw [putSlotWords, ih _ (by omega)]
    exact s.slotWord_putSlotWord_of_ne v (by omega) hx (.inl hne)

/-- No byte outside the slot changes. -/
theorem memGet_putSlotWords_of_ne {w b : Nat} (vs : List Word) (hb : b < 0x20000 + 96 * g ∨ 0x20000 + 96 * g + 96 ≤ b)
    (hw : w + vs.length ≤ 24) : memGet (s.putSlotWords g w vs).mem b = memGet s.mem b := by
  induction vs generalizing s w with
  | nil => rfl
  | cons v vs ih =>
    rw [List.length_cons] at hw
    rw [putSlotWords, ih _ (by omega)]
    exact memGet_memPutWord_of_ne _ _ _ _ (by simp only [slotAddr]; omega)

theorem slotWord_putSlotWords_of_getElem? {k : Nat} {v : Word} {vs : List Word} (hw : vs.length ≤ 24) (hv : vs[k]? = some v) :
    (s.putSlotWords g 0 vs).slotWord g k = v := by
  obtain ⟨hk, rfl⟩ := List.getElem?_eq_some_iff.1 hv
  have := s.slotWord_putSlotWords g (w := 0) (by omega) hk
  rwa [Nat.zero_add] at this

end

/-! ### A frame copied into a work slot (R518) -/

section
variable (s : State) (src dst : Nat)

/-- The words that a copy writes. -/
def copiedWords : List Word :=
  [s.slotWord src 0, s.slotWord src 1, merge (0xFFFF07FF : Word) (s.slotWord dst 2) (s.slotWord src 2)] ++
    (List.range 5).map (fun k => s.slotWord src (3 + k)) ++
    (List.range (dataWords (min 64 (bitsOf (s.slotWord src 1) 0 7)))).map fun k => s.slotWord src (8 + k)

theorem copyFrame_eq : s.copyFrame src dst = s.putSlotWords dst 0 (s.copiedWords src dst) := rfl

theorem copyFrame_pans : (s.copyFrame src dst).pans = s.pans := putSlotWords_pans ..

theorem copiedWords_length : (s.copiedWords src dst).length ≤ 24 := by
  have h : dataWords (min 64 (bitsOf (s.slotWord src 1) 0 7)) ≤ 16 := by
    unfold dataWords
    omega
  simp only [copiedWords, List.length_append, List.length_map, List.length_range, List.length_cons, List.length_nil]
  omega

theorem slotWord_copyFrame {k : Nat} {v : Word} (h : (s.copiedWords src dst)[k]? = some v) :
    (s.copyFrame src dst).slotWord dst k = v :=
  s.slotWord_putSlotWords_of_getElem? dst (s.copiedWords_length src dst) h

theorem memGet_copyFrame {b : Nat} (hb : b < 0x20000 + 96 * dst ∨ 0x20000 + 96 * dst + 96 ≤ b) :
    memGet (s.copyFrame src dst).mem b = memGet s.mem b := by
  rw [copyFrame_eq]
  exact s.memGet_putSlotWords_of_ne dst _ hb ((Nat.zero_add _).trans_le (s.copiedWords_length src dst))

theorem copied_copyFrame : Copied s (s.copyFrame src dst) src dst false := by
  have hw2 := s.slotWord_copyFrame src dst (k := 2) rfl
  refine ⟨fun w hw hne => s.slotWord_copyFrame src dst ?head, fun i hi _ => ?status, fun i h11 h16 => ?holder,
    fun k hk => s.slotWord_copyFrame src dst ?data,
    fun b hb _ => s.memGet_copyFrame src dst hb⟩
  case head =>
    have hcases : w = 0 ∨ w = 1 ∨ w = 3 ∨ w = 4 ∨ w = 5 ∨ w = 6 ∨ w = 7 := by omega
    rcases hcases with rfl | rfl | rfl | rfl | rfl | rfl | rfl <;> rfl
  case status =>
    rcases Nat.lt_or_ge i 32 with h | h
    · have hmask : (0xFFFF07FF : Word).getLsbD i = true := by
        rcases hi with hi | hi <;> interval_cases i <;> rfl
      rw [hw2, getLsbD_merge, hmask, if_pos rfl]
    · rw [BitVec.getLsbD_of_ge _ _ h, BitVec.getLsbD_of_ge _ _ h]
  case holder =>
    rw [hw2, getLsbD_merge, if_neg]
    interval_cases i <;> decide
  case data =>
    rw [copiedWords, List.getElem?_append_right (by simp)]
    simp [hk]

end

section
variable {s u v : State} {src dst : Nat}

/-- What a copy leaves in the slots is what memory holds. -/
theorem copied_of_mem {seen : Bool} (h : Copied s u src dst seen) (hm : v.mem = u.mem) : Copied s v src dst seen := by
  unfold Copied at h ⊢
  simpa only [slotWord_congr hm, hm] using h

/-- The source is marked as seen after the copy (R359). -/
theorem copied_of_marked (h : Copied s u src dst false) (hne : src ≠ dst) (w : Word) :
    Copied s (u.putSlotWord src 2 w) src dst true := by
  have hword {k : Nat} (hk : k < 24) : (u.putSlotWord src 2 w).slotWord dst k = u.slotWord dst k :=
    u.slotWord_putSlotWord_of_ne w (by decide) hk (.inl hne)
  obtain ⟨hhead, -, hholder, hdata, -⟩ := h
  refine ⟨fun k hk h2 => (hword (by omega)).trans (hhead k hk h2), nofun, fun i h11 h16 => ?_, fun k hk => ?_, nofun⟩
  · rw [hword (by decide)]
    exact hholder i h11 h16
  · have hlt : 8 + k < 24 := by
      unfold dataWords at hk
      omega
    exact (hword hlt).trans (hdata k hk)

end

/-! ### fget and fpeek by their outcomes (R518, R519) -/

section
variable {s : State} {t : Fin 8} {rd ra : Fin 16} {dst : Nat} (hd : s.slotGlobal (s.thrPan t) (s.gReg t ra).toNat = some dst)
  (hh : s.slotHeldBy dst t = true)
include hd hh

theorem fgetFrom_of_source (g : Nat) {src : Option Nat} {entitled : Bool} (remove : State → State) (hs : src = some g)
    (he : entitled = true) : s.fgetFrom t rd ra src entitled remove = (remove (s.copyFrame g dst)).result t rd 0 := by
  rw [fgetFrom, hd, hs, he]
  dsimp only
  rw [hh]
  rfl

theorem fgetFrom_of_empty {src : Option Nat} {entitled : Bool} (remove : State → State) (hs : src = none) (he : entitled = true) :
    s.fgetFrom t rd ra src entitled remove = s.result t rd resEmpty := by
  rw [fgetFrom, hd, hs, he]
  dsimp only
  rw [hh]
  rfl

theorem fgetFrom_of_unentitled (src : Option Nat) {entitled : Bool} (remove : State → State) (he : entitled = false) :
    s.fgetFrom t rd ra src entitled remove = (s.ownRef (s.thrPan t)).result t rd resNotHeld := by
  rw [fgetFrom, hd, he]
  dsimp only
  rw [hh]
  rfl

variable {c : Instr} {src : Option Nat} {entitled : Bool} {remove : State → State}
  (hc : exec c s = .next (s.fgetFrom t rd ra src entitled remove))
include hc

/-- An entitled fget or fpeek that finds slot `g` copies it, gives 0 and removes it in its own way. -/
theorem fget_of_source {g : Nat} {P : State → Prop} (hs : src = some g) (he : entitled = true) (hm : ∀ u, (remove u).mem = u.mem)
    (hP : P ((remove (s.copyFrame g dst)).result t rd 0)) :
    ∃ u, exec c s = .next u ∧ (rd ≠ 0 → u.gReg t rd = 0) ∧ Copied s u g dst false ∧ P u :=
  ⟨_, hc.trans (next_congr (fgetFrom_of_source hd hh g remove hs he)), fun h => result_gReg_self _ t rd 0 h,
    copied_of_mem (s.copied_copyFrame g dst) ((result_mem ..).trans (hm _)), hP⟩

theorem fget_of_empty (hs : src = none) (he : entitled = true) : exec c s = .next (s.result t rd resEmpty) :=
  hc.trans (next_congr (fgetFrom_of_empty hd hh remove hs he))

theorem fget_of_unentitled (he : entitled = false) :
    Leads c s fun u => (rd ≠ 0 → u.gReg t rd = resNotHeld) ∧ u.pans[s.thrPan t].ownRef = true ∧ u.mem = s.mem := by
  refine ⟨_, hc.trans (next_congr (fgetFrom_of_unentitled hd hh src remove he)), fun h => result_gReg_self _ _ _ _ h, ?_, ?_⟩
  · rw [result_pans]
    exact s.ownRef_self _
  · exact result_mem ..

end

end State

/-- The completion that a queue's fget has copied leaves it, and the frame that a FIFO's has copied (R518); a peek removes nothing. -/
def State.tqTaken (n q : Fin 4) (remove : Bool) (s : State) : State :=
  if remove then s.updTq n q fun tq => { tq with done := tq.done.drop 1 } else s

def State.rxfTaken (n q : Fin 4) (remove : Bool) (s : State) : State :=
  if remove then s.updRxf n q fun rx => { rx with frames := rx.frames.drop 1 } else s

/-- A mailbox that fget has copied is marked as seen (R359). -/
def State.mbxTaken (g : Nat) (remove : Bool) (s : State) : State :=
  if remove then s.putSlotWord g 2 (putBit (s.slotWord g 2) 9 true) else s

theorem State.tqTaken_peek (n q : Fin 4) (s : State) : State.tqTaken n q false s = s := rfl
theorem State.rxfTaken_peek (n q : Fin 4) (s : State) : State.rxfTaken n q false s = s := rfl

section
variable {c : Instr} {s : State} {t : Fin 8} {rd ra : Fin 16} {q : Fin 4}

theorem exec_of_fgetTq {b : Bool} (hi : canIssue s t) (hc : exec c s = .next (s.issue t fun s => s.fgetTq t rd ra q b)) :
    exec c s = .next (s.fgetFrom t rd ra (s.tq (s.thrPan t) q).done.head?
      (s.isCode (s.thrPan t) (.thread t) (s.tq (s.thrPan t) q).prod) (State.tqTaken (s.thrPan t) q b)) :=
  exec_of_canIssue hi hc

theorem exec_of_fgetRxf {b : Bool} (hi : canIssue s t) (hc : exec c s = .next (s.issue t fun s => s.fgetRxf t rd ra q b)) :
    exec c s = .next (s.fgetFrom t rd ra (s.rxf (s.thrPan t) q).frames.head?
      (s.isCode (s.thrPan t) (.thread t) (s.rxf (s.thrPan t) q).cons) (State.rxfTaken (s.thrPan t) q b)) :=
  exec_of_canIssue hi hc

theorem exec_of_fgetMbx {b : Bool} {k : BitVec 11} {g : Nat} (hi : canIssue s t) (hg : s.slotGlobal (s.thrPan t) k.toNat = some g)
    (hc : exec c s = .next (s.issue t fun s => s.fgetMbx t rd ra k.toNat b)) :
    exec c s = .next (s.fgetFrom t rd ra (if b && bitOf (s.slotWord g 2) 9 then none else some g) (s.mailboxOf g)
      (State.mbxTaken g b)) := by
  refine (exec_of_canIssue hi hc).trans (next_congr ?_)
  rw [State.fgetMbx, hg]
  rfl

end

/-- Settles O26: each instruction by what it finds to take, and by what it removes after the copy. -/
theorem fgetCopiesAndRemoves : Obligations.FgetCopiesAndRemoves := by
  unfold Obligations.FgetCopiesAndRemoves
  refine ⟨?lists, ?mailbox⟩
  case lists =>
    intro s t rd ra q dst hi n hd hh ok
    have htq := exec_of_fgetTq (c := .fgetTq t rd ra q) (b := true) hi rfl
    have hpeekTq := exec_of_fgetTq (c := .fpeekTq t rd ra q) (b := false) hi rfl
    have hrxf := exec_of_fgetRxf (c := .fgetRxf t rd ra q) (b := true) hi rfl
    have hpeekRxf := exec_of_fgetRxf (c := .fpeekRxf t rd ra q) (b := false) hi rfl
    refine ⟨fun he g rest hl => ?tq, fun he hl => ?tqEmpty, fun he g rest hl => ?rxf, fun he hl => ?rxfEmpty,
      fun c hc he => ?tqForeign, fun c hc he => ?rxfForeign⟩
    case tq =>
      have hhead : (s.tq n q).done.head? = some g := by rw [hl]; rfl
      have hcopy : (s.copyFrame g dst).tq n q = s.tq n q := State.tq_congr (s.copyFrame_pans g dst) n q
      refine ⟨State.fget_of_source hd hh htq hhead he (fun _ => rfl) ?_,
        State.fget_of_source hd hh hpeekTq hhead he (fun _ => rfl) ?_⟩
      · rw [State.tq_congr (State.result_pans ..), State.tqTaken, if_pos rfl, State.updTq_tq, hcopy, hl]
        rfl
      · rw [State.result_pans, State.tqTaken_peek, State.copyFrame_pans]
    case tqEmpty =>
      have hhead : (s.tq n q).done.head? = none := by rw [hl]; rfl
      exact ⟨State.fget_of_empty hd hh htq hhead he, State.fget_of_empty hd hh hpeekTq hhead he⟩
    case rxf =>
      have hhead : (s.rxf n q).frames.head? = some g := by rw [hl]; rfl
      have hcopy : (s.copyFrame g dst).rxf n q = s.rxf n q := State.rxf_congr (s.copyFrame_pans g dst) n q
      refine ⟨State.fget_of_source hd hh hrxf hhead he (fun _ => rfl) ?_,
        State.fget_of_source hd hh hpeekRxf hhead he (fun _ => rfl) ?_⟩
      · rw [State.rxf_congr (State.result_pans ..), State.rxfTaken, if_pos rfl, State.updRxf_rxf, hcopy, hl]
        exact ⟨rfl, rfl⟩
      · rw [State.result_pans, State.rxfTaken_peek, State.copyFrame_pans]
    case rxfEmpty =>
      have hhead : (s.rxf n q).frames.head? = none := by rw [hl]; rfl
      exact ⟨State.fget_of_empty hd hh hrxf hhead he, State.fget_of_empty hd hh hpeekRxf hhead he⟩
    case tqForeign =>
      simp only [List.mem_cons, List.not_mem_nil, or_false] at hc
      rcases hc with rfl | rfl
      · exact State.fget_of_unentitled hd hh htq he
      · exact State.fget_of_unentitled hd hh hpeekTq he
    case rxfForeign =>
      simp only [List.mem_cons, List.not_mem_nil, or_false] at hc
      rcases hc with rfl | rfl
      · exact State.fget_of_unentitled hd hh hrxf he
      · exact State.fget_of_unentitled hd hh hpeekRxf he
  case mailbox =>
    intro s t rd ra k dst g hi n hd hh hg hm hne
    refine ⟨fun hs => ?fresh, fun hs => ?seen, ?peek⟩
    case fresh =>
      have hget := exec_of_fgetMbx (c := .fgetMbx t rd ra k) (b := true) hi hg rfl
      rw [hs] at hget
      refine ⟨_, hget.trans (next_congr (State.fgetFrom_of_source hd hh g (State.mbxTaken g true) rfl hm)),
        fun h => State.result_gReg_self _ t rd 0 h, ?_, ?_⟩
      · exact State.copied_of_mem (State.copied_of_marked (s.copied_copyFrame g dst) hne _) (State.result_mem ..)
      · rw [State.slotWord_congr (State.result_mem ..), State.mbxTaken, if_pos rfl, State.slotWord_putSlotWord,
          bitOf_putBit _ _ _ _ (by decide), if_pos rfl]
    case seen =>
      have hget := exec_of_fgetMbx (c := .fgetMbx t rd ra k) (b := true) hi hg rfl
      rw [hs] at hget
      exact State.fget_of_empty hd hh hget rfl hm
    case peek =>
      have hget := exec_of_fgetMbx (c := .fpeekMbx t rd ra k) (b := false) hi hg rfl
      obtain ⟨u, he, hrd, hcopy, -⟩ := State.fget_of_source (P := fun _ => True) hd hh hget rfl hm (fun _ => rfl) trivial
      exact ⟨u, he, hrd, hcopy⟩

end Sys2Proof.Machine

/-! SUPPORT. fput by its outcomes, the item that it queues, and the proof of its statement (chapters 9, 14). -/

namespace Sys2Proof.Machine

open Sys2Proof.Safety

theorem TxQueue.outcome_items (q : TxQueue) (code : Nat) : (q.outcome code).items = q.items := by
  unfold TxQueue.outcome
  dsimp only
  split_ifs <;> rfl

namespace State

/-! ### The slot that an item takes (R348) -/

theorem mem_of_pickSlot {s : State} {free : List Nat} {d : Nat} (h : s.pickSlot free = some d) : d ∈ free := by
  match free, h with
  | [g], h => exact Option.some.inj h ▸ List.mem_singleton_self g
  | _ :: _ :: _, h => exact List.mem_of_getElem? h

/-- An offer is accepted only with a FREE slot and at most 64 data bytes. -/
theorem offerJudge_of_accepted {s : State} {n q : Fin 4} {g : Nat} (h : (s.offerJudge n q g).1 = stAccepted) :
    s.freeSlots n (s.tq n q) ≠ [] ∧ bitsOf (s.slotWord g 1) 0 7 ≤ 64 := by
  unfold offerJudge at h
  dsimp only at h
  split at h
  · exact absurd h (by decide)
  · next hfree =>
    refine ⟨fun hnil => hfree (by rw [hnil]; rfl), Nat.not_lt.1 fun hlen => ?_⟩
    simp only [frameJudge, decide_eq_true hlen, Bool.true_or, if_true] at h
    exact absurd h (by decide)

/-! ### The item that fput queues (R517) -/

section
variable (s : State) (n q : Fin 4) (src dst : Nat)

/-- The words of an item that fput queues. -/
def offeredWords : List Word :=
  let iso := bitOf (s.slotWord src 0) 31
  let w1 := s.slotWord src 1 &&& (if iso then 0x000FFFFF else 0x000F7FFF)
  [if iso then s.slotWord src 0 else BitVec.ofNat 32 (s.offerFrame src).id.toNat, w1,
    field 14 ownLine ||| field 11 ((s.tq n q).prod % 8) ||| field 16 s.pans[n].gen.toNat, 0, 0, s.slotWord src 5, s.slotWord src 6, 0] ++
    (List.range (dataWords (bitsOf w1 0 7))).map fun k => s.slotWord src (8 + k)

theorem copyItem_eq : s.copyItem n q src dst =
    (s.putSlotWords dst 0 (s.offeredWords n q src)).updTq n q fun tq =>
      { tq with items := tq.items ++ [⟨dst, .queued, false, none⟩] } := rfl

theorem copyItem_items : ((s.copyItem n q src dst).tq n q).items = (s.tq n q).items ++ [⟨dst, .queued, false, none⟩] := by
  rw [copyItem_eq, updTq_tq, tq_congr (putSlotWords_pans ..)]

theorem copyItem_mem : (s.copyItem n q src dst).mem = (s.putSlotWords dst 0 (s.offeredWords n q src)).mem := by
  rw [copyItem_eq, updTq_mem]

/-- The item keeps LEN. -/
theorem offered_len (iso : Bool) (w : Word) :
    bitsOf (w &&& (if iso then 0x000FFFFF else 0x000F7FFF)) 0 7 = bitsOf w 0 7 := by
  refine bitsOf_congr fun i hi => ?_
  rw [BitVec.getLsbD_and]
  cases iso <;> interval_cases i <;> exact Bool.and_true _

variable (hlen : bitsOf (s.slotWord src 1) 0 7 ≤ 64)
include hlen

theorem offeredWords_length : (s.offeredWords n q src).length ≤ 24 := by
  have h : dataWords (bitsOf (s.slotWord src 1) 0 7) ≤ 16 := by
    unfold dataWords
    omega
  simp only [offeredWords, offered_len, List.length_append, List.length_map, List.length_range, List.length_cons, List.length_nil]
  omega

theorem copyItem_data {k : Nat} (hk : k < dataWords (bitsOf (s.slotWord src 1) 0 7)) :
    (s.copyItem n q src dst).slotWord dst (8 + k) = s.slotWord src (8 + k) := by
  rw [slotWord_congr (s.copyItem_mem n q src dst)]
  refine s.slotWord_putSlotWords_of_getElem? dst (s.offeredWords_length n q src hlen) ?_
  rw [offeredWords, List.getElem?_append_right (by simp), offered_len]
  simp [hk]

theorem copyItem_source (hne : dst ≠ src) {w : Nat} (hw : w < 24) :
    (s.copyItem n q src dst).slotWord src w = s.slotWord src w := by
  rw [slotWord_congr (s.copyItem_mem n q src dst)]
  exact s.slotWord_putSlotWords_of_ne dst _ hne hw ((Nat.zero_add _).trans_le (s.offeredWords_length n q src hlen))

end

/-! ### fput by its outcomes (R517) -/

section
variable {s : State} {t : Fin 8} {rd ra : Fin 16} {q : Fin 4}

theorem fput_of_foreign (h : s.slotGlobal (s.thrPan t) (s.gReg t ra).toNat = none) : s.fput t rd ra q = s.threadFault t fcForeign := by
  rw [fput]
  dsimp only
  rw [h]

variable {g : Nat} (hg : s.slotGlobal (s.thrPan t) (s.gReg t ra).toNat = some g)
include hg

theorem fput_of_stranger (hp : s.isCode (s.thrPan t) (.thread t) (s.tq (s.thrPan t) q).prod = false) :
    s.fput t rd ra q =
      ((s.ownRef (s.thrPan t)).updTq (s.thrPan t) q fun tq => { tq with cnt := incCnt tq.cnt 0 }).result t rd
        (BitVec.ofNat 32 stRefused) := by
  rw [fput]
  dsimp only
  rw [hg]
  exact if_pos (by rw [hp]; rfl)

variable (hp : s.isCode (s.thrPan t) (.thread t) (s.tq (s.thrPan t) q).prod = true)
include hp

theorem fput_of_not_held (hh : s.slotHeldBy g t = false) :
    s.fput t rd ra q = (s.ownRef (s.thrPan t)).fputEnd t (s.thrPan t) q rd stRefused := by
  rw [fput]
  dsimp only
  rw [hg]
  exact (if_neg (by rw [hp]; decide)).trans (if_pos (by rw [hh]; rfl))

variable (hh : s.slotHeldBy g t = true)
include hh

theorem fput_of_full (hf : s.freeSlots (s.thrPan t) (s.tq (s.thrPan t) q) = []) :
    s.fput t rd ra q = s.fputEnd t (s.thrPan t) q rd stRefused := by
  have hj : s.offerJudge (s.thrPan t) q g = (stRefused, []) := if_pos (by rw [hf]; rfl)
  rw [fput]
  dsimp only
  rw [hg]
  refine (if_neg (by rw [hp]; decide)).trans ((if_neg (by rw [hh]; decide)).trans ?_)
  rw [hj]
  rfl

theorem fput_of_accepted (ha : (s.offerJudge (s.thrPan t) q g).1 = stAccepted) :
    ∃ d ∈ s.freeSlots (s.thrPan t) (s.tq (s.thrPan t) q), s.fput t rd ra q =
      if s.limit t ≤ s.charge t then s.threadFault t fcQuota
      else (s.takeFree.copyItem (s.thrPan t) q g d).fputEnd t (s.thrPan t) q rd stAccepted := by
  obtain ⟨x, hx⟩ := List.exists_mem_of_ne_nil _ (offerJudge_of_accepted ha).1
  obtain ⟨d, hd, hpick⟩ := s.pickSlot_of_mem hx
  refine ⟨d, hd, ?_⟩
  rw [fput]
  dsimp only
  rw [hg]
  refine (if_neg (by rw [hp]; decide)).trans ((if_neg (by rw [hh]; decide)).trans ?_)
  rw [ha, hpick]
  rfl

end

/-! ### The end of an fput -/

section
variable (s : State) (t : Fin 8) (n q : Fin 4) (rd : Fin 16) (code : Nat)

theorem fputEnd_mem : (s.fputEnd t n q rd code).mem = s.mem := (result_mem ..).trans (updTq_mem ..)

theorem fputEnd_items : ((s.fputEnd t n q rd code).tq n q).items = (s.tq n q).items := by
  rw [fputEnd, tq_congr (result_pans ..), updTq_tq, TxQueue.outcome_items]

theorem fputEnd_gReg (h : rd ≠ 0) : (s.fputEnd t n q rd code).gReg t rd = BitVec.ofNat 32 code := result_gReg_self _ _ _ _ h

theorem fputEnd_ownRef : (s.fputEnd t n q rd code).pans[n].ownRef = s.pans[n].ownRef := by
  rw [fputEnd, result_pans, updTq, updPan_pans, tabUpd_get, if_pos rfl]

theorem ownRef_tq : (s.ownRef n).tq n q = s.tq n q := by
  simp [tq, ownRef, tabUpd_get, -Fin.getElem_fin]

end

end State

/-- Settles O25: fput by the first of its conditions that fails, and by the item that it queues when none does. -/
theorem fputQueuesAHeldFrame : Obligations.FputQueuesAHeldFrame := by
  unfold Obligations.FputQueuesAHeldFrame
  intro s t rd ra q hi n tq refused
  have hput {u : State} (h : s.fput t rd ra q = u) : exec (.fput t rd ra q) s = .next u :=
    (exec_of_canIssue (k := fun s => s.fput t rd ra q) hi rfl).trans (next_congr h)
  refine ⟨fun hg => hput (State.fput_of_foreign hg), fun g hg => ⟨fun hp => ⟨_, hput (State.fput_of_stranger hg hp), ?stranger⟩,
    fun hp hh => ⟨_, hput (State.fput_of_not_held hg hp hh), ?notHeld⟩,
    fun hp hh hf => ⟨_, hput (State.fput_of_full hg hp hh hf), ?full⟩, fun hp hh ha => ?accepted⟩⟩
  case stranger =>
    refine ⟨⟨State.result_mem .., ?_, fun h => State.result_gReg_self _ _ _ _ h⟩, ?_⟩
    · rw [State.tq_congr (State.result_pans ..), State.updTq_tq, State.ownRef_tq]
    · rw [State.result_pans, State.updTq, State.updPan_pans, tabUpd_get, if_pos rfl]
      exact s.ownRef_self n
  case notHeld =>
    refine ⟨⟨State.fputEnd_mem .., ?_, fun h => State.fputEnd_gReg _ t n q rd _ h⟩, ?_⟩
    · rw [State.fputEnd_items, State.ownRef_tq]
    · rw [State.fputEnd_ownRef]
      exact s.ownRef_self n
  case full =>
    exact ⟨State.fputEnd_mem .., State.fputEnd_items .., fun h => State.fputEnd_gReg _ t n q rd _ h⟩
  case accepted =>
    obtain ⟨d, hd, hfput⟩ := State.fput_of_accepted (rd := rd) hg hp hh ha
    obtain ⟨-, hlen⟩ := State.offerJudge_of_accepted ha
    refine ⟨fun hq => hput (hfput.trans (if_pos hq)),
      fun hq hfree => ⟨_, d, hput (hfput.trans (if_neg (Nat.not_le.2 hq))), hd, ?_, fun h => State.fputEnd_gReg _ t n q rd _ h,
        fun w hw => ?_, fun k hk _ => ?_⟩⟩
    · rw [State.fputEnd_items, State.copyItem_items]
      rfl
    · have hne : d ≠ g := by
        rintro rfl
        rw [List.contains_iff_mem.2 hd] at hfree
        exact absurd hfree (by decide)
      rw [State.slotWord_congr (State.fputEnd_mem ..)]
      exact State.copyItem_source s.takeFree n q g d hlen hne hw
    · rw [State.slotWord_congr (State.fputEnd_mem ..)]
      exact State.copyItem_data s.takeFree n q g d hlen hk

end Sys2Proof.Machine

/-! SUPPORT. The sources under the operations on their bits, and the proof of the statement on IC_PEND_SET, IC_PEND_CLR, IC_EN_SET
and IC_EN_CLR (chapter 15). -/

namespace Sys2Proof.Machine

open Sys2Proof.Safety

theorem leads_mono {c : Instr} {s : State} {P Q : State → Prop} (h : Leads c s P) (hPQ : ∀ u, P u → Q u) : Leads c s Q := by
  obtain ⟨u, hu, hP⟩ := h
  exact ⟨u, hu, hPQ u hP⟩

/-! ### One source of the interrupt controller (R542-R544) -/

/-- What the operations on bits see of a source: its bits, its count, and whether it is in service. -/
structure SourceView where
  pend : Bool
  en : Bool
  ovf : Bool
  cnt : BitVec 4
  serving : Bool

/-- An arrival: it pends, or it counts, or at 15 it sets OVF. -/
def SourceView.arrive (x : SourceView) : SourceView :=
  if !(x.pend || x.serving) then { x with pend := true }
  else if x.cnt = 15 then { x with ovf := true }
  else { x with cnt := x.cnt + 1 }

/-- An arrival at a source that is pending or in service counts, or at 15 sets OVF; at any other it pends. -/
theorem SourceView.arrive_cases (x y : SourceView) (h : y = x.arrive) :
    if x.pend = true ∨ x.serving = true then
      y.pend = x.pend ∧ (if x.cnt = 15 then y.ovf = true ∧ y.cnt = 15 else y.ovf = x.ovf ∧ y.cnt = x.cnt + 1)
    else y.pend = true ∧ y.cnt = x.cnt ∧ y.ovf = x.ovf := by
  subst h
  have hbusy : (!(x.pend || x.serving)) = true ↔ ¬(x.pend = true ∨ x.serving = true) := by simp
  rw [arrive]
  by_cases hb : x.pend = true ∨ x.serving = true
  · rw [if_pos hb, if_neg fun hn => hbusy.1 hn hb]
    by_cases hc : x.cnt = 15
    · rw [if_pos hc, if_pos hc]
      exact ⟨rfl, rfl, hc⟩
    · rw [if_neg hc, if_neg hc]
      exact ⟨rfl, rfl, rfl⟩
  · rw [if_neg hb, if_pos (hbusy.2 hb)]
    exact ⟨rfl, rfl, rfl⟩

/-- IC_PEND_CLR. -/
def SourceView.clear (x : SourceView) : SourceView := { x with pend := false, ovf := false, cnt := 0 }

/-- IC_EN_SET and IC_EN_CLR. -/
def SourceView.putEn (b : Bool) (x : SourceView) : SourceView := { x with en := b }

namespace Irq

/-- Source `k` as the controller holds it. -/
def source (q : Irq) (k : Fin 128) : SourceView := ⟨bitOf q.pend k, bitOf q.en k, bitOf q.ovf k, q.cnt[k], q.inService k⟩

/-- The enable bit of one source. -/
def putEn (b : Bool) (q : Irq) (k : Fin 128) : Irq := { q with en := putBit q.en k b }

/-- An operation on one source that does `g` to it and leaves the others. -/
def ActsBy (f : Irq → Fin 128 → Irq) (g : SourceView → SourceView) : Prop :=
  ∀ q k j, (f q k).source j = if j = k then g (q.source k) else q.source j

section
variable (q : Irq) (k j : Fin 128) (b : Bool)

theorem bitOf_putBit_source (m : BitVec 128) : bitOf (putBit m k b) j = if j = k then b else bitOf m j := by
  rw [bitOf_putBit _ _ _ _ j.isLt]
  exact if_congr (Fin.ext_iff.symm.trans eq_comm) rfl rfl

theorem source_putPend :
    ({ q with pend := putBit q.pend k b } : Irq).source j = if j = k then { q.source k with pend := b } else q.source j := by
  have hb := bitOf_putBit_source k j b q.pend
  simp only [source, hb]
  split
  · next h => subst h; rfl
  · rfl

theorem source_putOvf :
    ({ q with ovf := putBit q.ovf k b } : Irq).source j = if j = k then { q.source k with ovf := b } else q.source j := by
  have hb := bitOf_putBit_source k j b q.ovf
  simp only [source, hb]
  split
  · next h => subst h; rfl
  · rfl

theorem source_updCnt (f : BitVec 4 → BitVec 4) :
    ({ q with cnt := tabUpd q.cnt k f } : Irq).source j = if j = k then { q.source k with cnt := f q.cnt[k] } else q.source j := by
  have hc := tabUpd_get q.cnt k j f
  simp only [source, hc]
  by_cases h : j = k
  · subst h; simp only [if_true]; rfl
  · simp only [if_neg h, if_neg (Ne.symm h)]; rfl

end

theorem arrive_actsBy : ActsBy arrive SourceView.arrive := by
  intro q k j
  have hbusy : ((q.source k).pend || (q.source k).serving) = (bitOf q.pend k || q.inService k) := rfl
  rw [arrive, SourceView.arrive, hbusy]
  by_cases hb : (!(bitOf q.pend k || q.inService k)) = true
  · rw [if_pos hb, if_pos hb]
    exact source_putPend q k j true
  · rw [if_neg hb, if_neg hb]
    by_cases hc : q.cnt[k] = 15
    · rw [if_pos hc, if_pos (show (q.source k).cnt = 15 from hc)]
      exact source_putOvf q k j true
    · rw [if_neg hc, if_neg (show ¬(q.source k).cnt = 15 from hc)]
      exact source_updCnt q k j (· + 1)

theorem clearSource_actsBy : ActsBy clearSource SourceView.clear := by
  intro q k j
  let q1 : Irq := { q with pend := putBit q.pend k false }
  let q2 : Irq := { q1 with ovf := putBit q.ovf k false }
  have hcnt : (q.clearSource k).source j = if j = k then { q2.source k with cnt := 0 } else q2.source j :=
    source_updCnt q2 k j fun _ => 0
  have hovf (i : Fin 128) : q2.source i = if i = k then { q1.source k with ovf := false } else q1.source i :=
    source_putOvf q1 k i false
  have hpend (i : Fin 128) : q1.source i = if i = k then { q.source k with pend := false } else q.source i :=
    source_putPend q k i false
  rw [hcnt, hovf, hovf, hpend, hpend, if_pos rfl, if_pos rfl]
  split <;> rfl

theorem putEn_actsBy (b : Bool) : ActsBy (putEn b) (SourceView.putEn b) := by
  intro q k j
  have hb := bitOf_putBit_source k j b q.en
  simp only [putEn, source, hb]
  split
  · next h => subst h; rfl
  · rfl

/-- An operation made on each of several sources. -/
theorem source_foldl {f : Irq → Fin 128 → Irq} {g : SourceView → SourceView} (hf : ActsBy f g) {ks : List (Fin 128)}
    (hn : ks.Nodup) (q : Irq) (j : Fin 128) :
    (ks.foldl f q).source j = if j ∈ ks then g (q.source j) else q.source j := by
  induction ks generalizing q with
  | nil => rfl
  | cons k ks ih =>
    obtain ⟨hk, hn⟩ := List.nodup_cons.1 hn
    rw [List.foldl_cons, ih hn, hf]
    by_cases hj : j = k
    · subst hj; simp [hk]
    · simp [hj]

end Irq

/-! ### The sources that a write names (R541, R723, R749) -/

/-- The sources named by word `w` of the system block, or by bit 0 in a window. -/
def State.namedSources (s : State) (p : Party) (via : Via) (w : Fin 4) (v : Word) : List (Fin 128) :=
  match via with
  | .sys => s.srcBits 0 w v
  | .win n => s.selBits p n v

namespace State

section
variable {s : State} {p : Party} {w : Fin 4} {v : Word} {k : Fin 128}

theorem mem_srcBits {n : Fin 4} :
    k ∈ s.srcBits n w v ↔ k.val / 32 = w.val ∧ v.getLsbD (k.val % 32) = true ∧ s.panSrc n k.val = true := by
  have hw := w.isLt
  simp only [srcBits, List.mem_filterMap, List.mem_range, Option.ite_none_right_eq_some, Option.some.injEq, Bool.and_eq_true]
  constructor
  · rintro ⟨b, hb, ⟨hv, hp⟩, rfl⟩
    have hk : (idx 128 (32 * w.val + b)).val = 32 * w.val + b := Nat.mod_eq_of_lt (by omega)
    rw [hk, show (32 * w.val + b) / 32 = w.val by omega, show (32 * w.val + b) % 32 = b by omega]
    exact ⟨rfl, hv, hp⟩
  · rintro ⟨hk, hv, hp⟩
    have hb : 32 * w.val + k.val % 32 = k.val := by omega
    exact ⟨k.val % 32, Nat.mod_lt _ (by decide), ⟨hv, by rwa [hb]⟩, by rw [hb]; exact Fin.ofNat_val_eq_self k⟩

theorem mem_selBits {n : Fin 4} : k ∈ s.selBits p n v ↔ v.getLsbD 0 = true ∧ s.selSrc p n = some k := by
  rw [selBits]
  split
  · next h => exact Option.mem_toList.trans (and_iff_right h).symm
  · next h => exact iff_of_false List.not_mem_nil fun hk => h hk.1

theorem srcExists_of_selSrc {n : Fin 4} (h : s.selSrc p n = some k) : srcExists k.val = true := by
  obtain ⟨hp, hk⟩ := Option.ite_none_right_eq_some.1 h
  cases hk
  have hk : (idx 128 (bitsOf (s.sel p n) 0 7)).val = bitsOf (s.sel p n) 0 7 := Nat.mod_eq_of_lt (bitsOf_lt _ 0 7)
  rw [hk]
  exact (Bool.and_eq_true_iff.1 hp).1

theorem srcBits_nodup (n : Fin 4) : (s.srcBits n w v).Nodup := by
  refine List.pairwise_filterMap.2 (List.pairwise_lt_range.imp_of_mem fun {a b} ha hb hab k hk l hl e => ?_)
  obtain ⟨-, hk⟩ := Option.ite_none_right_eq_some.1 hk
  obtain ⟨-, hl⟩ := Option.ite_none_right_eq_some.1 hl
  have hlt (c : Nat) (hc : c ∈ List.range 32) : 32 * w.val + c < 128 := by
    have hw := w.isLt
    have hc := List.mem_range.1 hc
    omega
  have hsame : idx 128 (32 * w.val + a) = idx 128 (32 * w.val + b) := Option.some.inj (hk.trans (e ▸ hl.symm))
  have hval := congrArg Fin.val hsame
  rw [idx, idx, Fin.val_ofNat, Fin.val_ofNat, Nat.mod_eq_of_lt (hlt a ha), Nat.mod_eq_of_lt (hlt b hb)] at hval
  omega

/-- No source is named twice. -/
theorem namedSources_nodup (via : Via) : (s.namedSources p via w v).Nodup := by
  cases via with
  | sys => exact srcBits_nodup 0
  | win n =>
    show (s.selBits p n v).Nodup
    rw [selBits]
    split
    · exact Option.toList_nodup _
    · exact List.nodup_nil

/-- Every source named exists. -/
theorem srcExists_of_named {via : Via} (h : k ∈ s.namedSources p via w v) : srcExists k.val = true := by
  cases via with
  | sys => exact (Bool.and_eq_true_iff.1 (mem_srcBits.1 h).2.2).1
  | win n => exact srcExists_of_selSrc (mem_selBits.1 h).2

end

/-! ### The operations on several sources -/

/-- While the core runs, an arrival is that of the controller alone. -/
theorem arrive_irq {s : State} {k : Fin 128} (hr : s.coreRuns = true) (he : srcExists k.val = true) :
    (s.arrive k.val).irq = s.irq.arrive k := by
  have hk : idx 128 k.val = k := Fin.ofNat_val_eq_self k
  rw [arrive, if_neg (by rw [he]; decide), if_pos hr, settleWaits_irq, hk]
  rfl

end State

/-- The operation does `g` to each of the sources, which exist and are named once, and leaves the others. -/
structure OnSources (op : State → List (Fin 128) → State) (g : SourceView → SourceView) : Prop where
  keeps : ∀ (u : State) (ks : List (Fin 128)), Keeps false u (op u ks)
  source : ∀ {u : State} {ks : List (Fin 128)} {j : Fin 128}, u.coreRuns = true → ks.Nodup →
    (∀ k ∈ ks, srcExists k.val = true) →
    (op u ks).irq.source j = if j ∈ ks then g (u.irq.source j) else u.irq.source j

namespace State

theorem pendSet_irq {s : State} {ks : List (Fin 128)} (hr : s.coreRuns = true) (he : ∀ k ∈ ks, srcExists k.val = true) :
    (s.pendSet ks).irq = ks.foldl Irq.arrive s.irq := by
  induction ks generalizing s with
  | nil => rfl
  | cons k ks ih =>
    obtain ⟨hk, hks⟩ := List.forall_mem_cons.1 he
    rw [List.foldl_cons, ← arrive_irq hr hk]
    exact ih (coreRuns_congr hr (s.arrive_pow k.val)) hks

theorem putEn_foldl (b : Bool) (ks : List (Fin 128)) (q : Irq) :
    { q with en := ks.foldl (fun m k => putBit m k.val b) q.en } = ks.foldl (Irq.putEn b) q := by
  induction ks generalizing q with
  | nil => rfl
  | cons k ks ih => exact ih (q.putEn b k)

theorem pendSet_onSources : OnSources pendSet SourceView.arrive where
  keeps u ks := pendSet_keeps ks (.refl false u)
  source hr hn he := (congrArg (Irq.source · _) (pendSet_irq hr he)).trans (Irq.source_foldl Irq.arrive_actsBy hn _ _)

theorem pendClr_onSources : OnSources pendClr SourceView.clear where
  keeps u ks := pendClr_keeps ks (.refl false u)
  source _ hn _ := Irq.source_foldl Irq.clearSource_actsBy hn _ _

theorem enSet_onSources : OnSources enSet (SourceView.putEn true) where
  keeps u ks := enSet_keeps ks (.refl false u)
  source {u ks j} _ hn _ := by
    have hirq : (u.enSet ks).irq = ks.foldl (Irq.putEn true) u.irq := (settleWaits_irq _).trans (putEn_foldl true ks u.irq)
    rw [hirq]
    exact Irq.source_foldl (Irq.putEn_actsBy true) hn u.irq j

theorem enClr_onSources : OnSources enClr (SourceView.putEn false) where
  keeps u ks := enClr_keeps ks (.refl false u)
  source {u ks j} _ hn _ := by
    have hirq : (u.enClr ks).irq = ks.foldl (Irq.putEn false) u.irq := putEn_foldl false ks u.irq
    rw [hirq]
    exact Irq.source_foldl (Irq.putEn_actsBy false) hn u.irq j

/-! ### A served write of such a register -/

section
variable (s : State) (p : Party) (key : Option (Fin 5)) (r : Rg)

@[simp] theorem writing_irq : (s.writing p key r).irq = s.irq := by rw [writing_eq]

theorem writing_coreRuns : (s.writing p key r).coreRuns = s.coreRuns := by
  rw [writing_eq]
  cases p <;> rfl

theorem writing_namedSources (via : Via) (w : Fin 4) (v : Word) :
    (s.writing p key r).namedSources p via w v = s.namedSources p via w v := by
  rw [writing_eq]
  cases via <;> rfl

end

theorem coreRuns_of_served {s : State} {p : Party} {via : Via} (h : served s p via) : s.coreRuns = true := by
  obtain ⟨-, -, hp⟩ := h
  cases p with
  | host h => exact (Bool.and_eq_true_iff.1 hp.2.1).2
  | thread t => exact hp.1

/-- The open window of a pan has its register at each offset. -/
theorem regAt_of_open {s : State} {n : Fin 4} (ho : s.winClosed n = false) (o : Nat) : s.regAt (.win n) o = s.winReg n o := by
  rw [regAt, ho]
  rfl

end State

/-- The register of a way of access: that of the system block, or that of a window. -/
def regVia (via : Via) (sys : Rg) (win : Fin 4 → Rg) : Rg :=
  match via with
  | .sys => sys
  | .win n => win n

section
variable {s : State} {p : Party} {via : Via} {w : Fin 4} {v : Word} (hs : served s p via)
  (ho : ∀ n, via = .win n → s.winClosed n = false)

include ho in
theorem State.regAt_regVia {base off : Nat} {rsys : Rg} {rwin : Fin 4 → Rg} (hsys : s.sysReg base = rsys)
    (hwin : ∀ n, s.winReg n off = rwin n) : s.regAt via (regOffset via base off) = regVia via rsys rwin := by
  cases via with
  | sys => exact hsys
  | win n => exact (State.regAt_of_open (ho n rfl) off).trans (hwin n)

include hs

/-- A write of a register by which such an operation is made on each source named. -/
theorem leads_onSources {c : Instr} {base off : Nat} {rsys : Rg} {rwin : Fin 4 → Rg} {op : State → List (Fin 128) → State}
    {g : SourceView → SourceView} (hop : OnSources op g) (he : exec c s = .next (s.partyWrite p via (regOffset via base off) v))
    (hr : s.regAt via (regOffset via base off) = regVia via rsys rwin) (hkey : keyScope via (regVia via rsys rwin) = none)
    (hcap : writeCap (regVia via rsys rwin) v = none)
    (hput : ∀ u : State, u.putReg1 p via (regVia via rsys rwin) v = op u (u.namedSources p via w v)) :
    Leads c s fun u => ∀ k, u.irq.source k = if k ∈ s.namedSources p via w v then g (s.irq.source k) else s.irq.source k := by
  refine leads_open_write he hs hr hkey (by rw [State.capMissing, hcap]; rfl) (by rw [hput]; exact hop.keeps _ _) fun u hu k => ?_
  rw [hu.irq, hput, State.writing_namedSources, hop.source ((s.writing_coreRuns ..).trans (State.coreRuns_of_served hs))
    (State.namedSources_nodup via) fun k hk => State.srcExists_of_named hk, State.writing_irq]

include ho

/-- IC_PEND_SET: an arrival at each source named. -/
theorem leads_icPendSet : Leads (.icPendSet p via w v) s fun u =>
    ∀ k, u.irq.source k = if k ∈ s.namedSources p via w v then (s.irq.source k).arrive else s.irq.source k :=
  leads_onSources (base := 0x880 + 4 * w.val) (off := 0x0F0) (rsys := .icPendSet w) (rwin := .winPendSet) hs State.pendSet_onSources
    (by cases via <;> rfl) (State.regAt_regVia ho (by fin_cases w <;> rfl) fun _ => rfl) (by cases via <;> rfl)
    (by cases via <;> rfl) fun _ => by cases via <;> rfl

/-- IC_PEND_CLR: each source named is cleared. -/
theorem leads_icPendClr : Leads (.icPendClr p via w v) s fun u =>
    ∀ k, u.irq.source k = if k ∈ s.namedSources p via w v then (s.irq.source k).clear else s.irq.source k :=
  leads_onSources (base := 0x890 + 4 * w.val) (off := 0x0F4) (rsys := .icPendClr w) (rwin := .winPendClr) hs State.pendClr_onSources
    (by cases via <;> rfl) (State.regAt_regVia ho (by fin_cases w <;> rfl) fun _ => rfl) (by cases via <;> rfl)
    (by cases via <;> rfl) fun _ => by cases via <;> rfl

/-- IC_EN_SET: each source named is enabled. -/
theorem leads_icEnSet : Leads (.icEnSet p via w v) s fun u =>
    ∀ k, u.irq.source k = if k ∈ s.namedSources p via w v then (s.irq.source k).putEn true else s.irq.source k :=
  leads_onSources (base := 0x8A0 + 4 * w.val) (off := 0x0F8) (rsys := .icEnSet w) (rwin := .winEnSet) hs State.enSet_onSources
    (by cases via <;> rfl) (State.regAt_regVia ho (by fin_cases w <;> rfl) fun _ => rfl) (by cases via <;> rfl)
    (by cases via <;> rfl) fun _ => by cases via <;> rfl

/-- IC_EN_CLR: each source named is disabled. -/
theorem leads_icEnClr : Leads (.icEnClr p via w v) s fun u =>
    ∀ k, u.irq.source k = if k ∈ s.namedSources p via w v then (s.irq.source k).putEn false else s.irq.source k :=
  leads_onSources (base := 0x8B0 + 4 * w.val) (off := 0x0FC) (rsys := .icEnClr w) (rwin := .winEnClr) hs State.enClr_onSources
    (by cases via <;> rfl) (State.regAt_regVia ho (by fin_cases w <;> rfl) fun _ => rfl) (by cases via <;> rfl)
    (by cases via <;> rfl) fun _ => by cases via <;> rfl

end

/-! ### The statement -/

/-- Settles O31: each command makes one operation on every source that it names. -/
theorem setAndClearBitsOfSources : Obligations.SetAndClearBitsOfSources := by
  unfold Obligations.SetAndClearBitsOfSources
  intro s p via w v hs hopen named each same
  have ho (n : Fin 4) (hv : via = .win n) : s.winClosed n = false := by subst hv; exact hopen
  have hnamed (k : Fin 128) : named k ↔ k ∈ s.namedSources p via w v := by
    cases via with
    | sys => exact State.mem_srcBits.symm
    | win n => exact State.mem_selBits.symm
  have hin {q : Irq} {k : Fin 128} {x : SourceView} (h : q.source k = if k ∈ s.namedSources p via w v then x else s.irq.source k)
      (hk : named k) : q.source k = x := h.trans (if_pos ((hnamed k).1 hk))
  have hout {q : Irq} {k : Fin 128} {x : SourceView} (h : q.source k = if k ∈ s.namedSources p via w v then x else s.irq.source k)
      (hk : ¬named k) : same q k := by
    have e : q.source k = s.irq.source k := h.trans (if_neg fun hm => hk ((hnamed k).2 hm))
    exact ⟨congrArg SourceView.pend e, congrArg SourceView.en e, congrArg SourceView.ovf e, congrArg SourceView.cnt e⟩
  refine ⟨?arrival, ?clear, ?enable, ?disable⟩
  case arrival =>
    refine leads_mono (leads_icPendSet (w := w) hs ho) fun u h k => ⟨fun hk => ?_, hout (h k)⟩
    exact (s.irq.source k).arrive_cases (u.irq.source k) (hin (h k) hk)
  case clear =>
    refine leads_mono (leads_icPendClr (w := w) hs ho) fun u h k => ⟨fun hk => ?_, hout (h k)⟩
    have e := hin (h k) hk
    exact ⟨congrArg SourceView.pend e, congrArg SourceView.cnt e, congrArg SourceView.ovf e, congrArg SourceView.en e⟩
  case enable =>
    refine leads_mono (leads_icEnSet (w := w) hs ho) fun u h k => ⟨fun hk => ?_, hout (h k)⟩
    have e := hin (h k) hk
    exact ⟨congrArg SourceView.en e, congrArg SourceView.pend e⟩
  case disable =>
    refine leads_mono (leads_icEnClr (w := w) hs ho) fun u h k => ⟨fun hk => ?_, hout (h k)⟩
    have e := hin (h k) hk
    exact ⟨congrArg SourceView.en e, congrArg SourceView.pend e⟩

end Sys2Proof.Machine

/-! SUPPORT. Claims, completions and UNWIND at a host target, and the proof of their statement (chapter 15). -/

namespace Sys2Proof.Machine

open Sys2Proof.Safety

/-! ### The best of the deliverable sources (R547) -/

theorem mem_of_bestSource {q : Irq} {l : List (Fin 128)} {k : Fin 128} (h : bestSource q l = some k) : k ∈ l := by
  induction l with
  | nil => exact absurd h (by nofun)
  | cons a l ih =>
    rw [bestSource] at h
    split at h
    · exact Option.some.inj h ▸ List.mem_cons_self
    · next j hj =>
      split at h
      · exact List.mem_cons_of_mem a (ih (hj.trans h))
      · exact Option.some.inj h ▸ List.mem_cons_self

/-- `k` has the highest priority in the list, ties to the lower number. -/
def Irq.Best (q : Irq) (l : List (Fin 128)) (k : Fin 128) : Prop :=
  k ∈ l ∧ ∀ j ∈ l, j ≠ k → q.prio[j] < q.prio[k] ∨ (q.prio[j] = q.prio[k] ∧ k < j)

theorem bestSource_of_best {q : Irq} {l : List (Fin 128)} {k : Fin 128} (hl : l.Pairwise (· < ·)) (hb : q.Best l k) :
    bestSource q l = some k := by
  induction l with
  | nil => exact absurd hb.1 List.not_mem_nil
  | cons a l ih =>
    obtain ⟨hmem, hmax⟩ := hb
    obtain ⟨ha, hl⟩ := List.pairwise_cons.1 hl
    rw [bestSource]
    rcases List.mem_cons.1 hmem with rfl | hk
    · split
      · rfl
      · next j hj =>
        have hjl := mem_of_bestSource hj
        refine if_neg fun hlt => ?_
        rcases hmax j (List.mem_cons_of_mem k hjl) (ne_of_gt (ha j hjl)) with h | ⟨h, -⟩
        · exact BitVec.lt_asymm h hlt
        · exact BitVec.lt_irrefl _ (h ▸ hlt)
    · rw [ih hl ⟨hk, fun j hj => hmax j (List.mem_cons_of_mem a hj)⟩]
      refine if_pos ?_
      rcases hmax a List.mem_cons_self (ne_of_lt (ha k hk)) with h | ⟨-, h⟩
      · exact h
      · exact absurd h (lt_asymm (ha k hk))

/-! ### A claim at a host target (R547, R553) -/

/-- A hold that a claim starts changes the held targets alone. -/
theorem Irq.startHold_eq (q : Irq) (x : Fin 10) (k : Fin 128) (own : Bool) :
    q.startHold x k own = { q with held := (q.startHold x k own).held } := by
  unfold startHold
  dsimp only
  split <;> rfl

/-- The target of a host port. -/
def hostTarget (h : Fin 2) : Fin 10 := ⟨h.val, by omega⟩

namespace State

theorem takeSource_parts (s : State) (x : Fin 10) (k : Fin 128) :
    (s.takeSource x k).irq.pend = putBit s.irq.pend k false ∧ (s.takeSource x k).irq.stack = s.irq.stack ∧
      (s.takeSource x k).irq.cnt = s.irq.cnt ∧ (s.takeSource x k).irq.prio = s.irq.prio := by
  have hhold (q : Irq) (own : Bool) : (q.startHold x k own).pend = q.pend ∧ (q.startHold x k own).stack = q.stack ∧
      (q.startHold x k own).cnt = q.cnt ∧ (q.startHold x k own).prio = q.prio := by
    rw [Irq.startHold_eq]
    exact ⟨rfl, rfl, rfl, rfl⟩
  exact hhold ..

/-- The state after the claim of source `k` at a host target. -/
def hostClaimed (s : State) (h : Fin 2) (k : Fin 128) : State :=
  (s.takeSource (hostTarget h) k).updIrq fun q =>
    { q with stack := tabUpd q.stack h fun st => ⟨BitVec.ofFin k, q.prio[k]⟩ :: st }

section
variable {s : State} {h : Fin 2} {k : Fin 128}

theorem deliverables_pairwise (s : State) (en : BitVec 128) (x : Fin 10) : (s.deliverables en x).Pairwise (· < ·) := by
  rw [deliverables_eq_filter]
  exact (List.pairwise_lt_finRange 128).filter _

theorem mem_deliverables {en : BitVec 128} {x : Fin 10} : k ∈ s.deliverables en x ↔ s.deliverable en x k = true := by
  rw [deliverables_eq_filter, List.mem_filter]
  exact and_iff_right (List.mem_finRange k)

theorem hostClaim_of_best (hk : s.deliverable s.irq.claimEn (hostTarget h) k = true)
    (hmax : ∀ j, s.deliverable s.irq.claimEn (hostTarget h) j = true → j ≠ k →
      s.irq.prio[j] < s.irq.prio[k] ∨ (s.irq.prio[j] = s.irq.prio[k] ∧ k < j)) :
    s.hostClaim h = (BitVec.ofNat 32 k.val, s.hostClaimed h k) := by
  have hbest : bestSource s.irq (s.deliverables s.irq.claimEn (hostTarget h)) = some k :=
    bestSource_of_best (s.deliverables_pairwise _ _) ⟨mem_deliverables.2 hk, fun j hj => hmax j (mem_deliverables.1 hj)⟩
  rw [hostTarget] at hbest
  simp only [hostClaim, hbest]
  rfl

theorem hostClaim_of_none (hn : ∀ k, s.deliverable s.irq.claimEn (hostTarget h) k = false) :
    s.hostClaim h = s.emptyClaim (hostTarget h) := by
  have hnone : s.deliverables s.irq.claimEn ⟨h.val, by omega⟩ = [] := deliverables_of_none hn
  simp only [hostClaim, hnone]
  rfl

theorem hostClaimed_pend : (s.hostClaimed h k).irq.pend = putBit s.irq.pend k false := (s.takeSource_parts _ k).1

theorem hostClaimed_cnt : (s.hostClaimed h k).irq.cnt = s.irq.cnt := (s.takeSource_parts _ k).2.2.1

theorem hostClaimed_stack : (s.hostClaimed h k).irq.stack[h] = ⟨BitVec.ofFin k, s.irq.prio[k]⟩ :: s.irq.stack[h] := by
  obtain ⟨-, hstack, -, hprio⟩ := s.takeSource_parts (hostTarget h) k
  refine (tabUpd_get_self ..).trans ?_
  rw [hstack, hprio]

end

end State

/-! ### Completions and UNWIND (R549, R554, R721) -/

namespace Irq

section
variable (q : Irq) (k : Fin 128)

theorem complete_targets : (q.complete k).stack = q.stack ∧ (q.complete k).ord = q.ord := by
  unfold complete
  split <;> exact ⟨rfl, rfl⟩

theorem arrive_targets : (q.arrive k).stack = q.stack ∧ (q.arrive k).ord = q.ord := by
  unfold arrive
  repeat' split
  all_goals exact ⟨rfl, rfl⟩

theorem complete_of_last (hc : q.cnt[k] = 0) : q.complete k = q := if_pos hc

theorem complete_of_counted (hc : q.cnt[k] ≠ 0) :
    bitOf (q.complete k).pend k = true ∧ (q.complete k).cnt[k] = q.cnt[k] - 1 := by
  rw [complete, if_neg hc]
  exact ⟨(bitOf_putBit_source k k true q.pend).trans (if_pos rfl), tabUpd_get_self ..⟩

end

section
variable {q : Irq} {h : Fin 2}

/-- The controller with the stack of one host target replaced. -/
def putStack (q : Irq) (h : Fin 2) (st : List StackEntry) : Irq := { q with stack := q.stack.set h.val st h.isLt }

theorem pop_of_cons {e : StackEntry} {rest : List StackEntry} (hs : q.stack[h] = e :: rest) :
    q.pop h = (q.putStack h rest).complete e.src.toFin := by
  have hk : idx 128 e.src.toNat = e.src.toFin := Fin.ext (Nat.mod_eq_of_lt e.src.isLt)
  rw [pop, hs]
  dsimp only
  rw [hk]
  rfl

theorem pop_stack (q : Irq) (h : Fin 2) : (q.pop h).stack[h] = q.stack[h].tail := by
  cases hs : q.stack[h] with
  | nil => rw [pop, hs]; exact hs
  | cons e rest =>
    rw [pop_of_cons hs, (complete_targets _ _).1]
    exact (set_get _ _ _ _).trans (if_pos rfl)

theorem foldl_pop_stack {α : Type} (l : List α) (q : Irq) (h : Fin 2) :
    (l.foldl (fun q _ => q.pop h) q).stack[h] = q.stack[h].drop l.length := by
  induction l generalizing q with
  | nil => rfl
  | cons a l ih => rw [List.foldl_cons, ih, pop_stack, List.drop_tail]; rfl

end

end Irq

namespace State

section
variable (s : State)

theorem arrive_targets (k : Nat) : (s.arrive k).irq.stack = s.irq.stack ∧ (s.arrive k).irq.ord = s.irq.ord := by
  unfold arrive
  repeat' split
  · exact ⟨rfl, rfl⟩
  · rw [settleWaits_irq]
    exact s.irq.arrive_targets (idx 128 k)
  · exact ⟨rfl, rfl⟩

theorem panFaults_targets (ns : List (Fin 4)) (b : Nat) :
    (s.panFaults ns b).irq.stack = s.irq.stack ∧ (s.panFaults ns b).irq.ord = s.irq.ord := by
  induction ns generalizing s with
  | nil => exact ⟨rfl, rfl⟩
  | cons n ns ih =>
    obtain ⟨hs, ho⟩ := ih (s.panFault n b)
    obtain ⟨hs', ho'⟩ := (s.updPan n fun p => { p with fault := putBit p.fault b true }).arrive_targets (24 + n)
    exact ⟨hs.trans hs', ho.trans ho'⟩

theorem orderFault_targets (h : Fin 2) :
    (s.orderFault h).irq.stack = s.irq.stack ∧ (s.orderFault h).irq.ord = s.irq.ord.set h.val true h.isLt := by
  unfold orderFault
  dsimp only
  split
  · exact arrive_targets ..
  · exact panFaults_targets ..

theorem unwind_stack {h : Fin 2} (hl : s.irq.stack[h].length ≤ 15) : (s.unwind h).irq.stack[h] = [] := by
  rw [unwind, settleWaits_irq]
  refine (Irq.foldl_pop_stack _ s.irq h).trans (List.drop_eq_nil_of_le ?_)
  rwa [List.length_range]

end

section
variable {s : State} {h : Fin 2} {v : Word}

theorem hostDone_of_top {e : StackEntry} {rest : List StackEntry} (hs : s.irq.stack[h] = e :: rest)
    (hv : e.src.toNat = v.toNat % 128) : (s.hostDone h v).irq = (s.irq.putStack h rest).complete e.src.toFin := by
  have htop : e.src.toNat = bitsOf v 0 7 := hv.trans (bitsOf_zero v 7).symm
  rw [hostDone, hs]
  dsimp only
  rw [if_pos htop, settleWaits_irq, ← Irq.pop_of_cons hs]
  rfl

theorem hostDone_of_other (hs : ∀ e, s.irq.stack[h].head? = some e → e.src.toNat ≠ v.toNat % 128) :
    s.hostDone h v = s.orderFault h := by
  rw [hostDone]
  split
  · next e rest he =>
    refine if_neg fun hv => hs e (by rw [he]; rfl) (hv.trans (bitsOf_zero v 7))
  · rfl

end

end State

/-! ### A host's access to the registers of its own target (R555, R720) -/

/-- The registers of the port's own target are within reach: the system block is its own, or the window is open. -/
def State.TargetOpen (s : State) (h : HostPort) : Via → Prop
  | .sys => s.panPort 0 = h
  | .win n => s.winClosed n = false

section
variable {s : State} {h : HostPort} {via : Via}

/-- A window that serves a port is that of a pan bound to it. -/
theorem State.panPort_of_served {n : Fin 4} (hs : served s (.host h) (.win n)) (ho : s.winClosed n = false) : s.panPort n = h := by
  obtain ⟨-, -, -, -, hright, -⟩ := hs
  have hplace : hostPlace (hostBase (.win n)) = .reg (.win n) 0 := by fin_cases n <;> rfl
  rw [viaRight, hostRight, hplace] at hright
  by_cases hq : s.quietAt h (.reg (.win n) 0) = true
  · simp [hq] at hright
  by_cases hl : s.sys.panLock = true
  · have hmay : s.lockedMay h (hostBase (.win n)) (.reg (.win n) 0) = true := by simpa [hq, hl] using hright
    exact eq_of_beq (Bool.and_eq_true_iff.1 hmay).2
  · have hmay : s.openMay h (.reg (.win n) 0) = true := by simpa [hq, hl] using hright
    have hn : n = 0 := by simpa [winClosed, hl] using ho
    exact hn ▸ eq_of_beq hmay

variable (hs : served s (.host h) via) (ho : s.TargetOpen h via)
include hs ho

theorem State.regAt_target {base off : Nat} {r : HostPort → Rg} (hsys : s.sysReg base = r h)
    (hwin : ∀ n, s.winReg n off = r (s.panPort n)) : s.regAt via (regOffset via base off) = r h := by
  cases via with
  | sys => exact hsys
  | win n => exact (State.regAt_of_open ho off).trans ((hwin n).trans (congrArg r (State.panPort_of_served hs ho)))

theorem State.claimRead_own : (s.endRequest false).claimRead (.host h) via h = (s.endRequest false).hostClaim h.ix := by
  refine if_pos ⟨rfl, ?_⟩
  cases via with
  | sys => exact .inr ho
  | win n => exact .inl nofun

/-- A claim: the word read and the state of the claim, in a transaction that ends with LAST OK. -/
theorem leads_icClaim {P : State → Prop}
    (hP : ∀ u, LikeState u (((s.endRequest false).hostClaim h.ix).2.ret ((s.endRequest false).hostClaim h.ix).1) →
      u.host[h.ix].last = 0 → u.host[h.ix].resp = [((s.endRequest false).hostClaim h.ix).1] → P u) :
    Leads (.icClaim (.host h) via h) s P := by
  have hr : (s.endRequest false).regAt via (regOffset via (0x810 + 4 * h.ix.val) 0x06C) = .icClaim h :=
    State.regAt_target (r := .icClaim) hs ho (by cases h <;> rfl) fun _ => rfl
  have he : exec (.icClaim (.host h) via h) s =
      .next (s.partyRead (.host h) via (regOffset via (0x810 + 4 * h.ix.val) 0x06C)) := by cases via <;> rfl
  have hown := State.claimRead_own hs ho
  obtain ⟨hsw, hbusy, hv, hserv, hright, htx⟩ := hs
  have hright' : (s.endRequest false).viaRight h via = .yes := hright
  have hbusy' : (s.endRequest false).resetting via = false := hbusy
  set x := (s.endRequest false).hostClaim h.ix with hx
  have hread : (s.endRequest false).hostRegRead h false via (.icClaim h) = (lcOk, x.1, x.2) := by
    simp [State.hostRegRead, State.regRead, hbusy', hown, State.streamReadCode, hx]
  have hpend : (x.2.ret x.1).sys.swPend = false := (State.hostClaim_keeps h.ix (.refl false (s.endRequest false))).swPend_false hsw
  have hend : s.partyRead (.host h) via (regOffset via (0x810 + 4 * h.ix.val) 0x06C) =
      (x.2.ret x.1).endTx h (s.statusByte h false) (lcOk, [x.1]) := by
    simp only [State.partyRead, transact_plain s h false _ hv hserv htx, hright', hr, hread]
    rfl
  obtain ⟨hlast, hresp⟩ := endTx_host hpend h (s.statusByte h false) [x.1]
  exact ⟨_, he.trans (congrArg _ hend), hP _ (likeState_endTx _ _ _ _ hpend) hlast hresp⟩

/-- A completion at the port's own target. -/
theorem leads_icDone {v : Word} {P : State → Prop}
    (hP : ∀ u, LikeState u ((s.writing (.host h) none (.icDone h)).hostDone h.ix v) → P u) :
    Leads (.icDone (.host h) via h v) s P := by
  have hr : s.regAt via (regOffset via (0x818 + 4 * h.ix.val) 0x070) = .icDone h :=
    State.regAt_target (r := .icDone) hs ho (by cases h <;> rfl) fun _ => rfl
  have hreach : (s.writing (.host h) none (.icDone h)).reachesTarget via h = true := by
    rw [State.writing_eq]
    cases via with
    | sys => exact beq_iff_eq.2 ho
    | win n => rfl
  have hput : (s.writing (.host h) none (.icDone h)).putReg1 (.host h) via (.icDone h) v =
      (s.writing (.host h) none (.icDone h)).hostDone h.ix v := if_pos ⟨rfl, hreach⟩
  exact leads_open_write (by cases via <;> rfl) hs hr rfl rfl (hput ▸ State.hostDone_keeps h.ix v (.refl false _)) (hput ▸ hP)

end

section
variable {s : State} {h : HostPort} {v : Word}

theorem State.writeIcCtl_own (hp : s.panPort 0 = h) (hv : bitOf v h.ix.val = true) : s.writeIcCtl (.host h) v = s.unwind h.ix := by
  rw [writeIcCtl, hp]
  exact (if_pos hv).trans (if_pos rfl)

theorem State.writePanCtl_unwind {n : Fin 4} (hp : s.panPort n = h) (h8 : bitOf v 8 = false) (h9 : bitOf v 9 = true) :
    s.writePanCtl (.host h) n v = (s.updPan n fun x => { x with rollRsp := bitOf v 0 }).unwind h.ix := by
  rw [writePanCtl, h8, h9, hp]
  exact if_pos rfl

theorem State.writing_panPort (p : Party) (key : Option (Fin 5)) (r : Rg) (n : Fin 4) :
    (s.writing p key r).panPort n = s.panPort n := by
  rw [writing_eq]
  rfl

/-- UNWIND in IC_CTL, from the port of the system block. -/
theorem leads_icUnwind_sys (hs : served s (.host h) .sys) (hp : s.panPort 0 = h) (hv : bitOf v h.ix.val = true)
    (hl : s.irq.stack[h.ix].length ≤ 15) : Leads (.icUnwind (.host h) .sys v) s fun u => u.irq.stack[h.ix] = [] := by
  have hput : (s.writing (.host h) none .icCtl).putReg1 (.host h) .sys .icCtl v =
      (s.writing (.host h) none .icCtl).unwind h.ix :=
    State.writeIcCtl_own ((State.writing_panPort ..).trans hp) hv
  refine leads_open_write (o := 0x800) (r := .icCtl) rfl hs rfl rfl rfl (hput ▸ State.unwind_keeps h.ix (.refl false _))
    fun u hu => ?_
  rw [hu.irq, hput]
  exact State.unwind_stack _ (by rwa [State.writing_irq])

/-- UNWIND in PAN_CTL with its key, from the pan's port. -/
theorem leads_icUnwind_win {n : Fin 4} (hs : served s (.host h) (.win n)) (ho : s.winClosed n = false) (hp : s.panPort n = h)
    (ha : s.keyArmed (Via.win n).scope (.host h) = true) (h8 : bitOf v 8 = false) (h9 : bitOf v 9 = true)
    (hl : s.irq.stack[h.ix].length ≤ 15) : Leads (.icUnwind (.host h) (.win n) v) s fun u => u.irq.stack[h.ix] = [] := by
  have hput := State.writePanCtl_unwind (s := s.writing (.host h) (some (Via.win n).scope) (.panCtl n))
    ((State.writing_panPort ..).trans hp) h8 h9
  refine leads_keyed_write (o := 0x004) (r := .panCtl n) rfl hs (State.regAt_of_open ho 0x004) rfl ha rfl
    (State.writePanCtl_keeps (.host h) n v (.refl false _)) fun u hu => ?_
  have hirq : u.irq = (((s.writing (.host h) (some (Via.win n).scope) (.panCtl n)).updPan n
      fun x => { x with rollRsp := bitOf v 0 }).unwind h.ix).irq := hu.irq.trans (congrArg State.irq hput)
  rw [hirq]
  exact State.unwind_stack _ (by rw [State.updPan_irq, State.writing_irq]; exact hl)

end

/-! ### The statement -/

/-- Settles O32: a claim by the best of the deliverable sources, a completion by whether it names the top of the stack, UNWIND by the
fifteen places that a stack has. -/
theorem hostClaimsAndCompletions : Obligations.HostClaimsAndCompletions := by
  unfold Obligations.HostClaimsAndCompletions
  intro s h via v hs hopen x best
  have ho : s.TargetOpen h via := by cases via <;> exact hopen
  have hdel (k : Fin 128) : (s.endRequest false).deliverable (s.endRequest false).irq.claimEn (hostTarget h.ix) k =
      s.deliverable s.irq.claimEn x k := State.deliverable_congr (e := s.irq.eng) rfl rfl rfl k
  refine ⟨fun k ⟨hk, hmax⟩ => leads_icClaim hs ho fun u hu hlast hresp => ?claim,
    fun hnone => leads_icClaim hs ho fun u hu _ _ => ?empty,
    fun e rest he hv => leads_icDone hs ho fun u hu => ?completion,
    fun hother => leads_icDone hs ho fun u hu => ?disorder, fun hlen hbit hkey => ?unwind⟩
  case claim =>
    have hclaim := State.hostClaim_of_best (s := s.endRequest false) ((hdel k).trans hk) fun j hj => hmax j ((hdel j).symm.trans hj)
    rw [hclaim] at hu hresp
    have hout : u.out = BitVec.ofNat 32 k.val := hu.out
    have hirq : u.irq = ((s.endRequest false).hostClaimed h.ix k).irq := hu.irq
    rw [hout, hirq, State.hostClaimed_pend, State.hostClaimed_stack, State.hostClaimed_cnt]
    refine ⟨?_, (Irq.bitOf_putBit_source k k false s.irq.pend).trans (if_pos rfl), rfl, rfl, hlast, hresp⟩
    exact (BitVec.toNat_ofNat ..).trans (Nat.mod_eq_of_lt (k.isLt.trans (by decide)))
  case empty =>
    rw [State.hostClaim_of_none fun k => (hdel k).trans (hnone k)] at hu
    rw [hu.out, hu.irq]
    exact ⟨rfl, rfl, rfl⟩
  case completion =>
    have hirq := State.hostDone_of_top (s := s.writing (.host h) none (.icDone h)) (by rw [State.writing_irq]; exact he) hv
    rw [State.writing_irq] at hirq
    rw [hu.irq, hirq]
    obtain ⟨hstack, hord⟩ := (s.irq.putStack h.ix rest).complete_targets e.src.toFin
    refine ⟨?_, hord, fun hc => ?_, (s.irq.putStack h.ix rest).complete_of_counted e.src.toFin⟩
    · rw [hstack]
      exact (set_get _ _ _ _).trans (if_pos rfl)
    · rw [(s.irq.putStack h.ix rest).complete_of_last e.src.toFin hc]
      exact ⟨rfl, rfl⟩
  case disorder =>
    rw [State.hostDone_of_other (by rw [State.writing_irq]; exact hother)] at hu
    obtain ⟨hstack, hord⟩ := (s.writing (.host h) none (.icDone h)).orderFault_targets h.ix
    rw [hu.irq, hstack, hord, State.writing_irq]
    exact ⟨rfl, (set_get _ _ _ _).trans (if_pos rfl)⟩
  case unwind =>
    cases via with
    | sys => exact leads_icUnwind_sys hs hopen hbit hlen
    | win n => exact leads_icUnwind_win hs hopen hkey.1 hkey.2 hbit.1 hbit.2 hlen

end Sys2Proof.Machine

/-! SUPPORT. Doorbells of the three parties and the end of a hold-off, and the proof of their statement (chapter 15). -/

namespace Sys2Proof.Machine

open Sys2Proof.Safety

/-! ### A doorbell that rings (R558, R559) -/

/-- Source `k` is pending in `r`, and every other as it was in `q`. -/
def Irq.Pends (q r : Irq) (k : Fin 128) : Prop :=
  bitOf r.pend k = true ∧ ∀ j : Fin 128, j ≠ k → bitOf r.pend j = bitOf q.pend j

/-- Source `k` is a doorbell source of pan `n`, neither pending nor in service. -/
structure IdleDoorbell (s : State) (n : Fin 4) (k : Fin 128) : Prop where
  low : 96 ≤ k.val
  high : k.val ≤ 119
  owner : s.srcOwner k.val = n
  unpended : bitOf s.irq.pend k = false
  idle : s.irq.inService k = false

section
variable {s : State} {n : Fin 4} {k : Fin 128}

theorem IdleDoorbell.of_same {u : State} (h : IdleDoorbell s n k) (hi : u.irq = s.irq) (ho : u.srcOwner k.val = s.srcOwner k.val) :
    IdleDoorbell u n k :=
  ⟨h.low, h.high, ho.trans h.owner, hi ▸ h.unpended, hi ▸ h.idle⟩

theorem IdleDoorbell.rings (h : IdleDoorbell s n k) (hr : s.coreRuns = true) : s.irq.Pends (s.doorbell n k.val).irq k := by
  rw [State.doorbell_of_idle h.low h.high h.owner hr h.unpended h.idle, State.settleWaits_irq]
  exact ⟨(Irq.bitOf_putBit_source k k true s.irq.pend).trans (if_pos rfl),
    fun j hj => (Irq.bitOf_putBit_source k j true s.irq.pend).trans (if_neg hj)⟩

/-! ### IC_DOORBELL in the system block -/

theorem State.writing_srcOwner (s : State) (p : Party) (key : Option (Fin 5)) (r : Rg) (j : Nat) :
    (s.writing p key r).srcOwner j = s.srcOwner j := by
  rw [writing_eq]
  rfl

theorem leads_icDoorbell {p : Party} {v : Word} {P : State → Prop} (hs : served s p .sys) (hv : v.toNat % 128 = k.val)
    (hP : ∀ u, LikeState u ((s.writing p none .icDoorbell).doorbell 0 k.val) → P u) : Leads (.icDoorbell p .sys v) s P := by
  have hnum : bitsOf v 0 7 = k.val := (bitsOf_zero v 7).trans hv
  have hput : (s.writing p none .icDoorbell).putReg1 p .sys .icDoorbell v = (s.writing p none .icDoorbell).doorbell 0 k.val :=
    hnum ▸ rfl
  exact leads_open_write (o := 0x820) rfl hs rfl rfl rfl (hput ▸ State.doorbell_keeps 0 k.val (.refl false _)) (hput ▸ hP)

/-! ### A host's DOORBELL and a thread's ring through its window -/

/-- A DOORBELL of a source that a pan of the port owns. -/
theorem leads_hostDoorbell {c : Instr} {x : Xfer} (hp : plain s x)
    (he : exec c s = .next (s.transact x true lcOk fun s => s.hostDoorbell x.port k.val))
    (hn : n ∈ s.portPans x.port) (hk : IdleDoorbell s n k) : Leads c s fun u => s.irq.Pends u.irq k := by
  have hr : s.coreRuns = true := (Bool.and_eq_true_iff.1 hp.2.2.1).2
  have hmem : n ∈ (s.endRequest false).portPans x.port := hn
  have hring : (s.endRequest false).hostDoorbell x.port k.val = (lcOk, [], (s.endRequest false).doorbell n k.val) := by
    have hown : (s.endRequest false).srcOwner k.val = n := hk.owner
    rw [State.hostDoorbell, hown]
    refine if_pos ?_
    simp [hk.low, hk.high, hmem]
  have hpend : ((s.endRequest false).doorbell n k.val).sys.swPend = false := by
    rw [State.doorbell_sys]
    exact hp.1
  rw [transact_of_plain s x true _ hp, hring] at he
  have hrings : s.irq.Pends ((s.endRequest false).doorbell n k.val).irq k := (hk.of_same (u := s.endRequest false) rfl rfl).rings hr
  exact ⟨_, he, (congrArg (s.irq.Pends · k) (likeState_endTx _ _ _ _ hpend).irq).mpr hrings⟩

theorem leads_threadDoorbell {t : Fin 8} {v : Word} (hsw : s.sys.swPend = false) (hr : s.coreRuns = true)
    (hi : s.eng.thr[t].issues = true) (hv : v.toNat % 128 = k.val) (hk : IdleDoorbell s (s.thrPan t) k) :
    Leads (.icDoorbell (.thread t) (.win (s.thrPan t)) v) s fun u => s.irq.Pends u.irq k := by
  have hpend : ¬(s.doorbell (s.thrPan t) k.val).sys.swPend = true := by
    rw [State.doorbell_sys, hsw]
    decide
  have hring : s.ringBy (.thread t) (s.thrPan t) v = s.doorbell (s.thrPan t) k.val := by
    have hnum : bitsOf v 0 7 = k.val := (bitsOf_zero v 7).trans hv
    rw [State.ringBy, State.asThread_of_issues _ hr hi, if_pos (beq_self_eq_true _), hnum]
    exact if_neg hpend
  exact ⟨_, congrArg Host.Outcome.next hring, hk.rings hr⟩

end

theorem plain_plainXfer {s : State} {x : Xfer} (hp : plain s x) : plain s (plainXfer x.port) := by
  obtain ⟨hsw, hv, hserv, -, -, -, -, htx⟩ := hp
  exact ⟨hsw, hv, hserv, rfl, rfl, rfl, rfl, htx⟩

/-! ### The end of a hold-off (R558) -/

theorem leads_holdoffEnd {s : State} (hr : s.coreRuns = true) (g : Fin 8) (x : Fin 10) : Leads (.holdoffEnd g x) s fun u =>
    u.irq = { s.irq with held := tabUpd s.irq.held g fun m => putBit m x.val false } :=
  ⟨_, congrArg Host.Outcome.next (if_pos hr), State.settleWaits_irq _⟩

theorem bitOf_tabUpd_putBit {n w : Nat} (t : Tab (BitVec w) n) (g f : Fin n) (x y : Fin w) (b : Bool) :
    bitOf (tabUpd t g fun m => putBit m x.val b)[f] y = if (f, y) = (g, x) then b else bitOf t[f] y := by
  rw [tabUpd_get]
  by_cases hf : g = f
  · subst hf
    rw [if_pos rfl, bitOf_putBit _ _ _ _ y.isLt]
    exact if_congr (by simp [Fin.ext_iff, eq_comm]) rfl rfl
  · rw [if_neg hf, if_neg fun h => hf (congrArg Prod.fst h).symm]

/-! ### The statement -/

/-- Settles O33: a doorbell by the arrival or the fault that it is, the end of a hold-off by the one bit that it clears. -/
theorem doorbellsAndHoldoffs : Obligations.DoorbellsAndHoldoffs := by
  unfold Obligations.DoorbellsAndHoldoffs
  intro s rung
  refine ⟨fun p v k hs hv => ⟨fun hlo hhi ho hp hi => leads_icDoorbell hs hv fun u hu => ?ring,
      fun h => leads_icDoorbell hs hv fun u hu => ?foreign⟩,
    fun x n v k hp hv hlo hhi ho =>
      ⟨fun hn hi => leads_hostDoorbell hp ?command ho ⟨hlo, hhi, rfl, hn, hi⟩,
        fun hn hi => leads_hostDoorbell (plain_plainXfer hp) ?window ho ⟨hlo, hhi, rfl, hn, hi⟩⟩,
    fun t v k hsw hr hi hv hlo hhi ho hn hd => leads_threadDoorbell hsw hr hi hv ⟨hlo, hhi, ho, hn, hd⟩,
    fun g x hr => leads_mono (leads_holdoffEnd hr g x) fun u hu => ?holdoff⟩
  case ring =>
    have hidle : IdleDoorbell s 0 k := ⟨hlo, hhi, ho, hp, hi⟩
    have hrings := (hidle.of_same (s.writing_irq p none .icDoorbell) (s.writing_srcOwner p none .icDoorbell k.val)).rings
      ((s.writing_coreRuns ..).trans (State.coreRuns_of_served hs))
    rwa [State.writing_irq, ← hu.irq] at hrings
  case foreign =>
    rw [← s.writing_srcOwner p none .icDoorbell k.val] at h
    rw [hu.pans, State.doorbell_of_foreign h]
    exact State.panFault_fault _ 0 fltAccess (by decide)
  case command =>
    have hlt : v < 128 := BitVec.lt_def.2 (hv ▸ k.isLt)
    rw [← hv]
    exact congrArg (fun code => Host.Outcome.next (s.transact x true code fun s => s.hostDoorbell x.port v.toNat)) (if_pos hlt)
  case window =>
    have hnum : bitsOf v 0 7 = k.val := (bitsOf_zero v 7).trans ((Nat.mod_eq_of_lt (hv ▸ k.isLt)).trans hv)
    rw [← hnum]
    rfl
  case holdoff =>
    rw [hu]
    exact ⟨(bitOf_tabUpd_putBit s.irq.held g g x x false).trans (if_pos rfl),
      fun f y hne => (bitOf_tabUpd_putBit s.irq.held g f x y false).trans (if_neg hne), rfl⟩

end Sys2Proof.Machine

/-! SUPPORT. What a step keeps: memory's form, the queue, programmed OTP words, the locks with the allocation, no software reset left
waiting; and the proofs of the statements on every step. -/

namespace Sys2Proof.Machine

/-! ### Every command -/

theorem State.fireDue_keeps {w : Bool} {b s : State} (e : Fin 32) (hk : Keeps w b s) : Keeps w b (s.fireDue e) :=
  keeps_ite.2 ⟨fun _ => State.schFire_keeps _ _ hk, fun _ => hk⟩

theorem State.fireIf_keeps {w : Bool} {b s : State} (e : Fin 32) (act : Nat) (hk : Keeps w b s) : Keeps w b (s.fireIf e act) :=
  keeps_ite.2 ⟨fun _ => State.fireDue_keeps e (keeps_foldl _ _ (fun _ k hu => State.fireDue_keeps k hu) hk), fun _ => hk⟩

/-- A READ_BURST goes on with the burst that is open, or begins. -/
theorem execHostReadBurst_keeps (x : Xfer) (a : BitVec 24) (part : ReadPart) {s : State} :
    ∃ u, execHostReadBurst x a part s = .next u ∧ Keeps false s u := by
  unfold execHostReadBurst
  split
  · exact ⟨_, rfl, State.moreWords_keeps _ _ _ _ _ _ (.refl _ _)⟩
  · exact ⟨_, rfl, State.readTx_keeps _ _ _ _ _ _ (fun _ hu => hu) (.refl _ _)⟩

/-- A FETCH goes on with the one that is open, or begins. -/
theorem execHostFetch_keeps (x : Xfer) (a : BitVec 24) (part : ReadPart) (ack : Bool) {s : State} :
    ∃ u, execHostFetch x a part ack s = .next u ∧ Keeps false s u := by
  unfold execHostFetch
  split
  · exact ⟨_, rfl, State.moreWords_keeps _ _ _ _ _ _ (.refl _ _)⟩
  · exact ⟨_, rfl, State.readTx_keeps _ _ _ _ _ _ (fun _ hu => State.hostFetchOpen_keeps _ _ hu) (.refl _ _)⟩

/-- A stall ends the transaction that is open, or one that reached no effect. -/
theorem execTransactionStall_keeps (h : HostPort) {s : State} :
    ∃ u, execTransactionStall h s = .next u ∧ Keeps false s u := by
  unfold execTransactionStall
  split
  · exact ⟨_, rfl, State.closeTx_keeps _ _ _ _ (.refl _ _)⟩
  · exact ⟨_, rfl, State.transact_keeps _ _ _ _ (fun _ hu => hu) (.refl _ _)⟩

/-- Every command but OTPWR answers a next state that has kept what `Keeps` lists: each is one operation, or a choice of two. -/
theorem exec_keeps (i : Instr) (hi : ∀ ws, i ≠ .otpwr ws) {s : State} : ∃ u, exec i s = .next u ∧ Keeps false s u := by
  have hk : Keeps false s s := .refl _ _
  cases i with
  | otpwr ws => exact absurd rfl (hi ws)
  | powerOnReset | supplyReset => exact ⟨_, rfl, State.resetWith_keeps _ hk.weaken⟩
  | resetNAssert ns =>
    by_cases h1 : 1000 ≤ ns
    · exact ⟨_, if_pos h1, State.resetWith_keeps _ hk.weaken⟩
    by_cases h2 : ns < 200
    · exact ⟨s, (if_neg h1).trans (if_pos h2), hk⟩
    · exact ⟨_, (if_neg h1).trans (if_neg h2), by simp⟩
  | hpiReady bad => exact ⟨_, rfl, State.startUp_keeps bad⟩
  | supplyWarning | supplyWarningEnd | vdrvLoss | vdrvRestored | safeInAssert | wakePinEdge | tpPinEdge | pllLockLoss | pllRelock
  | lfCrystalChange | rcCalibration | powerStateEntry | wakeUp | scrubberPass =>
    exact ⟨_, rfl, by simp⟩
  | vioLoss | vioRestored => exact ⟨_, rfl, hk.put_pow _ rfl⟩
  | tapReset | tapTestInstruction =>
    exact ⟨_, rfl, State.viaTap_keeps hk (State.tapHold_keeps _ hk)⟩
  | otprd => exact ⟨_, rfl, State.viaTap_keeps hk ⟨hk.mem, hk.pending, hk.otp, hk.locks, hk.sw⟩⟩
  | reqListen | reqSleep | sluFire | sluPermitGo | panlock | sysPanrst | panCtlReset | sysSwrst | lineRejoin | keyWrite
  | tideOffsStep | tideKeeperWrite | calDateWrite | calTimeWrite | scheduleArm | scheduleDisarm | tqSubmitWord | tqSdataWord
  | tqFlush | tqCtlWrite | rxfCtlWrite | filterCtlWrite | icPendSet | icPendClr | icEnSet | icEnClr | icDone | icUnwind
  | timCtlWrite | timCntWrite | timCapnow | engGo | engKick | threadStart | threadHaltWrite =>
    exact ⟨_, rfl, State.partyWrite_keeps _ _ _ _ hk⟩
  | tideTickRead | calTimeRead | tqCommit | icClaim | timLoRead | timCapqRead =>
    exact ⟨_, rfl, State.partyRead_keeps _ _ _ hk⟩
  | linePortEnable => exact ⟨_, rfl, State.partyBit_keeps _ _ _ _ _ hk⟩
  | aliasWrite | registerWrite => exact ⟨_, rfl, State.partyWriteAt_keeps _ _ _ hk⟩
  | tqCplCollect | rxfFetchRead => exact ⟨_, rfl, State.partyFetch_keeps _ _ _ _ hk⟩
  | slotW2Write | mailboxSeenWrite => exact ⟨_, rfl, State.partySlotWrite_keeps _ _ _ _ hk⟩
  | icDoorbell p via v =>
    cases via with
    | sys => exact ⟨_, rfl, State.partyWrite_keeps _ _ _ _ hk⟩
    | win n => exact ⟨_, rfl, State.ringBy_keeps _ _ _ hk⟩
  | portIdleSync | sofOpportunity | transmitAttempt | receiveFrame | tideFrameRx | soundRequestRx | soundResultRx | searchDwellEnd
  | noiseAverage | sluiceDetected | sluiceBurstEnd | keepaliveExpiry | releaseUnblocked =>
    exact ⟨_, rfl, by simp⟩
  | countCommit | quarantineSequence =>
    refine ⟨_, rfl, State.settle_keeps (State.whileRunning_keeps _ (fun u hu => ?_) hk)⟩
    simp [hu]
  | delayApply | clockMove | tideSecond | tideBoundary | missingPeriod | holdoverTimeout | acquireTimeout | holdmaxExpiry
  | keeperListenEnd | slewProgress | passiveSuspensionEnd | deadlineExpiry =>
    refine ⟨_, rfl, State.whileRunning_keeps _ (fun u hu => ?_) hk⟩
    simp [hu]
  | watchdogExpiry | millisecondTick | sealedWindowBoundary | shadowApply | scrubDone | panResetScrubDone | scheduleCommit | pulseEnd
  | channelChange | filterApply | holdoffEnd | timerWrap | timerMatch | authenticationDone | wakeCompareReached | breakpointHit =>
    refine ⟨_, rfl, keeps_ite.2 ⟨fun _ => ?_, fun _ => hk⟩⟩
    simp
  | schTxAction | schPinAction | schCaptureAction | schThreadAction | schIrqAction | schChannelAction =>
    exact ⟨_, rfl, State.fireIf_keeps _ _ hk⟩
  | add | sub | and | or | xor | andn | shl | shr | sar | mul | mulhu | mulhs | cmp | cmpu | min | max | minu | maxu | clz | popc | bswap
  | addImm | andImm | orImm | xorImm | shlImm | shrImm | sarImm | mulImm | cmpImm | cmpuImm | lui =>
    exact ⟨_, rfl, State.issueReg_keeps _ _ _ hk⟩
  | bext | bexts | bins => exact ⟨_, rfl, State.bitField_keeps _ _ _ _ _ hk⟩
  | ldw | ldh | ldhs | ldb | ldbs => exact ⟨_, rfl, State.load_keeps _ _ _ _ _ _ hk⟩
  | stw | sth | stb => exact ⟨_, rfl, State.store_keeps _ _ _ _ _ hk⟩
  | beq | bne | blt | bge | bltu | bgeu => exact ⟨_, rfl, State.branch_keeps _ _ _ hk⟩
  | jr | jalr => exact ⟨_, rfl, State.jumpTo_keeps _ _ _ hk⟩
  | csrr => exact ⟨_, rfl, State.csrr_keeps _ _ _ hk⟩
  | csrw => exact ⟨_, rfl, State.csrw_keeps _ _ _ hk⟩
  | call | fork | join | halt | wait | yield | lkRel | fput | fgetTq | fgetRxf | fgetMbx | fpeekTq | fpeekRxf | fpeekMbx
  | fstatTq | fstatRxf | fstatSch | flush | treadTick | treadSec | treadStatus | sset | sclr | fltw | ring | irqDone | crc24 | sluice
  | illegalWordIssue =>
    refine ⟨_, rfl, State.issue_keeps _ _ (fun u hu => ?_) hk⟩
    simp [hu]
  | lkAcq | lkTry =>
    refine ⟨_, rfl, State.issue_keeps _ _ (fun u hu => State.takeLock_keeps _ _ _ _ (fun l v hv => ?_) hu) hk⟩
    simp [hv]
  | hostRead | hostWrite | hostWriteBurst | hostSubmit | hostCommit | hostDoorbell | dbgHalt | dbgResume | dbgStep | dbgReadReg
  | dbgWriteReg | dbgSetBreakpoint | dbgClearBreakpoint =>
    refine ⟨_, rfl, State.transact_keeps _ _ _ _ (fun u hu => ?_) hk⟩
    simp [hu, oneWord]
  | hostStatus => exact ⟨_, rfl, State.hostStatus_keeps _ hk⟩
  | badcmdTransaction => exact ⟨_, rfl, keeps_ite.2 ⟨fun _ => State.transact_keeps _ _ _ _ (fun _ hu => hu) hk, fun _ => hk⟩⟩
  | hostReadBurst => exact execHostReadBurst_keeps _ _ _
  | hostFetch => exact execHostFetch_keeps _ _ _ _
  | transactionStall => exact execTransactionStall_keeps _

theorem exec_otpwr (ws : Tab Word 16) (s : State) :
    exec (.otpwr ws) s = .next (if s.pow.vioOk then { s with otp := { s.otp.program ws with shift := ws } } else s) := rfl

/-- Every command answers a next state, and leaves the queue alone. -/
theorem exec_next (i : Instr) (s : State) : ∃ u, exec i s = .next u ∧ u.pending = s.pending := by
  by_cases hi : ∃ ws, i = .otpwr ws
  · obtain ⟨ws, rfl⟩ := hi
    exact ⟨_, exec_otpwr ws s, apply_ite State.pending .. |>.trans (ite_self _)⟩
  · obtain ⟨u, hu, hk⟩ := exec_keeps i (fun ws h => hi ⟨ws, h⟩) (s := s)
    exact ⟨u, hu, hk.pending⟩

/-! ### What a step keeps -/

/-- State `t` has kept what a step keeps of state `s`: as `Keeps`, but that OTP words may be programmed. -/
structure StepKeeps (s t : State) : Prop where
  mem : Memory.wf s.mem = true → Memory.wf t.mem = true
  otp : ∀ k : Fin 16, s.otp.words[k] ≠ 0 → t.otp.words[k] = s.otp.words[k]
  locks : t.pow.state = .reset ∨ ((s.sys.panLock = true → t.sys.panLock = true ∧ t.alloc = s.alloc) ∧
    (s.sys.dbgLock = true → t.sys.dbgLock = true))
  sw : s.sys.swPend = false → t.sys.swPend = false

theorem Keeps.stepKeeps {s t : State} (h : Keeps false s t) : StepKeeps s t :=
  ⟨h.mem, fun _ _ => by rw [h.otp], h.locks, h.sw.resolve_left (by decide)⟩

/-- Over a state that is not in reset the steps add up. -/
theorem StepKeeps.trans {s u t : State} (h : StepKeeps s u) (hu : u.pow.state ≠ .reset) (g : StepKeeps u t) : StepKeeps s t := by
  obtain ⟨hpan, hdbg⟩ := h.locks.resolve_left hu
  refine ⟨g.mem ∘ h.mem, fun k hk => ?_, g.locks.imp id fun ⟨gpan, gdbg⟩ => ⟨fun hs => ?_, gdbg ∘ hdbg⟩, g.sw ∘ h.sw⟩
  · rw [g.otp k (by rwa [h.otp k hk]), h.otp k hk]
  · obtain ⟨hp, ha⟩ := hpan hs
    obtain ⟨gp, ga⟩ := gpan hp
    exact ⟨gp, ga.trans ha⟩

/-- A word that is still zero takes what OTPWR brings; any other stays (R795). -/
theorem Otp.program_words (o : Otp) (ws : Tab Word 16) (k : Fin 16) :
    (o.program ws).words[k] = if o.words[k] = 0 then ws[k] else o.words[k] := by
  have hk : idx 16 k.val = k := Fin.ofNat_val_eq_self k
  exact (tabMapIdx_get ..).trans (by simp only [hk])

theorem Otp.program_words_of_ne_zero (o : Otp) (ws : Tab Word 16) (k : Fin 16) (h : o.words[k] ≠ 0) :
    (o.program ws).words[k] = o.words[k] := by
  rw [Otp.program_words, if_neg h]

theorem exec_stepKeeps {i : Instr} {s t : State} (h : exec i s = .next t) : StepKeeps s t := by
  by_cases hi : ∃ ws, i = .otpwr ws
  · obtain ⟨ws, rfl⟩ := hi
    obtain rfl : _ = t := Host.Outcome.next.inj ((exec_otpwr ws s).symm.trans h)
    split
    · exact ⟨id, fun k hk => Otp.program_words_of_ne_zero _ ws k hk, .inr ⟨fun hs => ⟨hs, rfl⟩, id⟩, id⟩
    · exact (Keeps.refl false s).stepKeeps
  · obtain ⟨u, hu, hk⟩ := exec_keeps i (fun ws h => hi ⟨ws, h⟩) (s := s)
    cases hu.symm.trans h
    exact hk.stepKeeps

theorem State.not_reset_of_coreRuns {s : State} (h : s.coreRuns = true) : s.pow.state ≠ .reset := by
  intro hr
  simp [State.coreRuns, hr] at h

theorem State.issues_of_ready {s : State} {t : Fin 8} (h : s.ready t = true) : s.eng.thr[t].issues = true := by
  simp only [State.ready, Bool.and_eq_true] at h
  rw [Thread.issues, h.1.1, Bool.true_or]

theorem State.issues_of_steps {s : State} {t : Fin 8} (h : s.steps t = true) : s.eng.thr[t].issues = true := by
  simp only [State.steps, Bool.and_eq_true] at h
  rw [Thread.issues, Bool.or_eq_true, Bool.and_eq_true]
  exact .inr h.1.1

/-- A thread issues while the core runs, out of its own slot or, ready, out of a surplus one (R431, R434). -/
theorem State.issuing_some {s : State} {t : Fin 8} (h : s.issuing = some t) : s.coreRuns = true ∧ s.eng.thr[t].issues = true := by
  unfold State.issuing at h
  dsimp only at h
  split at h
  · cases h
  next hr =>
  refine ⟨by simpa using hr, ?_⟩
  split at h
  · next ho =>
    cases h
    exact (Bool.or_eq_true_iff.1 ho).elim State.issues_of_ready State.issues_of_steps
  · have hm := (List.mem_filter.1 (State.bestWaiter_mem h)).2
    simp only [Bool.and_eq_true] at hm
    exact State.issues_of_ready hm.1.1

theorem engineCycle_stepKeeps {s u t : State} (hk : Keeps false s u) (h : engineCycle u = .next t) : StepKeeps s t := by
  unfold engineCycle at h
  split at h
  · cases h
    exact hk.stepKeeps
  · next n hn =>
    have hv := State.updThr_keeps n (fun th => { th with readyAt := u.eng.tnow + BitVec.ofNat 64 (u.cyclesOf n (u.fetched n)) }) hk
    exact hv.stepKeeps.trans (State.not_reset_of_coreRuns (State.issuing_some hn).1) (exec_stepKeeps h)

theorem step_stepKeeps {s t : State} (h : step s = .next t) : StepKeeps s t := by
  unfold step at h
  split at h
  · exact engineCycle_stepKeeps (State.stockCycle_keeps (State.coreCycle_keeps (.refl _ _))) h
  · next cs _ =>
    obtain ⟨hm, ho, hl, hw⟩ := exec_stepKeeps (s := { s with pending := cs }) h
    exact ⟨hm, ho, hl, hw⟩

/-! ### Frames as a wire carries them -/

theorem fitLen_of_le_eight {n : Nat} (h : n ≤ 8) : fitLen n = n :=
  (by decide : ∀ k < 9, fitLen k = k) n (by omega)

theorem fitLen_fitLen (n : Nat) : fitLen (fitLen n) = fitLen n := by
  have hm : fitLen n ∈ ([0, 1, 2, 3, 4, 5, 6, 7, 8, 12, 16, 20, 24, 32, 48, 64] : List Nat) := by
    unfold fitLen
    cases h : List.find? (fun k => decide (n ≤ k)) [0, 1, 2, 3, 4, 5, 6, 7, 8, 12, 16, 20, 24, 32, 48, 64] with
    | none => decide
    | some k => exact List.mem_of_find?_eq_some h
  exact (by decide : ∀ k ∈ ([0, 1, 2, 3, 4, 5, 6, 7, 8, 12, 16, 20, 24, 32, 48, 64] : List Nat), fitLen k = k) _ hm

theorem length_takeBytes (bs : List Byte) (n : Nat) : (takeBytes bs n).length = n := by
  simp only [takeBytes, List.length_take, List.length_append, List.length_replicate]
  omega

theorem takeBytes_takeBytes (bs : List Byte) (n : Nat) : takeBytes (takeBytes bs n) n = takeBytes bs n := by
  have h := length_takeBytes bs n
  rw [takeBytes, h, Nat.sub_self, List.replicate_zero, List.append_nil, List.take_of_length_le h.le]

/-- The length of an ISO frame once it is one that a data length code names (Table 24-1). -/
theorem fitLen_twice (fd : Bool) (n : Nat) :
    fitLen (if fd then fitLen (if fd then n else min n 8) else min (fitLen (if fd then n else min n 8)) 8) =
      fitLen (if fd then n else min n 8) := by
  cases fd with
  | true => exact fitLen_fitLen n
  | false =>
    have h : fitLen (min n 8) = min n 8 := fitLen_of_le_eight (Nat.min_le_right ..)
    simp [h]

/-- A frame as the wire carries it is carried as it is. -/
theorem Frame.norm_norm (f : Frame) : f.norm.norm = f.norm := by
  by_cases hi : f.iso = true
  · rcases Bool.eq_false_or_eq_true f.rmt with hr | hr <;> rcases Bool.eq_false_or_eq_true f.xtd with hx | hx <;>
      simp [Frame.norm, hi, hr, hx, fitLen_twice, takeBytes_takeBytes]
  · simp [Frame.norm, hi, takeBytes_takeBytes]

/-! ### The statements -/

/-- Settles O1: the front of the queue is what `step` takes. -/
theorem stepTakesTheFrontCommand : Obligations.StepTakesTheFrontCommand := by
  unfold Obligations.StepTakesTheFrontCommand
  exact fun _ _ _ => rfl

/-- Settles O5: a memory that is changed is changed a word at a time or zeroed over a range, and each keeps the form. -/
theorem everyStepKeepsTheMemoryForm : Obligations.EveryStepKeepsTheMemoryForm := by
  unfold Obligations.EveryStepKeepsTheMemoryForm
  exact fun _ _ hm h => (step_stepKeeps h).mem hm

/-- Settles O7: PANLOCK and the allocation, and DBGLOCK, are among what every step keeps out of reset. -/
theorem lockBitsStayUntilAReset : Obligations.LockBitsStayUntilAReset := by
  unfold Obligations.LockBitsStayUntilAReset
  exact ⟨fun _ _ hl h => (step_stepKeeps h).locks.imp id fun k => k.1 hl,
    fun _ _ hl h => (step_stepKeeps h).locks.imp id fun k => k.2 hl⟩

/-- Settles O6: an access that asks for a software reset ends with it. -/
theorem noStepLeavesASoftwareReset : Obligations.NoStepLeavesASoftwareReset := by
  unfold Obligations.NoStepLeavesASoftwareReset
  exact fun _ _ hw h => (step_stepKeeps h).sw hw

/-- Settles O8: OTPWR programs words that are zero, and every other command keeps them all. -/
theorem otpWordsAreProgrammedOnce : Obligations.OtpWordsAreProgrammedOnce := by
  unfold Obligations.OtpWordsAreProgrammedOnce
  refine ⟨fun _ _ k h hk => (step_stepKeeps h).otp k hk, fun c s t hc h => ?_⟩
  obtain ⟨u, hu, hk⟩ := exec_keeps c hc (s := s)
  cases hu.symm.trans h
  exact hk.otp

/-- Settles O3: every command is one operation that keeps the queue; a frame operand is normalised once, and that a second time changes
nothing. -/
theorem wellFormedCommandsComplete : Obligations.WellFormedCommandsComplete := by
  unfold Obligations.WellFormedCommandsComplete
  refine ⟨fun c s => ?_, fun c s t h => ?_, fun s port f sof m e => ?_⟩
  · obtain ⟨u, hu, -⟩ := exec_next c s
    exact ⟨u, hu⟩
  · obtain ⟨u, hu, hp⟩ := exec_next c s
    cases hu.symm.trans h
    exact hp
  · simp only [exec, execReceiveFrame, execTideFrameRx, execSoundRequestRx, execSoundResultRx, Frame.norm_norm, and_self]

end Sys2Proof.Machine

/-! SUPPORT. What the operations that neither reset, nor claim, nor take a wake latch leave alone: TNOW, the power state, the latches, the
sources that are pending or in service, the burst and NODRV. -/

namespace Sys2Proof.Machine

/-- Source `k` is pending or in service: an arrival at it shows. -/
def Irq.raised (q : Irq) (k : Fin 128) : Prop := bitOf q.pend k.val = true ∨ q.inService k = true

/-- State `s` has what state `b` had of TNOW, of the power record but for requests, the notes LGNONE and the recorded warning, of the wake
latches, of the own burst and of NODRV; every source that was raised still is. -/
structure Calm (b s : State) : Prop where
  tnow : s.eng.tnow = b.eng.tnow
  pow : s.pow = { b.pow with req := s.pow.req, lgNone := s.pow.lgNone, latWarn := s.pow.latWarn }
  latch : s.irq.latch = b.irq.latch
  raised : ∀ k, b.irq.raised k → s.irq.raised k
  burst : s.slu.burst = b.slu.burst
  nodrv : s.line.nodrv = b.line.nodrv

namespace Calm

variable {b s t u : State}

theorem refl (s : State) : Calm s s := ⟨rfl, rfl, rfl, fun _ => id, rfl, rfl⟩

theorem trans (h : Calm b s) (g : Calm s u) : Calm b u where
  tnow := g.tnow.trans h.tnow
  pow := by rw [g.pow, h.pow]
  latch := g.latch.trans h.latch
  raised k hk := g.raised k (h.raised k hk)
  burst := g.burst.trans h.burst
  nodrv := g.nodrv.trans h.nodrv

/-- A state that agrees with `s` in the parts `Calm` reads. -/
theorem congr (h : Calm b s) (ht : u.eng.tnow = s.eng.tnow) (hp : u.pow = s.pow) (hi : u.irq = s.irq)
    (hb : u.slu.burst = s.slu.burst) (hn : u.line.nodrv = s.line.nodrv) : Calm b u :=
  h.trans ⟨ht, by rw [hp], by rw [hi], fun _ => by rw [hi]; exact id, hb, hn⟩

theorem state (h : Calm b s) : s.pow.state = b.pow.state := by rw [h.pow]
theorem coreRuns (h : Calm b s) : s.coreRuns = b.coreRuns := by rw [State.coreRuns, h.pow]; rfl

end Calm

section
variable {b s : State}

@[simp] theorem calm_ite {t : State} {c : Prop} [Decidable c] :
    Calm b (if c then s else t) ↔ (c → Calm b s) ∧ (¬c → Calm b t) := by
  by_cases h : c <;> simp (maxDischargeDepth := 30) [h]

@[simp] theorem calm_foldl {α : Type} (f : State → α → State) (l : List α) (hf : ∀ s x, Calm b s → Calm b (f s x))
    (h : Calm b s) : Calm b (l.foldl f s) := by
  induction l generalizing s with
  | nil => exact h
  | cons x l ih => exact ih (hf s x h)

/-! ### Changes of one part of the state -/

variable (h : Calm b s)
include h

@[simp] theorem calm_updSys (f : Sys → Sys) : Calm b (s.updSys f) := h.congr rfl rfl rfl rfl rfl
@[simp] theorem calm_updTide (f : Tide → Tide) : Calm b (s.updTide f) := h.congr rfl rfl rfl rfl rfl
@[simp] theorem calm_updCal (f : Cal → Cal) : Calm b (s.updCal f) := h.congr rfl rfl rfl rfl rfl
@[simp] theorem calm_updPan (n : Fin 4) (f : Pan → Pan) : Calm b (s.updPan n f) := h.congr rfl rfl rfl rfl rfl
@[simp] theorem calm_updTq (n q : Fin 4) (f : TxQueue → TxQueue) : Calm b (s.updTq n q f) := h.congr rfl rfl rfl rfl rfl
@[simp] theorem calm_updThr (t : Fin 8) (f : Thread → Thread) : Calm b (s.updThr t f) := h.congr rfl rfl rfl rfl rfl
@[simp] theorem calm_updTim (n : Fin 8) (f : Timer → Timer) : Calm b (s.updTim n f) := h.congr rfl rfl rfl rfl rfl
@[simp] theorem calm_updSch (e : Fin 32) (f : SchEntry → SchEntry) : Calm b (s.updSch e f) := h.congr rfl rfl rfl rfl rfl
@[simp] theorem calm_updFlt (k : Fin 128) (f : Filter → Filter) : Calm b (s.updFlt k f) := h.congr rfl rfl rfl rfl rfl
@[simp] theorem calm_putSlotWord (g w : Nat) (v : Word) : Calm b (s.putSlotWord g w v) := h.congr rfl rfl rfl rfl rfl
@[simp] theorem calm_takeFree : Calm b s.takeFree := h.congr rfl rfl rfl rfl rfl
@[simp] theorem calm_put_sched (x : Sched) : Calm b { s with sched := x } := h.congr rfl rfl rfl rfl rfl
@[simp] theorem calm_put_tim (x : Timers) : Calm b { s with tim := x } := h.congr rfl rfl rfl rfl rfl
@[simp] theorem calm_put_pans (x : Tab Pan 4) : Calm b { s with pans := x } := h.congr rfl rfl rfl rfl rfl
@[simp] theorem calm_put_window (x : Fin 4) (y : BitVec 64) : Calm b { s with window := x, windowFrom := y } :=
  h.congr rfl rfl rfl rfl rfl
@[simp] theorem calm_updLine (f : Line → Line) (hf : (f s.line).nodrv = s.line.nodrv) : Calm b (s.updLine f) :=
  h.congr rfl rfl rfl rfl hf
@[simp] theorem calm_put_line (x : Line) (hx : x.nodrv = s.line.nodrv) : Calm b { s with line := x } :=
  h.congr rfl rfl rfl rfl hx
@[simp] theorem calm_updSlu (f : Sluice → Sluice) (hf : (f s.slu).burst = s.slu.burst) : Calm b (s.updSlu f) :=
  h.congr rfl rfl rfl hf rfl
@[simp] theorem calm_updPort (p : LinePort) (f : PortState → PortState) : Calm b (s.updPort p f) :=
  h.congr (by simp) (by simp) (by simp) (by simp) (by cases p <;> rfl)
@[simp] theorem calm_endRequest (l : Bool) : Calm b (s.endRequest l) :=
  h.trans ⟨rfl, by unfold State.endRequest State.updPow; dsimp only; split <;> rfl, rfl, fun _ => id, rfl, rfl⟩

end

/-! ### Arrivals and waits -/

theorem Irq.raised_arrive (q : Irq) (j k : Fin 128) (h : q.raised k) : (q.arrive j).raised k := by
  unfold Irq.arrive
  split
  · refine h.imp (fun hp => ?_) id
    rw [bitOf_putBit _ _ _ _ k.isLt]
    split
    · rfl
    · exact hp
  · split <;> exact h

/-- An arrival raises its source. -/
theorem Irq.raised_arrive_self (q : Irq) (k : Fin 128) : (q.arrive k).raised k := by
  unfold Irq.arrive
  split
  · exact .inl (by rw [bitOf_putBit _ _ _ _ k.isLt, if_pos rfl])
  · next hr =>
    have hk : q.raised k := by
      unfold Irq.raised
      simpa only [Bool.not_eq_true', Bool.not_eq_false, Bool.or_eq_true] using hr
    split <;> exact hk

theorem Irq.arrive_latch (q : Irq) (k : Fin 128) : (q.arrive k).latch = q.latch := by
  unfold Irq.arrive
  split
  · rfl
  · split <;> rfl

/-- An arrival acts on its source, or waits for the core. -/
theorem State.arrive_irq_cases (s : State) (k : Nat) :
    (s.arrive k).irq = s.irq.arrive (idx 128 k) ∨ (∃ d, (s.arrive k).irq = { s.irq with deferred := d }) := by
  unfold State.arrive
  split
  · exact .inr ⟨s.irq.deferred, rfl⟩
  · split
    · exact .inl (State.settleWaits_irq _)
    · exact .inr ⟨_, rfl⟩

/-- While the core runs an arrival raises its source. -/
theorem State.raised_arrive_self {s : State} (hr : s.coreRuns = true) (k : Fin 128) (hk : srcExists k.val = true) :
    (s.arrive k.val).irq.raised k := by
  rw [State.arrive_irq hr hk]
  exact Irq.raised_arrive_self _ k

/-! ### The operations -/

section
variable {b s : State}

@[simp] theorem calm_arrive (k : Nat) (h : Calm b s) : Calm b (s.arrive k) := by
  refine h.trans ⟨s.arrive_eng_tnow k, by rw [s.arrive_pow k], ?_, fun j hj => ?_, by rw [s.arrive_slu], by rw [s.arrive_line]⟩
  · obtain hi | ⟨d, hi⟩ := s.arrive_irq_cases k <;> rw [hi]
    exact Irq.arrive_latch _ _
  · obtain hi | ⟨d, hi⟩ := s.arrive_irq_cases k <;> rw [hi]
    · exact Irq.raised_arrive _ _ _ hj
    · exact hj

@[simp] theorem calm_settle (h : Calm b s) : Calm b s.settle := by
  have hrun : Calm b s.updRun := by
    unfold State.updRun
    simp (maxDischargeDepth := 30) [h]
  have hlife : Calm b s.updRun.updLife := by
    unfold State.updLife
    simp (maxDischargeDepth := 30) [hrun]
  have hunrel : Calm b s.updRun.updLife.updUnrel := by
    unfold State.updUnrel
    simp (maxDischargeDepth := 30) [hlife]
  unfold State.settle State.updSearch
  simp (maxDischargeDepth := 30) [hunrel]

@[simp] theorem calm_panFault (n : Fin 4) (k : Nat) (h : Calm b s) : Calm b (s.panFault n k) := by
  simp (maxDischargeDepth := 30) [State.panFault, h]

@[simp] theorem calm_setEvent (t : Fin 8) (k : Nat) (h : Calm b s) : Calm b (s.setEvent t k) :=
  h.congr (by simp) (by simp) (by simp) (by simp) (by simp)

@[simp] theorem calm_checkWait (t : Fin 8) (h : Calm b s) : Calm b (s.checkWait t) :=
  h.congr (by simp) (by simp) (by simp) (by simp) (by simp)

@[simp] theorem calm_endWait (t : Fin 8) (rd : Fin 16) (v : Word) (h : Calm b s) : Calm b (s.endWait t rd v) :=
  h.congr (by simp) (by simp) (by simp) (by simp) (by simp)

@[simp] theorem calm_dropShadow (k : ShKey) (h : Calm b s) : Calm b (s.dropShadow k) := by
  cases k <;> simp only [State.dropShadow] <;> (try split) <;> simp (maxDischargeDepth := 30) [h]

@[simp] theorem calm_weed (k : ShKey) (h : Calm b s) : Calm b (s.weed k) := by
  unfold State.weed
  split <;> simp (maxDischargeDepth := 30) [h]

@[simp] theorem calm_weedAll (ks : List ShKey) (h : Calm b s) : Calm b (s.weedAll ks) :=
  calm_foldl _ _ (fun _ _ => calm_weed _) h

/-! ### Timers -/

@[simp] theorem calm_timSource (n : Fin 8) (k : Nat) (h : Calm b s) : Calm b (s.timSource n k) := by
  simp (maxDischargeDepth := 30) [State.timSource, h]
@[simp] theorem calm_timMaster (n : Fin 8) (k : Nat) (h : Calm b s) : Calm b (s.timMaster n k) := by
  simp (maxDischargeDepth := 30) [State.timMaster, h]
@[simp] theorem calm_timApply (n : Fin 8) (h : Calm b s) : Calm b (s.timApply n) := by
  simp (maxDischargeDepth := 30) [State.timApply, h]
@[simp] theorem calm_timTick (n : Fin 8) (h : Calm b s) : Calm b (s.timTick n) := by
  simp (maxDischargeDepth := 30) [State.timTick, h]
@[simp] theorem calm_timEvent (n : Fin 8) (h : Calm b s) : Calm b (s.timEvent n) := by
  simp (maxDischargeDepth := 30) [State.timEvent, h]

@[simp] theorem calm_timEvents (n : Fin 8) (k : Nat) (h : Calm b s) : Calm b (s.timEvents n k) := by
  induction k generalizing s with
  | zero => exact h
  | succ k ih => exact ih (calm_timEvent n h)

@[simp] theorem calm_timCycle (g : State) (ticks lf : Nat) (links : List (Fin 8)) (n : Fin 8) (h : Calm b s) :
    Calm b (s.timCycle g ticks lf links n) := by simp (maxDischargeDepth := 30) [State.timCycle, h]
@[simp] theorem calm_timersTick (g : State) (ticks : Nat) (h : Calm b s) : Calm b (s.timersTick g ticks) :=
  calm_foldl _ _ (fun _ _ => calm_timCycle _ _ _ _ _) (calm_put_tim h _)
@[simp] theorem calm_timCapture (n : Fin 8) (trig : Nat) (h : Calm b s) : Calm b (s.timCapture n trig) := by
  simp (maxDischargeDepth := 30) [State.timCapture, h]
@[simp] theorem calm_timMakeup (n : Fin 8) (iv : Interval) (ticks : Nat) (h : Calm b s) : Calm b (s.timMakeup n iv ticks) := by
  simp (maxDischargeDepth := 30) [State.timMakeup, h]
@[simp] theorem calm_fixGates (h : Calm b s) : Calm b s.fixGates := calm_put_tim h _

/-! ### Tide time and the calendar -/

@[simp] theorem calm_tideRefused (via : Via) (h : Calm b s) : Calm b (s.tideRefused via) := by
  cases via <;> simp (maxDischargeDepth := 30) [State.tideRefused, h]

@[simp] theorem calm_applyRate (h : Calm b s) : Calm b s.applyRate := by
  unfold State.applyRate
  dsimp only
  split <;> simp (maxDischargeDepth := 30) [h]

@[simp] theorem calm_applyPeriod (h : Calm b s) : Calm b s.applyPeriod := by
  unfold State.applyPeriod
  dsimp only
  split <;> simp (maxDischargeDepth := 30) [h]

@[simp] theorem calm_calArrive (k : Nat) (h : Calm b s) : Calm b (s.calArrive k) := by
  unfold State.calArrive
  split <;> simp [h]

@[simp] theorem calm_calFlags (old : Word) (w : Bool) (h : Calm b s) : Calm b (s.calFlags old w) := by
  simp [State.calFlags, h]

@[simp] theorem calm_calPeriods (old secs : Nat) (h : Calm b s) : Calm b (s.calPeriods old secs) :=
  calm_foldl _ _ (fun _ _ => calm_arrive 19) h

theorem calm_tideAdvance (n : Nat) (h : Calm b s) : Calm b (s.tideAdvance n).2 := by
  unfold State.tideAdvance
  dsimp only
  repeat' split
  all_goals simp (maxDischargeDepth := 30) [h]

/-! ### The shutdown path -/

@[simp] theorem calm_tryRelease (h : Calm b s) : Calm b s.tryRelease := by simp (maxDischargeDepth := 30) [State.tryRelease, h]
@[simp] theorem calm_tideStep (h : Calm b s) : Calm b s.tideStep := by simp (maxDischargeDepth := 30) [State.tideStep, h]
@[simp] theorem calm_keeperStep (h : Calm b s) : Calm b s.keeperStep := by simp (maxDischargeDepth := 30) [State.keeperStep, h]
@[simp] theorem calm_safeLatch (cause : Nat) (h : Calm b s) : Calm b (s.safeLatch cause) := by
  simp (maxDischargeDepth := 30) [State.safeLatch, h]

/-! ### Frames that leave the wire -/

@[simp] theorem calm_writeStatus (g code : Nat) (r : Record) (h : Calm b s) : Calm b (s.writeStatus g code r) := by
  unfold State.writeStatus
  cases r.sof <;> cases r.words <;> simp (maxDischargeDepth := 30) [h]

@[simp] theorem calm_cplEvent (n : Fin 4) (q : TxQueue) (h : Calm b s) : Calm b (s.cplEvent n q) := by
  unfold State.cplEvent
  split <;> simp (maxDischargeDepth := 30) [h]

@[simp] theorem calm_arriveOwn (n : Fin 4) (k : Nat) (h : Calm b s) : Calm b (s.arriveOwn n k) := by
  simp (maxDischargeDepth := 30) [State.arriveOwn, h]

@[simp] theorem calm_completeItem (n q : Fin 4) (g code : Nat) (r : Record) (h : Calm b s) :
    Calm b (s.completeItem n q g code r) := by
  have h1 := calm_put_line (calm_writeStatus g code r h)
    { (s.writeStatus g code r).line with gasp := (s.writeStatus g code r).line.gasp.filter (· != g) } rfl
  unfold State.completeItem
  dsimp only
  split
  · exact calm_cplEvent _ _ (calm_arriveOwn _ _ (calm_updPan (calm_updTq h1 _ _ _) _ _))
  · exact calm_updPan (calm_updTq h1 _ _ _) _ _

@[simp] theorem calm_giveBack (g : Nat) (who : Option (Fin 8)) (h : Calm b s) : Calm b (s.giveBack g who) := by
  cases who <;> simp (maxDischargeDepth := 30) [State.giveBack, State.passSlot, h]

@[simp] theorem calm_finishTx (n q : Fin 4) (g code : Nat) (who : Option (Fin 8)) (r : Record) (h : Calm b s) :
    Calm b (s.finishTx n q g code who r) := by simp (maxDischargeDepth := 30) [State.finishTx, State.reportTx, h]

@[simp] theorem calm_completeFired (x : FiredTx) (code : Nat) (r : Record) (h : Calm b s) : Calm b (s.completeFired x code r) := by
  simp (maxDischargeDepth := 30) [State.completeFired, h]

@[simp] theorem calm_setBridgeQ (p : LinePort) (q : List Forward) (h : Calm b s) : Calm b (s.setBridgeQ p q) := by
  cases p <;> simp (maxDischargeDepth := 30) [State.setBridgeQ, h]

@[simp] theorem calm_finish (p : LinePort) (a : TxAttempt) (code : Nat) (r : Record) (h : Calm b s) :
    Calm b (s.finish p a code r) := by
  unfold State.finish
  dsimp only
  repeat' split
  all_goals simp (maxDischargeDepth := 30) [State.bridgeDrop, h]

@[simp] theorem calm_requeue (p : LinePort) (a : TxAttempt) (ack : Bool) (f : Forward → Forward) (h : Calm b s) :
    Calm b (s.requeue p a ack f) := by
  unfold State.requeue
  repeat' split
  all_goals simp (maxDischargeDepth := 30) [State.unwire, h]

@[simp] theorem calm_putOff (p : LinePort) (a : TxAttempt) (lost : Bool) (h : Calm b s) : Calm b (s.putOff p a lost) := by
  unfold State.putOff
  dsimp only
  repeat' split
  all_goals simp (maxDischargeDepth := 30) [State.bumpLost, h]

@[simp] theorem calm_portDown (p : LinePort) (h : Calm b s) : Calm b (s.portDown p) := by
  simp (maxDischargeDepth := 30) [State.portDown, State.leaveString, h]
@[simp] theorem calm_lineIdle (p : LinePort) (h : Calm b s) : Calm b (s.lineIdle p) := by
  simp (maxDischargeDepth := 30) [State.lineIdle, h]
@[simp] theorem calm_dropTxOn (p : LinePort) (h : Calm b s) : Calm b (s.dropTxOn p) := calm_updPort h p _

@[simp] theorem calm_cutFrame (p : LinePort) (h : Calm b s) : Calm b (s.cutFrame p) := by
  unfold State.cutFrame
  split <;> simp (maxDischargeDepth := 30) [h]

@[simp] theorem calm_sluiceFrame (p : LinePort) (h : Calm b s) : Calm b (s.sluiceFrame p) := by
  unfold State.sluiceFrame
  cases (s.port p).tx <;> dsimp only
  · simp [h]
  · have h1 := fun a => calm_finish p a stSluiced (a.failRecord p false) (calm_dropTxOn p h)
    simp [h1]

@[simp] theorem calm_portsWait (h : Calm b s) : Calm b s.portsWait := by simp (maxDischargeDepth := 30) [State.portsWait, h]

/-! ### The schedule -/

@[simp] theorem calm_schComplete (e : Fin 32) (r : Nat) (h : Calm b s) : Calm b (s.schComplete e r) := by
  simp (maxDischargeDepth := 30) [State.schComplete, State.schEvent, h]

@[simp] theorem calm_putLate (e : Fin 32) (h : Calm b s) : Calm b (s.putLate e) := by
  simp (maxDischargeDepth := 30) [State.putLate, h]

@[simp] theorem calm_dropTx (e : Fin 32) (code : Nat) (h : Calm b s) : Calm b (s.dropTx e code) := by
  unfold State.dropTx
  dsimp only
  split <;> simp (maxDischargeDepth := 30) [h]

@[simp] theorem calm_fireTx (e : Fin 32) (h : Calm b s) : Calm b (s.fireTx e) := by
  unfold State.fireTx
  dsimp only
  split <;> simp (maxDischargeDepth := 30) [h]

@[simp] theorem calm_firePin (e : Fin 32) (h : Calm b s) : Calm b (s.firePin e).2 := by
  unfold State.firePin
  dsimp only
  repeat' split
  all_goals simp (maxDischargeDepth := 30) [h]

@[simp] theorem calm_fireCapture (e : Fin 32) (h : Calm b s) : Calm b (s.fireCapture e) :=
  calm_foldl _ _ (fun _ _ => calm_timCapture _ _) h

@[simp] theorem calm_fireThread (e : Fin 32) (h : Calm b s) : Calm b (s.fireThread e).2 := by
  unfold State.fireThread State.startThread
  dsimp only
  repeat' split
  all_goals simp (maxDischargeDepth := 30) [h]

@[simp] theorem calm_changePlan (plan : BitVec 3) (h : Calm b s) : Calm b (s.changePlan plan) := by
  simp (maxDischargeDepth := 30) [State.changePlan, h]

@[simp] theorem calm_fireChannel (e : Fin 32) (late : Bool) (h : Calm b s) : Calm b (s.fireChannel e late) := by
  unfold State.fireChannel
  split
  · simp [h]
  · next g _ =>
    have hwait := calm_updLine (calm_updSch h e fun x => { x with state := .committed })
      (fun l => { l with chanPend := l.chanPend ++ [(e, BitVec.ofNat 3 g, late)] }) rfl
    split
    · simp [h]
    · split
      · exact hwait
      · split <;> simp (maxDischargeDepth := 30) [State.channelDone, h]

@[simp] theorem calm_schFire (e : Fin 32) (late : Bool) (h : Calm b s) : Calm b (s.schFire e late) := by
  unfold State.schFire
  dsimp only
  split <;> simp (maxDischargeDepth := 30) [h]

@[simp] theorem calm_schLate (e : Fin 32) (h : Calm b s) : Calm b (s.schLate e) := by
  simp (maxDischargeDepth := 30) [State.schLate, h]

theorem calm_movedOver (e : Fin 32) (h : Calm b s) : Calm b (s.movedOver e) := by
  unfold State.movedOver
  split <;> simp (maxDischargeDepth := 30) [h]

@[simp] theorem calm_schMoved (h : Calm b s) : Calm b s.schMoved := calm_foldl _ _ (fun _ e => calm_movedOver e) h

/-! ### Wakes -/

@[simp] theorem calm_wakeReached (t : Fin 8) (h : Calm b s) : Calm b (s.wakeReached t) := by
  unfold State.wakeReached
  dsimp only
  repeat' split
  all_goals simp (maxDischargeDepth := 30) [h]

@[simp] theorem calm_flushWakes (h : Calm b s) : Calm b s.flushWakes :=
  calm_foldl _ _ (fun _ _ hs => calm_ite.2 ⟨fun _ => calm_wakeReached _ hs, fun _ => hs⟩) h

@[simp] theorem calm_flushDeferred (h : Calm b s) : Calm b s.flushDeferred :=
  calm_foldl _ _ (fun _ k => calm_arrive k) (h.trans ⟨rfl, rfl, rfl, fun _ => id, rfl, rfl⟩)

@[simp] theorem calm_releaseGasp (h : Calm b s) : Calm b s.releaseGasp := by
  unfold State.releaseGasp
  repeat' split
  · exact h
  · simp [h]
  · exact h.trans ⟨rfl, rfl, rfl, fun _ => id, rfl, rfl⟩

@[simp] theorem calm_warn (h : Calm b s) : Calm b s.warn := by simp [State.warn, h]

@[simp] theorem calm_flushWarning (h : Calm b s) : Calm b s.flushWarning := by
  have h1 : Calm b (s.updPow fun p => { p with latWarn := none }) := h.trans ⟨rfl, rfl, rfl, fun _ => id, rfl, rfl⟩
  unfold State.flushWarning
  dsimp only
  split <;> simp (maxDischargeDepth := 30) [h1]

end

end Sys2Proof.Machine

/-! SUPPORT. An idle step: what its core cycle does to TNOW. -/

namespace Sys2Proof.Machine

variable {b s : State}

theorem calm_noteSeen (h : Calm b s) : Calm b s.noteSeen := by
  unfold State.noteSeen
  split
  · exact h
  · exact h.trans ⟨rfl, rfl, rfl, fun _ => id, rfl, rfl⟩

/-- A parity mismatch resets the controller, or is recorded and latched (R671, R673). -/
theorem State.parityFound_calm_or_reset (a : Nat) (shadow : Bool) (h : Calm b s) :
    Calm b (s.parityFound a shadow) ∨ (s.parityFound a shadow).pow.state = .reset := by
  have hfound := calm_arrive 4 (calm_updSys h fun y => { y with cfgPar := true, ploc := BitVec.ofNat 19 a, pshad := shadow })
  unfold State.parityFound
  dsimp only
  split
  · exact .inl h
  · split
    · exact .inr rfl
    · exact .inl (calm_settle (calm_ite.2 ⟨fun _ => calm_safeLatch _ hfound, fun _ => hfound⟩))

theorem State.parityDue_calm_or_reset (h : Calm b s) : Calm b s.parityDue ∨ s.parityDue.pow.state = .reset := by
  unfold State.parityDue
  split
  · exact State.parityFound_calm_or_reset _ _ (calm_updSys h _)
  · exact .inl h

/-- A core cycle that does not end in reset moves TNOW by one. -/
theorem State.coreCycle_tnow (hr : s.coreRuns = true) (hx : s.coreCycle.pow.state ≠ .reset) :
    s.coreCycle.eng.tnow = s.eng.tnow + 1 := by
  have h0 : Calm s s.flushWakes.noteSeen := calm_noteSeen (calm_flushWakes (.refl s))
  unfold State.coreCycle at hx ⊢
  generalize s.flushWakes.noteSeen = s0 at h0 hx ⊢
  rw [hr, Bool.not_true, if_neg Bool.false_ne_true] at hx ⊢
  dsimp only at hx ⊢
  rw [State.settle_pow] at hx
  obtain hc | hc := State.parityDue_calm_or_reset (calm_keeperStep (calm_timersTick s0 _ (calm_tideAdvance 1 (.refl _))))
  · rw [(calm_settle hc).tnow, ← h0.tnow]
    rfl
  · exact absurd hc hx

theorem State.coreCycle_of_stopped (h : s.coreRuns = false) : s.coreCycle = s := by simp [State.coreCycle, h]

theorem State.stockCycle_of_stopped (h : s.coreRuns = false) : s.stockCycle = s := by simp [State.stockCycle, h]

theorem State.issuing_of_stopped (h : s.coreRuns = false) : s.issuing = none := by simp [State.issuing, h]

theorem step_of_pending_nil (h : s.pending = []) : step s = engineCycle s.coreCycle.stockCycle := by
  unfold step
  rw [h]

theorem engineCycle_of_issuing_none (h : s.issuing = none) : engineCycle s = .next s := by
  unfold engineCycle
  rw [h]

/-- A cycle in which thread `t` issues executes the instruction at its PC, once the cycle of the next is noted in `t`'s record. -/
theorem engineCycle_of_issuing_some {t : Fin 8} (h : s.issuing = some t) :
    ∃ v : State, v = { s with eng := v.eng } ∧ (∀ x, x ≠ t → v.eng.thr[x] = s.eng.thr[x]) ∧
      engineCycle s = exec (s.fetched t) v := by
  unfold engineCycle
  rw [h]
  refine ⟨_, rfl, fun x hx => ?_, rfl⟩
  exact (updThr_thr ..).trans (if_neg hx.symm)

/-- Settles O2: the cycle's parts leave TNOW alone but for the count itself and a parity mismatch that resets; a thread that issues is
one that its state lets; the words are decoded one by one. -/
theorem idleStepIsOneCoreCycle : Obligations.IdleStepIsOneCoreCycle := by
  unfold Obligations.IdleStepIsOneCoreCycle
  refine ⟨fun s hp => ⟨fun hn => ?_, fun t ht => ?_, fun hr => ?_⟩, fun s => State.coreCycle_tnow, fun s t => State.issuing_some, by decide⟩
  · rw [step_of_pending_nil hp, engineCycle_of_issuing_none hn]
  · rw [step_of_pending_nil hp]
    exact engineCycle_of_issuing_some ht
  · rw [step_of_pending_nil hp, State.coreCycle_of_stopped hr, State.stockCycle_of_stopped hr,
      engineCycle_of_issuing_none (State.issuing_of_stopped hr)]

end Sys2Proof.Machine

/-! SUPPORT. A wrap that freezes its own timer, and the refutation of the statement about a timer's wrap and match (chapter 16). -/

namespace Sys2Proof.Machine

/-- Timer 0 runs with MEV = WRAP and its wrap as a source that thread 0 of its own pan is interrupted by; the debugger steps thread 0
over a wait for that interrupt (R466). -/
def steppedWait : State :=
  let s : State := { State.reset with pow := { State.reset.pow with state := .run, pllLock := true } }
  ((s.updTim 0 fun x => { x with ctl := 1, sel := 16, mtch := 1 }).updThr 0 fun th =>
    { th with state := .waiting, stepping := true, waitOn := some (.events 1), evm := 1 }).updIrq fun q =>
      { q with en := putBit q.en 32 true, mask := tabUpd q.mask 32 fun m => putBit m 2 true }

/-- The wrap ends the wait. The thread is back in DEBUG, which freezes the timers of its pan (R595), and a
frozen timer gives its slaves no event. -/
theorem steppedWait_wrap_links : (steppedWait.tickFrom 0 (BitVec.allOnes 48)).tim.links = [] := by decide

theorem steppedWait_exec : exec (.timerWrap 0) steppedWait = .next (steppedWait.tickFrom 0 (BitVec.allOnes 48)) := by
  have hrun : (steppedWait.coreRuns && steppedWait.timRunning 0) = true := by decide
  exact congrArg Host.Outcome.next (if_pos hrun)

/-- Refutes O35: a wrap's source can end the stepped wait of a thread of the timer's own pan, which is back in DEBUG and freezes the timer
before its event for the slaves is sent. The statement has that event sent whenever the timer ran before the wrap. -/
theorem not_timerWrapAndMatch : ¬ Obligations.TimerWrapAndMatch := by
  unfold Obligations.TimerWrapAndMatch
  intro h
  obtain ⟨hwrap, -⟩ := h steppedWait 0 (by decide)
  obtain ⟨u, hu, -, -, -, -, hlinks, -⟩ := hwrap (by decide) (by decide)
  rw [steppedWait_exec] at hu
  cases hu
  rw [steppedWait_wrap_links] at hlinks
  exact absurd hlinks (by decide)

end Sys2Proof.Machine

/-! SUPPORT. LISTEN, SLEEP and wake, a pass of the scrubber, and the OTP at the test access port (chapters 19 and 23), and the proof of
their statement. -/

namespace Sys2Proof.Machine

open Sys2Proof.Safety

variable {b s : State}

/-! ### Requests and entry (R776, R778) -/

/-- A served write of SLP_CTL is its request. -/
theorem leads_slpCtl {c : Instr} {p : Party} {v : Word} {P : State → Prop} (he : exec c s = .next (s.partyWrite p .sys 0x054 v))
    (hs : served s p .sys) (hP : ∀ u : State, u.pow = ((s.writing p none .slpCtl).requestRest (bitsOf v 0 2)).pow → P u) :
    Leads c s P :=
  leads_open_write he hs rfl rfl rfl (State.requestRest_keeps _ (.refl false _)) fun u hu => hP u hu.pow

theorem accessState_pow_state (s : State) (p : Party) : (accessState s p).pow.state = s.pow.state := by
  cases p with
  | host h => exact (calm_endRequest (.refl s) false).state
  | thread t => rfl

theorem State.writing_pow_state (p : Party) (key : Option (Fin 5)) (r : Rg) : (s.writing p key r).pow.state = s.pow.state := by
  rw [State.writing_eq]
  exact accessState_pow_state s p

/-- The state that entry makes of one with a request that may take effect, before it settles. -/
def State.rested (s : State) (st : PowerState) : State :=
  (s.fixGates.updPow fun p => { p with state := st, req := none, pllLock := st == .listen, latWarn := none }).updIrq fun q =>
    { q with wextra := 0, latch := 0 }

theorem State.enterRest_of_leading (hr : s.pow.req = some .listen) (hm : s.mayRest = true) (hl : s.leading = true) :
    s.enterRest = s.endRequest true := by
  unfold State.enterRest
  simp [hr, hm, hl]

theorem State.enterRest_of_request {st : PowerState} (hr : s.pow.req = some st) (hm : s.mayRest = true)
    (hl : st ≠ .listen ∨ s.leading = false) : s.enterRest = (s.rested st).settle := by
  have hn : ¬((st == .listen && s.leading) = true) := by
    rcases hl with hl | hl <;> simp [hl]
  unfold State.enterRest
  rw [hr]
  dsimp only
  rw [hm, Bool.not_true, if_neg Bool.false_ne_true, if_neg hn]
  rfl

theorem State.enterRest_of_none (h : s.pow.req = none ∨ s.mayRest = false) : s.enterRest = s := by
  unfold State.enterRest
  split
  · rfl
  · next st hr => rw [h.resolve_left (by rw [hr]; exact nofun), Bool.not_false, if_pos rfl]

/-- RUN is low in SLEEP (Table 6-5). -/
theorem State.runLevel_of_sleep (h : s.pow.state = .sleep) : s.runLevel = false := by simp [State.runLevel, h]

/-! ### A wake (R779, R784) -/

/-- The base of a calm run may have its latches cleared with the run's. -/
theorem Calm.clearLatch (h : Calm b s) :
    Calm (b.updIrq fun q => { q with latch := 0 }) (s.updIrq fun q => { q with latch := 0 }) :=
  ⟨h.tnow, h.pow, rfl, h.raised, h.burst, h.nodrv⟩

theorem calm_fillBuckets (h : Calm b s) : Calm b s.fillBuckets := calm_put_pans h _
theorem calm_startCycle (h : Calm b s) : Calm b s.startCycle := calm_put_window h _ _

/-- Every latched edge arrives, and no latch is left. -/
theorem State.flushLatches_calm (h : Calm b s) : Calm (b.updIrq fun q => { q with latch := 0 }) s.flushLatches := by
  have h1 := h.clearLatch
  unfold State.flushLatches
  dsimp only
  exact calm_foldl _ _ (fun _ _ hs => calm_ite.2 ⟨fun _ => calm_arrive _ hs, fun _ => hs⟩)
    (calm_ite.2 ⟨fun _ => calm_arrive _ h1, fun _ => h1⟩)

/-- The state with the time of the interval `iv` made up and no latch set. -/
def State.timeMadeUp (s : State) (iv : Interval) : State :=
  ((s.updEng fun e => { e with tnow := e.tnow + BitVec.ofNat 64 iv.cycles }).updPow fun p =>
    { p with aon := p.aon + iv.cycles }).updIrq fun q => { q with latch := 0 }

/-- The make-ups of a wake move TNOW by the interval and end the latches. -/
theorem State.makeUp_calm (s : State) (iv : Interval) (wait : Bool) : Calm (s.timeMadeUp iv) (s.makeUp iv wait) := by
  unfold State.makeUp
  dsimp only
  have h3 := calm_tideAdvance iv.cycles (calm_flushDeferred (.refl ((s.updEng fun e =>
    { e with tnow := e.tnow + BitVec.ofNat 64 iv.cycles }).updPow fun p => { p with aon := p.aon + iv.cycles })))
  have h4 := fun ticks =>
    calm_foldl (fun s n => s.timMakeup n iv ticks) (List.finRange 8) (fun _ n => calm_timMakeup n iv ticks) h3
  have h6 := fun ticks => calm_flushWarning (State.flushLatches_calm (calm_startCycle (calm_fillBuckets (h4 ticks))))
  exact calm_settle (calm_flushWakes (calm_schMoved (calm_ite.2 ⟨fun _ => calm_portsWait (h6 _), fun _ => h6 _⟩)))

/-- A burst request changes the shutdown path's own record and is calm otherwise. -/
theorem State.emitBurst_calm (s : State) : ∃ f, Calm (s.updSlu f) s.emitBurst := by
  unfold State.emitBurst
  split
  · exact ⟨id, .refl s⟩
  · split
    · exact ⟨_, .refl _⟩
    · refine ⟨fun u => { u with burst := putBit (putBit u.burst 0 s.plcSluice) 1 s.pairSluice }, ?_⟩
      simp [Calm.refl]

theorem State.flushBurst_calm (s : State) : ∃ f, Calm (s.updSlu f) s.flushBurst := by
  unfold State.flushBurst
  split
  · obtain ⟨f, hf⟩ := (s.updSlu fun u => { u with burstPend := false }).emitBurst_calm
    exact ⟨fun u => f { u with burstPend := false }, calm_settle hf⟩
  · exact ⟨id, .refl s⟩

/-- What a wake leaves, by the number of the state it left. -/
structure State.Woken (s u : State) (cause : BitVec 7) (iv : Interval) (last : BitVec 2) : Prop where
  state : u.pow.state = .run
  pllLock : u.pow.pllLock = true
  wcause : u.pow.wcause = cause
  last : u.pow.last = last
  tnow : u.eng.tnow = s.eng.tnow + BitVec.ofNat 64 iv.cycles
  latch : u.irq.latch = 0

theorem State.woken_makeUp (s : State) (cause : BitVec 7) (iv : Interval) (last : BitVec 2) (wait : Bool) :
    s.Woken ((s.updPow fun p => { p with state := .run, pllLock := true, wcause := cause, last := last }).makeUp iv wait) cause iv last := by
  have h := (s.updPow fun p => { p with state := .run, pllLock := true, wcause := cause, last := last }).makeUp_calm iv wait
  exact ⟨h.state, by rw [h.pow]; rfl, by rw [h.pow]; rfl, by rw [h.pow]; rfl, h.tnow, h.latch⟩

theorem State.Woken.flushBurst {u : State} {cause : BitVec 7} {iv : Interval} {last : BitVec 2} (hw : s.Woken u cause iv last) :
    s.Woken u.flushBurst cause iv last := by
  obtain ⟨f, h⟩ := u.flushBurst_calm
  exact ⟨h.state.trans hw.state, (by rw [h.pow]; rfl : u.flushBurst.pow.pllLock = u.pow.pllLock).trans hw.pllLock,
    (by rw [h.pow]; rfl : u.flushBurst.pow.wcause = u.pow.wcause).trans hw.wcause,
    (by rw [h.pow]; rfl : u.flushBurst.pow.last = u.pow.last).trans hw.last, h.tnow.trans hw.tnow, h.latch.trans hw.latch⟩

theorem State.wake_of_sleep (h : s.pow.state = .sleep) (cause : BitVec 7) (iv : Interval) :
    s.Woken (s.wake cause iv) cause iv 2 := by
  unfold State.wake
  rw [h]
  exact s.woken_makeUp cause iv 2 true

theorem State.wake_of_listen (h : s.pow.state = .listen) (cause : BitVec 7) (iv : Interval) :
    s.Woken (s.wake cause iv) cause iv 1 := by
  unfold State.wake
  rw [h]
  exact (s.woken_makeUp cause iv 1 false).flushBurst

theorem State.wake_of_awake (h : s.pow.state = .run ∨ s.pow.state = .reset) (cause : BitVec 7) (iv : Interval) :
    s.wake cause iv = s := by
  unfold State.wake
  rcases h with h | h <;> rw [h]

/-! ### The scrubber (R671-R675) -/

/-- The system record with its upset lists emptied, which were empty. -/
theorem State.noUpsets_of_empty (hb : s.sys.parBad = []) (hd : s.sys.shBad = []) :
    (s.updSys fun y => { y with parBad := [], shBad := [] }) = s := by
  have hy : { s.sys with parBad := [], shBad := [] } = s.sys := by
    generalize s.sys = y at hb hd
    cases y
    cases hb
    cases hd
    rfl
  exact congrArg (fun y => { s with sys := y }) hy

/-- A pass that finds nothing. -/
theorem State.scrubPass_nil (hb : s.sys.parBad = []) (hd : s.sys.shBad = []) : s.scrubPass [] [] [] = s := by
  unfold State.scrubPass
  split
  · rfl
  · simp only [hb, hd, firstBad, List.filter_nil, List.filterMap_nil, List.map_nil, List.append_nil, List.foldl_nil, List.min?_nil]
    exact State.noUpsets_of_empty hb hd

/-- The state with the upset of register `a` alone recorded. -/
def State.upset (s : State) (a : Nat) : State := s.updSys fun y => { y with parBad := [(a, s.storedValue a)], shBad := [] }

/-- A pass that finds register `a` in a state with no recorded upset records the mismatch, which acts. -/
theorem State.scrubPass_one (hr : s.coreRuns = true) (hb : s.sys.parBad = []) (hd : s.sys.shBad = []) {a : Nat} (ha : s.cfgAddr a = true) :
    s.scrubPass [a] [] [] = (s.upset a).parityFound a false := by
  unfold State.scrubPass
  rw [hr, Bool.not_true, if_neg Bool.false_ne_true]
  simp [hb, hd, ha, firstBad]
  rfl

/-- The state that the first mismatch leaves before a latch, a reset or what settles. -/
def State.mismatch (s : State) (a : Nat) (shadow : Bool) : State :=
  (s.updSys fun y => { y with cfgPar := true, ploc := BitVec.ofNat 19 a, pshad := shadow }).arrive 4

theorem State.parityFound_eq (hc : s.sys.cfgPar = false) (a : Nat) (shadow : Bool) :
    s.parityFound a shadow =
      let s2 := if bitOf s.sys.ctl 0 then (s.mismatch a shadow).safeLatch causeParity else s.mismatch a shadow
      if bitOf s.sys.ctl 1 then s2.resetWith rcPar else s2.settle := by
  unfold State.parityFound
  rw [hc, if_neg Bool.false_ne_true]
  rfl

theorem State.mismatch_slu (a : Nat) (shadow : Bool) : (s.mismatch a shadow).slu = s.slu := State.arrive_slu _ _

theorem State.mismatch_sys (a : Nat) (shadow : Bool) :
    (s.mismatch a shadow).sys = { s.sys with cfgPar := true, ploc := BitVec.ofNat 19 a, pshad := shadow } := State.arrive_sys _ _

theorem State.mismatch_raised (hr : s.coreRuns = true) (a : Nat) (shadow : Bool) : (s.mismatch a shadow).irq.raised 4 :=
  State.raised_arrive_self (s := s.updSys _) hr 4 rfl

/-- A latch sets SAFE with its cause. -/
theorem State.safeLatch_slu (cause : Nat) (hc : cause < 5) :
    (s.safeLatch cause).slu.safe = true ∧ bitOf (s.safeLatch cause).slu.cause cause = true := by
  unfold State.safeLatch
  simp only [State.settle_slu_safe, State.settle_slu_cause, State.arrive_slu]
  exact ⟨rfl, by simp [State.updSlu, bitOf_putBit, hc]⟩

theorem State.runLevel_of_safe (h : s.slu.safe = true) : s.runLevel = false := by simp [State.runLevel, h]

/-- An address that the scrubber names lies in the system block or a window. -/
theorem State.lt_of_cfgAddr {a : Nat} (h : s.cfgAddr a = true) : a < 0x5000 := by
  simp only [State.cfgAddr, Bool.and_eq_true, decide_eq_true_eq] at h
  exact h.1.2


/-- What the first mismatch leaves before it resets or settles: SAFE latched with PARSAFE, nothing else of the shutdown path without. -/
def State.mismatchLatched (s : State) (a : Nat) (shadow : Bool) : State :=
  if bitOf s.sys.ctl 0 then (s.mismatch a shadow).safeLatch causeParity else s.mismatch a shadow

theorem State.mismatchLatched_calm (a : Nat) (shadow : Bool) :
    Calm (s.mismatch a shadow) (s.mismatchLatched a shadow) :=
  calm_ite.2 ⟨fun _ => calm_safeLatch _ (.refl _), fun _ => .refl _⟩

theorem State.mismatchLatched_sys (a : Nat) (shadow : Bool) :
    (s.mismatchLatched a shadow).sys.cfgPar = true ∧ (s.mismatchLatched a shadow).sys.ploc = BitVec.ofNat 19 a ∧
      (s.mismatchLatched a shadow).sys.pshad = shadow := by
  unfold State.mismatchLatched
  split <;> simp [State.safeLatch, State.mismatch_sys]

theorem State.mismatchLatched_of_parsafe (h : bitOf s.sys.ctl 0 = true) (a : Nat) (shadow : Bool) :
    (s.mismatchLatched a shadow).slu.safe = true ∧ bitOf (s.mismatchLatched a shadow).slu.cause 4 = true := by
  unfold State.mismatchLatched
  rw [if_pos h]
  exact State.safeLatch_slu causeParity (by decide)

theorem State.mismatchLatched_of_no_parsafe (h : bitOf s.sys.ctl 0 = false) (a : Nat) (shadow : Bool) :
    (s.mismatchLatched a shadow).slu = s.slu := by
  unfold State.mismatchLatched
  rw [if_neg (ne_true_of_eq_false h), State.mismatch_slu]

/-- What a scrubber's pass that finds the first mismatch at `a` leaves without PARRST. -/
theorem State.parityFound_recorded (hr : s.coreRuns = true) (hc : s.sys.cfgPar = false) {a : Nat} (ha : a < 0x5000)
    (hn : bitOf s.sys.ctl 1 = false) :
    let u := s.parityFound a false
    u.sys.cfgPar = true ∧ u.sys.ploc.toNat = a ∧ u.sys.pshad = false ∧ u.irq.raised 4 ∧
      (bitOf s.sys.ctl 0 = true → u.slu.safe = true ∧ bitOf u.slu.cause 4 = true ∧ u.slu.run = false) ∧
      (bitOf s.sys.ctl 0 = false → u.slu.safe = s.slu.safe) := by
  have hu : s.parityFound a false = (s.mismatchLatched a false).settle :=
    (State.parityFound_eq hc a false).trans (if_neg (ne_true_of_eq_false hn))
  obtain ⟨hpar, hloc, hsh⟩ := State.mismatchLatched_sys (s := s) a false
  have hraised := (calm_settle (State.mismatchLatched_calm (s := s) a false)).raised 4 (State.mismatch_raised hr a false)
  dsimp only
  rw [hu]
  refine ⟨by simpa using hpar, ?_, by simpa using hsh, hraised, fun h0 => ?_, fun h0 => ?_⟩
  · rw [State.settle_sys_ploc, hloc, BitVec.toNat_ofNat]
    omega
  · obtain ⟨hsafe, hcause⟩ := State.mismatchLatched_of_parsafe h0 a false
    exact ⟨by simpa using hsafe, by simpa using hcause, (State.settle_run _).trans (State.runLevel_of_safe hsafe)⟩
  · rw [State.settle_slu_safe, State.mismatchLatched_of_no_parsafe h0]

/-- What it leaves with PARRST: a reset with cause PAR, which keeps SAFE. -/
theorem State.parityFound_reset (hc : s.sys.cfgPar = false) {a : Nat} (ha : a < 0x5000) (hn : bitOf s.sys.ctl 1 = true) :
    let u := s.parityFound a false
    u.pow.state = .reset ∧ u.sys.rstCause = 16 ||| (if s.pow.tapHold = true then 2 else 0) ∧ u.sys.ploc.toNat = a ∧
      u.slu.safe = (s.slu.safe || bitOf s.sys.ctl 0) := by
  have hu : s.parityFound a false = (s.mismatchLatched a false).resetWith rcPar :=
    (State.parityFound_eq hc a false).trans (if_pos hn)
  have hcalm := State.mismatchLatched_calm (s := s) a false
  have htap : (s.mismatchLatched a false).pow.tapHold = s.pow.tapHold := by
    rw [hcalm.pow, State.mismatch]
    simp
  obtain ⟨-, hloc, -⟩ := State.mismatchLatched_sys (s := s) a false
  dsimp only
  rw [hu]
  refine ⟨rfl, ?_, ?_, ?_⟩
  · rw [← htap]
    exact (State.rstCauses_eq _ 4).trans (by simp)
  · have hp : ((s.mismatchLatched a false).resetWith rcPar).sys.ploc = BitVec.ofNat 19 a := hloc
    rw [hp, BitVec.toNat_ofNat]
    omega
  · show (s.mismatchLatched a false).slu.safe = _
    cases h0 : bitOf s.sys.ctl 0
    · rw [State.mismatchLatched_of_no_parsafe h0, Bool.or_false]
    · rw [(State.mismatchLatched_of_parsafe h0 a false).1, Bool.or_true]

/-! ### The statement -/

/-- Settles O60: entry and wake change the power record and what is made up, whose parts are calm; the first mismatch is recorded, latched
and reset or settled in that order. That a LISTEN request is dropped for the lead is log 83, and that a wake's cause and interval are
operands is log 50. -/
theorem powerStatesScrubberOtp : Obligations.PowerStatesScrubberOtp := by
  unfold Obligations.PowerStatesScrubberOtp
  intro s
  refine ⟨?requests, ?lead, ?entry, ?noEntry, ?wake, ?noWake, ?nothing, ?recorded, ?reset, ?noVio, ?otprd, ?otpwr⟩
  case requests =>
    intro p hs
    refine ⟨leads_slpCtl rfl hs fun u hu => ?_, leads_slpCtl rfl hs fun u hu => ?_⟩ <;> rw [hu]
    all_goals exact ⟨rfl, State.writing_pow_state p none .slpCtl⟩
  case lead =>
    rintro _ hr hm rfl hl
    exact congrArg Host.Outcome.next (State.enterRest_of_leading hr hm hl)
  case entry =>
    intro st hr hm hl
    refine ⟨_, congrArg Host.Outcome.next (State.enterRest_of_request hr hm hl), ?_⟩
    have h := calm_settle (.refl (s.rested st))
    exact ⟨h.state, by rw [State.settle_pow]; rfl, by rw [State.settle_pow]; rfl, h.latch, h.tnow, State.settle_mem _,
      fun hst => (State.settle_run _).trans (State.runLevel_of_sleep hst)⟩
  case noEntry => exact fun h => congrArg Host.Outcome.next (State.enterRest_of_none h)
  case wake =>
    rintro cause iv (h | h)
    · obtain ⟨hst, hpll, hcause, hlast, htnow, hlatch⟩ := State.wake_of_listen h cause iv
      exact ⟨_, rfl, hst, hpll, hcause, by rw [hlast, h]; rfl, htnow, hlatch⟩
    · obtain ⟨hst, hpll, hcause, hlast, htnow, hlatch⟩ := State.wake_of_sleep h cause iv
      exact ⟨_, rfl, hst, hpll, hcause, by rw [hlast, h]; rfl, htnow, hlatch⟩
  case noWake => exact fun cause iv h => congrArg Host.Outcome.next (State.wake_of_awake h cause iv)
  case nothing => exact fun _ hb hd _ => congrArg Host.Outcome.next (State.scrubPass_nil hb hd)
  case recorded =>
    exact fun a hr hb hd hc ha hn => ⟨_, congrArg Host.Outcome.next (State.scrubPass_one hr hb hd ha),
      State.parityFound_recorded (s := s.upset a) hr hc (State.lt_of_cfgAddr ha) hn⟩
  case reset =>
    exact fun a hr hb hd hc ha hn => ⟨_, congrArg Host.Outcome.next (State.scrubPass_one hr hb hd ha),
      State.parityFound_reset (s := s.upset a) hc (State.lt_of_cfgAddr ha) hn⟩
  case noVio =>
    exact fun ws h => ⟨congrArg Host.Outcome.next (State.viaTap_of_no_vio h _), congrArg Host.Outcome.next (State.viaTap_of_no_vio h _)⟩
  case otprd =>
    exact fun h => ⟨_, congrArg Host.Outcome.next (State.viaTap_of_vio h _), fun k => tabMapIdx_get _ _ k, rfl, rfl⟩
  case otpwr =>
    exact fun ws h => ⟨_, congrArg Host.Outcome.next (State.viaTap_of_vio h _), rfl, rfl, s.otp.program_words ws⟩

end Sys2Proof.Machine

/-! SUPPORT. The supply monitor, the supplies of the drivers and of the host ports, the pins and the clocks (chapter 23), and the proof of
their statement. -/

namespace Sys2Proof.Machine

open Sys2Proof.Safety

variable {b s u : State}

/-! ### The warning and the last-gasp frame (R415, R771) -/

theorem State.queueHead_congr (hp : u.pans = s.pans) (hm : u.mem = s.mem) (n q : Fin 4) : u.queueHead n q = s.queueHead n q := by
  have hq : u.tq n q = s.tq n q := by rw [State.tq, hp, State.tq]
  unfold State.queueHead
  simp only [hq, State.slotFrame_congr hm]

theorem State.releaseGasp_of_head (h : bitOf s.pow.supCtl 0 = true) (hl : (s.tq 0 3).lgasp = true) (he : (s.tq 0 3).en = true) {g : Nat}
    (hg : s.queueHead 0 3 = some g) :
    s.releaseGasp = s.updLine fun l => { l with gasp := if l.gasp.contains g then l.gasp else l.gasp ++ [g] } := by
  unfold State.releaseGasp
  simp only [h, hl, he, hg, Bool.not_true, Bool.and_self, if_true, if_neg Bool.false_ne_true]

theorem State.releaseGasp_of_none (h : bitOf s.pow.supCtl 0 = true)
    (hn : (s.tq 0 3).lgasp = false ∨ (s.tq 0 3).en = false ∨ s.queueHead 0 3 = none) :
    s.releaseGasp = s.updPow fun p => { p with lgNone := true } := by
  have hh : (if (s.tq 0 3).lgasp && (s.tq 0 3).en then s.queueHead 0 3 else none) = none := by
    rcases hn with hn | hn | hn <;> simp [hn]
  unfold State.releaseGasp
  simp only [h, hh, Bool.not_true, if_neg Bool.false_ne_true]

theorem State.releaseGasp_irq (s : State) : s.releaseGasp.irq = s.irq := by
  unfold State.releaseGasp
  repeat' split
  all_goals rfl

theorem State.state_of_coreRuns (h : s.coreRuns = true) : s.pow.state = .run := by
  simp only [State.coreRuns, Bool.and_eq_true, beq_iff_eq] at h
  exact h.1

/-- An arrival while the core is stopped waits for it. -/
theorem State.arrive_of_stopped (h : s.coreRuns = false) {k : Nat} (hk : srcExists k = true) :
    s.arrive k = s.updIrq fun q => { q with deferred := q.deferred ++ [k] } := by simp [State.arrive, hk, h]

theorem State.supplyWarning_of_below (h : s.pow.below = true) : s.supplyWarning = s := if_pos h

theorem State.supplyGood_of_above (h : s.pow.below = false) : s.supplyGood = s := by simp [State.supplyGood, h]

theorem State.supplyWarning_of_rest (h : s.pow.below = false) (hr : s.pow.state = .listen ∨ s.pow.state = .sleep) :
    s.supplyWarning = s.updPow fun p => { p with below := true, latWarn := some true } := by
  unfold State.supplyWarning
  rcases hr with hr | hr <;> rw [h, hr] <;> rfl

theorem State.supplyGood_of_rest (h : s.pow.below = true) (hr : s.pow.state = .listen ∨ s.pow.state = .sleep) :
    s.supplyGood = s.updPow fun p => { p with below := false, latWarn := some false } := by
  unfold State.supplyGood
  rcases hr with hr | hr <;> rw [h, hr] <;> rfl

theorem State.supplyWarning_of_run (h : s.pow.below = false) (hr : s.pow.state = .run) :
    s.supplyWarning = ((s.updPow fun p => { p with below := true }).arrive 2).releaseGasp := by
  unfold State.supplyWarning State.warn
  have hn : (s.updPow fun p => { p with below := true }).pow.state ≠ .reset := by simp [hr]
  rw [h, hr]
  exact if_neg hn

theorem State.supplyWarning_of_reset (h : s.pow.below = false) (hr : s.pow.state = .reset) :
    s.supplyWarning = (s.updPow fun p => { p with below := true }).arrive 2 := by
  unfold State.supplyWarning State.warn
  have hn : (s.updPow fun p => { p with below := true }).pow.state = .reset := hr
  rw [h, hr]
  exact if_pos hn

theorem State.supplyGood_of_run (h : s.pow.below = true) (hr : s.pow.state = .run) :
    s.supplyGood = (s.updPow fun p => { p with below := false }).arrive 3 := by
  unfold State.supplyGood
  rw [h, hr]
  rfl

theorem State.supplyGood_of_reset (h : s.pow.below = true) (hr : s.pow.state = .reset) :
    s.supplyGood = s.updPow fun p => { p with below := false } := by
  unfold State.supplyGood
  rw [h, hr]
  rfl

/-- A state that neither rests nor runs the core is in reset, or in RUN with the PLL out. -/
theorem State.run_or_reset (h : ¬(s.pow.state = .listen ∨ s.pow.state = .sleep)) : s.pow.state = .run ∨ s.pow.state = .reset := by
  cases hs : s.pow.state <;> simp [hs] at h ⊢

/-! ### The drivers' supply (R51, R85) -/

theorem State.setNodrv_line (on : Bool) : (s.setNodrv on).line = { s.line with nodrv := on } := by
  unfold State.setNodrv
  dsimp only
  split
  · rfl
  · exact State.arrive_line _ _

theorem State.setNodrv_pow (on : Bool) : (s.setNodrv on).pow = { s.pow with vdrvOk := !on } := by
  unfold State.setNodrv
  dsimp only
  split
  · rfl
  · exact State.arrive_pow _ _

theorem State.setNodrv_raised (hr : s.coreRuns = true) {on : Bool} (hn : s.line.nodrv = !on) : (s.setNodrv on).irq.raised 28 := by
  have hc : ¬((s.line.nodrv == on || s.pow.state == .reset) = true) := by
    rw [hn, State.state_of_coreRuns hr]
    cases on <;> decide
  unfold State.setNodrv
  dsimp only
  rw [if_neg hc]
  refine State.raised_arrive_self ?_ 28 rfl
  exact hr

/-! ### A frame that leaves the wire -/

theorem State.updPort_port_tx (p q : LinePort) {f : PortState → PortState} (hf : ∀ x, (f x).tx = x.tx) :
    ((s.updPort p f).port q).tx = (s.port q).tx := by
  by_cases h : p = q
  · subst h
    rw [State.updPort_port_self, hf]
  · rw [State.updPort_port_of_ne _ _ _ _ h]

theorem State.lineIdle_tx (p q : LinePort) : ((s.lineIdle p).port q).tx = (s.port q).tx := by
  unfold State.lineIdle State.portDown
  dsimp only
  repeat' split
  · exact State.updPort_port_tx p q fun _ => rfl
  · rw [State.port_congr (State.leaveString_line _)]
    exact State.updPort_port_tx p q fun _ => rfl
  · exact State.updPort_port_tx p q fun _ => rfl

/-- What puts a frame off the wire of port `p` leaves the other port its own. -/
theorem State.offWire_tx (p q : LinePort) (a : TxAttempt) (lost : Bool) :
    ((((s.dropTxOn p).putOff p a lost).lineIdle p).port q).tx = if p = q then none else (s.port q).tx := by
  rw [State.lineIdle_tx, State.putOff_port, State.dropTxOn]
  split
  · next h =>
    subst h
    rw [State.updPort_port_self]
  · next h => rw [State.updPort_port_of_ne _ _ _ _ h]

theorem State.cutFrame_tx (p q : LinePort) : ((s.cutFrame p).port q).tx = if p = q then none else (s.port q).tx := by
  unfold State.cutFrame
  split
  · exact State.offWire_tx p q _ false
  · next h =>
    split
    · next hq => rw [← hq, h]
    · rfl

/-- The end of an attempt by a cut takes the frame off the wire, as far as the ports show. -/
theorem State.attemptEnd_cut_tx (p q : LinePort) : ((s.attemptEnd p .cut).port q).tx = if p = q then none else (s.port q).tx := by
  cases h : (s.port p).tx with
  | none =>
    simp only [State.attemptEnd, h]
    split
    · next hq => rw [← hq, h]
    · rfl
  | some a =>
    rw [State.attemptEnd_cut h, State.settle_port]
    exact State.offWire_tx p q a false

theorem calm_attemptEnd_cut (p : LinePort) (h : Calm b s) : Calm b (s.attemptEnd p .cut) := by
  cases hx : (s.port p).tx with
  | none => simpa only [State.attemptEnd, hx] using h
  | some a =>
    rw [State.attemptEnd_cut hx]
    exact calm_settle (calm_lineIdle _ (calm_putOff _ _ _ (calm_dropTxOn _ h)))

theorem State.portsWait_tx (q : LinePort) : (s.portsWait.port q).tx = (s.port q).tx := by
  unfold State.portsWait
  cases q <;> exact (apply_ite PortState.tx ..).trans (ite_self _)

/-! ### Captures at a timer (R581, R597) -/

/-- Timer `x` after a capture trigger at `now`: one capture for the triggers of a core cycle, CAPOVF when the queue holds four. -/
def Timer.captured (x : Timer) (now : BitVec 64) (trig : Nat) : Timer :=
  let same := x.capBy != 0 && x.capAt == now && !bitOf x.capBy trig
  let y := { x with capAt := now, capBy := if same then putBit x.capBy trig true else putBit 0 trig true }
  if same then y
  else if x.capq.length < 4 then { y with capq := x.capq ++ [x.cnt], capF := true }
  else { y with capOvf := true }

@[simp] theorem State.timSource_timers (n : Fin 8) (kind : Nat) : (s.timSource n kind).tim = s.tim := by
  unfold State.timSource
  split
  · exact State.arrive_tim _ _
  · rfl

@[simp] theorem State.timMaster_timers (n : Fin 8) (kind : Nat) : (s.timMaster n kind).tim.tim = s.tim.tim := by
  unfold State.timMaster
  split <;> rfl

theorem State.updTim_get (n k : Fin 8) (f : Timer → Timer) :
    (s.updTim n f).tim.tim[k] = if n = k then f s.tim.tim[k] else s.tim.tim[k] := tabUpd_get _ _ _ _

theorem State.timCapture_get (n k : Fin 8) (trig : Nat) :
    (s.timCapture n trig).tim.tim[k] = if n = k then s.tim.tim[k].captured s.eng.tnow trig else s.tim.tim[k] := by
  by_cases hk : n = k
  · subst hk
    rw [if_pos rfl]
    unfold State.timCapture Timer.captured
    dsimp only
    repeat' split
    · simp only [State.updTim_get, if_pos, *]
    · simp only [State.timMaster_timers, State.timSource_timers, State.updTim_get, if_pos, *]
    · simp only [State.timSource_timers, State.updTim_get, if_pos, *]
  · rw [if_neg hk]
    unfold State.timCapture
    dsimp only
    repeat' split
    all_goals simp only [State.timMaster_timers, State.timSource_timers, State.updTim_get, if_neg hk]

theorem Timer.captured_pin (x : Timer) (now : BitVec 64) (trig : Nat) : (x.captured now trig).pin = x.pin := by
  unfold Timer.captured
  dsimp only
  repeat' split
  all_goals rfl

/-! ### Edges at the pins (R562, R584) -/

theorem edgeSel_eq (e : Nat) (rising : Bool) : edgeSel e rising = e.testBit (if rising then 0 else 1) := by cases rising <;> rfl

theorem edgeSel_bitsOf (w : Word) (rising : Bool) : edgeSel (bitsOf w 0 2) rising = w.getLsbD (if rising then 0 else 1) := by
  rw [edgeSel_eq, testBit_bitsOf]
  cases rising <;> simp

theorem State.wakeEdge_of_ignored {rising : Bool} (h : s.pow.state = .reset ∨ s.pow.slpWake.getLsbD (if rising then 0 else 1) = false) :
    s.wakeEdge rising = s := by
  unfold State.wakeEdge
  rw [edgeSel_bitsOf]
  rcases h with h | h <;> simp only [h, decide_true, Bool.true_or, Bool.not_false, Bool.or_true, if_true]

theorem State.latching_of_coreRuns (h : s.coreRuns = true) : s.latching = false := by rw [State.latching, h]; rfl

theorem State.not_reset_of_latching (h : s.latching = true) : s.pow.state ≠ .reset := by
  simp only [State.latching, Bool.and_eq_true, bne_iff_ne] at h
  exact h.2

/-- A selected edge out of reset is caught by its latch while the core clock stands, else it ends a request and arrives. -/
theorem State.wakeEdge_of_selected {rising : Bool} (hn : s.pow.state ≠ .reset)
    (h : s.pow.slpWake.getLsbD (if rising then 0 else 1) = true) :
    s.wakeEdge rising = if s.latching then s.catchEdge 0 else (s.endRequest false).arrive 15 := by
  unfold State.wakeEdge
  rw [edgeSel_bitsOf, h]
  exact if_neg (by simp [hn])

theorem State.catchEdge_latch {k : Nat} (hk : k < 10) : bitOf (s.catchEdge k).irq.latch k = true := by
  unfold State.catchEdge State.updIrq
  dsimp only
  split
  · next h => exact h
  · rw [bitOf_putBit _ _ _ _ hk, if_pos rfl]

/-- An edge at TPn while the core runs shows at the pin, and is an arrival where TPEDGE selects it and the pan owns the source. -/
theorem State.tpEdge_pin (n : Fin 8) (rising : Bool) : ((s.tpEdge n rising).tim.tim[n]).pin = rising := by
  unfold State.tpEdge
  dsimp only
  repeat' split
  all_goals simp only [State.timCapture_get, if_true, Timer.captured_pin, State.arrive_tim, State.updTim_get]

theorem State.tpEdge_raised (hr : s.coreRuns = true) (n : Fin 8) {rising : Bool}
    (he : edgeSel s.tim.tim[n].tpEdge rising = true) (ho : s.srcOwner (40 + n) = s.timOwner n) :
    (s.tpEdge n rising).irq.raised ⟨40 + n.val, by omega⟩ := by
  have hc : (edgeSel s.tim.tim[n].tpEdge rising && s.srcOwner (40 + n) == s.timOwner n) = true := by rw [he, ho, beq_self_eq_true]; rfl
  have hsrc : srcExists (40 + n.val) = true := (by decide : ∀ m : Fin 8, srcExists (40 + m.val) = true) n
  unfold State.tpEdge
  dsimp only
  rw [if_pos hc]
  have harr : ∀ u, Calm s u → (u.arrive (40 + n.val)).irq.raised ⟨40 + n.val, by omega⟩ := fun u hu =>
    State.raised_arrive_self (hu.coreRuns.trans hr) ⟨40 + n.val, by omega⟩ hsrc
  have hbefore := harr _ (calm_updTim (calm_foldl (fun s k => s.timEvent k)
    ((List.finRange 8).filter fun k => s.tim.tim[k].srcSel == 3 && s.tim.tim[k].selNo == n.val &&
      edgeCounts s.tim.tim[k].edge rising && s.timRunning k) (fun _ k => calm_timEvent k) (.refl s)) n fun x => { x with pin := rising })
  split
  · exact (calm_timCapture n trigEdge (.refl _)).raised _ hbefore
  · exact hbefore

/-! ### Clocks (R690, R788) -/

theorem State.setLfErr_lfErr (s : State) : s.setLfErr.sys.lfErr = true := by
  unfold State.setLfErr
  split
  · next h => exact h
  · rw [State.arrive_sys]
    rfl

/-- What the loss of the PLL leaves. -/
theorem State.losePll_of_runs (hr : s.coreRuns = true) :
    s.losePll.coreRuns = false ∧ s.losePll.pow.state = .run ∧ s.losePll.sys.pllErr = true ∧ s.losePll.line.plc.tx = none ∧
      s.losePll.line.pair.tx = none ∧ s.losePll.eng.tnow = s.eng.tnow := by
  have hcut : Calm s ((s.cutFrame .plc).cutFrame .pair) := calm_cutFrame _ (calm_cutFrame _ (.refl s))
  unfold State.losePll
  rw [hr, Bool.not_true, if_neg Bool.false_ne_true]
  have htx : ∀ q, (((s.cutFrame .plc).cutFrame .pair).port q).tx = none := fun q => by cases q <;> simp [State.cutFrame_tx]
  have hwait := fun q =>
    (State.portsWait_tx (s := ((s.cutFrame .plc).cutFrame .pair).updSys fun y => { y with pllErr := true }) q).trans (htx q)
  exact ⟨Bool.and_false _, hcut.state.trans (State.state_of_coreRuns hr), rfl, hwait .plc, hwait .pair, hcut.tnow⟩

theorem State.losePll_of_stopped (h : s.coreRuns = false) : s.losePll = s := by simp [State.losePll, h]

/-- What the lock of the PLL leaves: the core runs with the time made up, and source 1 arrives. -/
theorem State.relock_of_run (iv : Interval) (hs : s.pow.state = .run) (hp : s.pow.pllLock = false) :
    (s.relock iv).coreRuns = true ∧ (s.relock iv).irq.raised 1 ∧ (s.relock iv).eng.tnow = s.eng.tnow + BitVec.ofNat 64 iv.cycles := by
  have hu : s.relock iv = ((s.updPow fun p => { p with pllLock := true }).makeUp iv true).arrive 1 := by
    unfold State.relock
    rw [hs, hp]
    rfl
  have hcalm := (s.updPow fun p => { p with pllLock := true }).makeUp_calm iv true
  have hbase : ((s.updPow fun p => { p with pllLock := true }).timeMadeUp iv).coreRuns = true := by
    show (s.pow.state == .run && true) = true
    rw [hs]
    rfl
  rw [hu]
  exact ⟨(calm_arrive 1 hcalm).coreRuns.trans hbase, State.raised_arrive_self (hcalm.coreRuns.trans hbase) 1 rfl,
    (calm_arrive 1 hcalm).tnow⟩

theorem State.crystal_lfErr (h : bitOf s.pow.clkCtl 0 = true) : (s.crystal false).sys.lfErr = true := by
  unfold State.crystal
  dsimp only
  rw [h]
  exact State.setLfErr_lfErr _

theorem State.crystal_pow (on : Bool) :
    (s.crystal on).pow = { s.pow with lfxOk := on, lfAct := on && bitOf s.pow.clkCtl 0 && s.pow.state != .reset } := by
  unfold State.crystal
  dsimp only
  split
  · exact State.setLfErr_pow _
  · rfl

/-! ### What the events leave -/

/-- What a warning leaves while the core runs. -/
theorem State.supplyWarning_of_runs (hb : s.pow.below = false) (hr : s.coreRuns = true) :
    let u := s.supplyWarning
    u.pow.below = true ∧ u.irq.raised 2 ∧ (bitOf s.pow.supCtl 0 = true →
      (∀ g, (s.tq 0 3).lgasp = true → (s.tq 0 3).en = true → s.queueHead 0 3 = some g →
        u.line.gasp = if s.line.gasp.contains g then s.line.gasp else s.line.gasp ++ [g]) ∧
      ((s.tq 0 3).lgasp = false ∨ (s.tq 0 3).en = false ∨ s.queueHead 0 3 = none → u.pow.lgNone = true ∧ u.line = s.line)) := by
  dsimp only
  rw [State.supplyWarning_of_run hb (State.state_of_coreRuns hr)]
  have hraised : ((s.updPow fun p => { p with below := true }).arrive 2).irq.raised 2 := by
    refine State.raised_arrive_self ?_ 2 rfl
    exact hr
  have hpow : ((s.updPow fun p => { p with below := true }).arrive 2).pow = { s.pow with below := true } := State.arrive_pow _ _
  have hline : ((s.updPow fun p => { p with below := true }).arrive 2).line = s.line := State.arrive_line _ _
  have htq : ((s.updPow fun p => { p with below := true }).arrive 2).tq 0 3 = s.tq 0 3 := by
    rw [State.tq, State.arrive_pans]
    rfl
  have hhead : ((s.updPow fun p => { p with below := true }).arrive 2).queueHead 0 3 = s.queueHead 0 3 :=
    State.queueHead_congr (State.arrive_pans _ _) (State.arrive_mem _ _) 0 3
  generalize (s.updPow fun p => { p with below := true }).arrive 2 = v at hraised hpow hline htq hhead
  refine ⟨?_, by rwa [State.releaseGasp_irq], fun hl => ?_⟩
  · rw [(calm_releaseGasp (.refl v)).pow, hpow]
  · have hl' : bitOf v.pow.supCtl 0 = true := by rwa [hpow]
    rw [← htq, ← hhead, ← hline]
    refine ⟨fun g hg he hh => ?_, fun hn => ?_⟩
    · rw [State.releaseGasp_of_head hl' hg he hh]
      rfl
    · rw [State.releaseGasp_of_none hl' hn]
      exact ⟨rfl, rfl⟩

/-- What a warning and its end leave in reset or with the PLL out: the arrival of the warning waits, that of the end only out of reset. -/
theorem State.supplyWarning_of_stopped (hr : s.coreRuns = false) (hn : ¬(s.pow.state = .listen ∨ s.pow.state = .sleep))
    (hb : s.pow.below = false) :
    s.supplyWarning.pow.below = true ∧ s.supplyWarning.irq.deferred = s.irq.deferred ++ [2] ∧
      (s.pow.state = .reset → s.supplyWarning.line = s.line) := by
  have harr : (s.updPow fun p => { p with below := true }).arrive 2 =
      (s.updPow fun p => { p with below := true }).updIrq fun q => { q with deferred := q.deferred ++ [2] } := by
    refine State.arrive_of_stopped ?_ rfl
    exact hr
  rcases State.run_or_reset hn with h | h
  · rw [State.supplyWarning_of_run hb h, harr, State.releaseGasp_irq, (calm_releaseGasp (.refl _)).pow, h]
    exact ⟨rfl, rfl, nofun⟩
  · rw [State.supplyWarning_of_reset hb h, harr]
    exact ⟨rfl, rfl, fun _ => rfl⟩

theorem State.supplyGood_of_stopped (hr : s.coreRuns = false) (hn : ¬(s.pow.state = .listen ∨ s.pow.state = .sleep))
    (hb : s.pow.below = true) :
    s.supplyGood.pow.below = false ∧
      s.supplyGood.irq.deferred = if s.pow.state = .reset then s.irq.deferred else s.irq.deferred ++ [3] := by
  have harr : (s.updPow fun p => { p with below := false }).arrive 3 =
      (s.updPow fun p => { p with below := false }).updIrq fun q => { q with deferred := q.deferred ++ [3] } := by
    refine State.arrive_of_stopped ?_ rfl
    exact hr
  rcases State.run_or_reset hn with h | h
  · rw [State.supplyGood_of_run hb h, harr, h]
    exact ⟨rfl, rfl⟩
  · rw [State.supplyGood_of_reset hb h, h]
    exact ⟨rfl, rfl⟩

/-- What the loss of VDRV leaves. -/
theorem State.loseVdrv_settled (s : State) :
    let u := s.loseVdrv.settle
    u.line.nodrv = true ∧ u.pow.vdrvOk = false ∧ u.line.plc.tx = none ∧ bitOf u.slu.burst 0 = false ∧
      u.line.pair.tx = s.line.pair.tx ∧ (s.line.nodrv = false → s.coreRuns = true → u.irq.raised 28) := by
  have hcalm : Calm ((s.setNodrv true).updSlu fun u => { u with burst := putBit u.burst 0 false }) s.loseVdrv.settle :=
    calm_settle (calm_attemptEnd_cut .plc (.refl _))
  have htx : ∀ q, (s.loseVdrv.settle.port q).tx = if LinePort.plc = q then none else ((s.setNodrv true).port q).tx := fun q => by
    rw [State.settle_port]
    exact State.attemptEnd_cut_tx .plc q
  refine ⟨?_, ?_, htx .plc, ?_, ?_, fun hn hr => hcalm.raised 28 (State.setNodrv_raised hr hn)⟩
  · rw [hcalm.nodrv]
    exact congrArg Line.nodrv (State.setNodrv_line true)
  · rw [hcalm.pow]
    exact congrArg Power.vdrvOk (State.setNodrv_pow true)
  · rw [hcalm.burst]
    exact (bitOf_putBit _ _ _ _ (by decide)).trans (if_pos rfl)
  · exact (htx .pair).trans (congrArg (fun l => l.pair.tx) (State.setNodrv_line true))

/-! ### The statement -/

/-- Settles O59: what each event does is an equation by the power state; the arrivals and the frames that are cut are calm, so that what
was raised, TNOW and the power record stay. That NODRV and VDRVOK change together is log 49, and that the arrivals of a stopped core are kept
is log 56. -/
theorem supplyPinsAndClocks : Obligations.SupplyPinsAndClocks := by
  unfold Obligations.SupplyPinsAndClocks
  intro s
  refine ⟨?warning, ?again, ?stopped, ?good, ?still, ?rest, ?vdrvLoss, ?vdrvRestored, rfl, rfl, ?wakePin, ?tpPin, ?pllLoss, ?noPll,
    ?relock, ?crystal, ?calibrate⟩
  case warning => exact fun hb hr => ⟨_, rfl, State.supplyWarning_of_runs hb hr⟩
  case again => exact fun h => congrArg Host.Outcome.next (State.supplyWarning_of_below h)
  case stopped =>
    exact fun hr hn => ⟨fun hb => ⟨_, rfl, State.supplyWarning_of_stopped hr hn hb⟩,
      fun hb => ⟨_, rfl, State.supplyGood_of_stopped hr hn hb⟩⟩
  case good =>
    intro hb hr
    refine ⟨_, congrArg Host.Outcome.next (State.supplyGood_of_run hb (State.state_of_coreRuns hr)), ?_, ?_, State.arrive_line _ _⟩
    · rw [State.arrive_pow]
      rfl
    · refine State.raised_arrive_self ?_ 3 rfl
      exact hr
  case still => exact fun h => congrArg Host.Outcome.next (State.supplyGood_of_above h)
  case rest =>
    exact fun hr => ⟨fun hb => ⟨_, congrArg Host.Outcome.next (State.supplyWarning_of_rest hb hr), rfl, rfl, rfl⟩,
      fun hb => ⟨_, congrArg Host.Outcome.next (State.supplyGood_of_rest hb hr), rfl, rfl, rfl⟩⟩
  case vdrvLoss => exact ⟨_, rfl, s.loseVdrv_settled⟩
  case vdrvRestored =>
    exact ⟨_, rfl, State.setNodrv_line false, State.setNodrv_pow false, fun hn hr => State.setNodrv_raised hr hn⟩
  case wakePin =>
    refine fun rising => ⟨fun hr hs => ?_, fun hl hs => ?_, fun h => congrArg Host.Outcome.next (State.wakeEdge_of_ignored h)⟩
    · refine ⟨_, congrArg Host.Outcome.next (State.wakeEdge_of_selected (State.not_reset_of_coreRuns hr) hs), ?_⟩
      rw [State.latching_of_coreRuns hr, if_neg Bool.false_ne_true]
      refine ⟨State.raised_arrive_self ?_ 15 rfl, congrArg Power.req (State.arrive_pow _ _)⟩
      exact (calm_endRequest (.refl s) false).coreRuns.trans hr
    · refine ⟨_, congrArg Host.Outcome.next (State.wakeEdge_of_selected (State.not_reset_of_latching hl) hs), ?_⟩
      rw [hl, if_pos rfl]
      exact ⟨State.catchEdge_latch (by decide), rfl⟩
  case tpPin =>
    refine fun n rising => ⟨fun hr => ?_, fun hl => ?_, fun h => ?_⟩
    · refine ⟨_, congrArg Host.Outcome.next ((if_neg (State.not_reset_of_coreRuns hr)).trans
        (if_neg (ne_true_of_eq_false (State.latching_of_coreRuns hr)))), State.tpEdge_pin n rising, fun he ho => ?_⟩
      exact State.tpEdge_raised hr n (by rwa [edgeSel_eq]) ho
    · refine ⟨_, congrArg Host.Outcome.next ((if_neg (State.not_reset_of_latching hl)).trans (if_pos hl)), ?_, fun he => ?_⟩
      · split <;> simp [State.catchEdge]
      · rw [edgeSel_eq, if_pos he]
        exact State.catchEdge_latch (by omega)
    · exact ⟨_, congrArg Host.Outcome.next (if_pos h), by simp, rfl⟩
  case pllLoss => exact fun hr => ⟨_, rfl, State.losePll_of_runs hr⟩
  case noPll => exact fun h => congrArg Host.Outcome.next (State.losePll_of_stopped h)
  case relock => exact fun iv hs hp => ⟨_, rfl, State.relock_of_run iv hs hp⟩
  case crystal =>
    refine fun on => ⟨_, rfl, ?_, ?_, fun hoff h => ?_⟩
    · rw [State.crystal_pow]
    · rw [State.crystal_pow]
    · subst hoff
      exact State.crystal_lfErr h
  case calibrate => exact fun ppm => rfl

end Sys2Proof.Machine

/-! SUPPORT. The registers of a timer (chapters 16, 21 and 22), and the proof of their statement. -/

namespace Sys2Proof.Machine

open Sys2Proof.Safety

/-! ### The settings of TIMn_CTL (Table 16-1) -/

/-- The settings are bits 1 to 31: EN is none of them. -/
theorem Timer.settings_congr {x y : Timer} (h : ∀ i, 1 ≤ i → y.ctl.getLsbD i = x.ctl.getLsbD i) :
    y.srcSel = x.srcSel ∧ y.selNo = x.selNo ∧ y.edge = x.edge ∧ y.gate = x.gate ∧ y.gsel = x.gsel ∧ y.mev = x.mev ∧
      y.mrst = x.mrst ∧ y.lfRun = x.lfRun := by
  have field : ∀ lo len, 1 ≤ lo → bitsOf y.ctl lo len = bitsOf x.ctl lo len := fun lo len hlo =>
    bitsOf_congr fun i _ => h (lo + i) (by omega)
  exact ⟨field 1 3 (by decide), field 4 3 (by decide), field 7 2 (by decide), field 9 3 (by decide), field 12 3 (by decide),
    field 20 2 (by decide), h 22 (by decide), h 23 (by decide)⟩

theorem Timer.illegal_congr {x y : Timer} (h : ∀ i, 1 ≤ i → y.ctl.getLsbD i = x.ctl.getLsbD i) (n : Nat) :
    y.illegal n = x.illegal n := by
  obtain ⟨h1, h2, h3, h4, h5, h6, h7, h8⟩ := Timer.settings_congr h
  rw [Timer.illegal, h1, h2, h3, h4, h5, h6, h7, h8]
  rfl

theorem State.timForeign_congr {s u : State} (ho : ∀ k, u.timOwner k = s.timOwner k) {x y : Timer}
    (h : ∀ i, 1 ≤ i → y.ctl.getLsbD i = x.ctl.getLsbD i) (n : Fin 8) : u.timForeign n y = s.timForeign n x := by
  obtain ⟨h1, h2, -, h4, h5, -, h7, -⟩ := Timer.settings_congr h
  unfold State.timForeign
  simp only [h1, h2, h4, h5, h7, ho]

theorem getLsbD_putBit (w : Word) (b : Bool) (i : Nat) : (putBit w 0 b).getLsbD i = if i = 0 then b else w.getLsbD i := by
  by_cases hi : i < 32
  · exact (bitOf_putBit w 0 i b hi).trans (by simp only [eq_comm, bitOf])
  · rw [if_neg (by omega), BitVec.getLsbD_of_ge _ _ (by omega), BitVec.getLsbD_of_ge _ _ (by omega)]

/-- The number fields that a view renumbers are not EN. -/
theorem bitOf_renumber_zero (f : Nat → Nat) (v : Word) : bitOf (renumber f v) 0 = bitOf v 0 := by
  unfold renumber bitOf
  rw [getLsbD_putBits _ _ (by decide), if_neg (by omega), getLsbD_putBits _ _ (by decide), if_neg (by omega)]

/-! ### What the check of the shadows leaves of a timer (R589, R675) -/

/-- Of the timers, state `u` differs from `s` in the pending RELOAD and MATCH of timer `n` at most, and the timers' owners are the same. -/
structure Weeded (n : Fin 8) (s u : State) : Prop where
  self : ∃ r m, u.tim.tim[n] = { s.tim.tim[n] with reloadSh := r, mtchSh := m }
  other : ∀ k, k ≠ n → u.tim.tim[k] = s.tim.tim[k]
  owner : ∀ k, u.timOwner k = s.timOwner k

theorem Weeded.refl (n : Fin 8) (s : State) : Weeded n s s := ⟨⟨_, _, rfl⟩, fun _ _ => rfl, fun _ => rfl⟩

theorem Weeded.trans {n : Fin 8} {s t u : State} (h : Weeded n s t) (k : Weeded n t u) : Weeded n s u where
  self := by
    obtain ⟨r, m, hr⟩ := h.self
    obtain ⟨r', m', hr'⟩ := k.self
    exact ⟨r', m', by rw [hr', hr]⟩
  other j hj := (k.other j hj).trans (h.other j hj)
  owner j := (k.owner j).trans (h.owner j)

theorem State.weed_weeded (s : State) (n : Fin 8) {w : Fin 3} (hw : w ≠ 0) : Weeded n s (s.weed (.timer n w)) := by
  unfold State.weed
  split
  · exact .refl n s
  · dsimp only
    split
    · have hdrop : ∀ u : State, u.tim = s.tim → (∀ k, u.timOwner k = s.timOwner k) → Weeded n s (u.dropShadow (.timer n w)) :=
        fun u ht ho => by
          rcases (by decide : ∀ w : Fin 3, w ≠ 0 → w = 1 ∨ w = 2) w hw with rfl | rfl
          all_goals
            refine ⟨?_, fun k hk => ?_, ho⟩
            · exact ⟨_, _, (State.updTim_get n n _).trans ((if_pos rfl).trans (by rw [ht]))⟩
            · exact (State.updTim_get n k _).trans ((if_neg hk.symm).trans (by rw [ht]))
      obtain ⟨hself, hother, howner⟩ := hdrop
        (s.updSys fun y => { y with shBad := y.shBad.filter fun e => e.1 != .timer n w }) rfl fun _ => rfl
      exact ⟨hself, hother, howner⟩
    · exact ⟨⟨_, _, rfl⟩, fun _ _ => rfl, fun _ => rfl⟩

/-- A check of a timer's shadows whose CTL shadow is good leaves that. -/
theorem State.weedAll_weeded {s : State} {n : Fin 8} (h : ∀ e ∈ s.sys.shBad, e.1 ≠ .timer n 0) :
    Weeded n s (s.weedAll [.timer n 0, .timer n 1, .timer n 2]) := by
  have h0 : s.weed (.timer n 0) = s := State.weed_of_good h
  have h1 := (s.weed_weeded n (w := 1) (by decide)).trans ((s.weed (.timer n 1)).weed_weeded n (w := 2) (by decide))
  simpa only [State.weedAll, List.foldl_cons, List.foldl_nil, h0] using h1

/-- A write of TIMn_CTL has put its shadow's parity right. -/
theorem State.writing_shBad_tim (s : State) (p : Party) (n : Fin 8) :
    ∀ e ∈ (s.writing p none (.tim n 0)).sys.shBad, e.1 ≠ .timer n 0 := by
  intro e he
  unfold State.writing State.mendParity at he
  split at he
  · next h =>
    simp only [Bool.and_eq_true, List.isEmpty_iff] at h
    rw [h.2] at he
    cases he
  · have hf := (List.mem_filter.1 he).2
    intro h
    rw [h] at hf
    simp [Rg.shadow] at hf

/-! ### Writes -/

/-- The settings in global numbers, as a view writes them (R569). -/
def State.timSettings (s : State) (via : Via) (v : Word) : Word :=
  match via with | .sys => v | .win m => renumber (s.viewToGlobal m) v

theorem State.bitOf_timSettings (s : State) (via : Via) (v : Word) : bitOf (s.timSettings via v) 0 = bitOf v 0 := by
  cases via with
  | sys => rfl
  | win m => exact bitOf_renumber_zero _ v

theorem State.timCtl_eq (s : State) (n : Fin 8) (via : Via) (v : Word) : s.timCtl n via v = s.timWriteCtl n (s.timSettings via v) := by
  cases via <;> rfl

section
variable {s : State} {p : Party} {via : Via} {n g : Fin 8}

/-- A served write of a timer's word. -/
theorem leads_writeTim {c : Instr} {w : Fin 8} {v : Word} {P : State → Prop} (hs : served s p via)
    (he : exec c s = .next (s.partyWrite p via (timAt via n w.val) v)) (hr : s.regAt via (timAt via n w.val) = .tim g w)
    (hP : ∀ u : State, u.tim = ((s.writing p none (.tim g w)).writeTim p via g w v).tim → P u) : Leads c s P :=
  leads_open_write he hs hr rfl rfl (State.writeTim_keeps p via g w v (.refl false _)) fun u hu => hP u hu.tim

@[simp] theorem State.writing_tim (r : Rg) : (s.writing p none r).tim = s.tim := by rw [State.writing_eq]

/-- EN cleared and then set as it was is EN as it was. -/
theorem putBit_en (c : Word) : (if bitOf c 0 then putBit (putBit c 0 false) 0 true else putBit c 0 false) = c := by
  refine BitVec.eq_of_getLsbD_eq fun i _ => ?_
  by_cases hi : i = 0
  · subst hi
    split
    · next h => rw [getLsbD_putBit, if_pos rfl, ← h, bitOf]
    · next h => rw [getLsbD_putBit, if_pos rfl, ← Bool.eq_false_iff.2 h, bitOf]
  · split <;> simp only [getLsbD_putBit, if_neg hi]

/-- The application of allowed shadows. -/
theorem State.timApply_of_allowed {u : State} {y : Timer} (hu : s.weedAll [.timer g 0, .timer g 1, .timer g 2] = u)
    (hy : u.tim.tim[g].shadowed = y) (hf : u.timForeign g y = false) (hl : y.illegal g = false) :
    s.timApply g = u.updTim g fun _ => y := by
  unfold State.timApply
  dsimp only
  rw [hu, hy, hf, hl, if_neg Bool.false_ne_true, if_neg Bool.false_ne_true]

theorem State.writing_timOwner (r : Rg) (k : Nat) : (s.writing p none r).timOwner k = s.timOwner k := by rw [State.writing_eq]; rfl

theorem State.writing_timSettings (r : Rg) (v : Word) : (s.writing p none r).timSettings via v = s.timSettings via v := by
  rw [State.writing_eq]
  cases via <;> rfl

/-- A write of TIMn_CTL through a view writes its settings in global numbers. -/
theorem State.writeTim_ctl (r : Rg) (v : Word) :
    (s.writing p none r).writeTim p via g 0 v = (s.writing p none r).timWriteCtl g (s.timSettings via v) :=
  (State.timCtl_eq _ g via v).trans (by rw [State.writing_timSettings])

/-- A write of allowed settings to a disabled timer takes effect at once. -/
theorem State.timWriteCtl_of_disabled {c : Word} (hbad : ∀ e ∈ s.sys.shBad, e.1 ≠ .timer g 0) (hen : s.tim.tim[g].en = false)
    (hf : s.timForeign g { s.tim.tim[g] with ctl := c } = false) (hl : ({ s.tim.tim[g] with ctl := c } : Timer).illegal g = false) :
    let u := s.timWriteCtl g c
    u.tim.tim[g].ctl = c ∧ u.tim.tim[g].cnt = s.tim.tim[g].cnt ∧ ∀ k, k ≠ g → u.tim.tim[k] = s.tim.tim[k] := by
  have hw : Weeded g _ _ := State.weedAll_weeded (s := s.updTim g fun x => { x with ctlSh := some c }) hbad
  generalize hv : (s.updTim g fun x => { x with ctlSh := some c }).weedAll [.timer g 0, .timer g 1, .timer g 2] = v at hw
  obtain ⟨⟨r, m, hself⟩, hother, howner⟩ := hw
  rw [State.updTim_get, if_pos rfl] at hself
  have hctl : v.tim.tim[g].shadowed.ctl = putBit c 0 false := by
    rw [hself, ← hen]
    rfl
  have hcnt : v.tim.tim[g].shadowed.cnt = s.tim.tim[g].cnt := by rw [hself]; rfl
  have hset : ∀ i, 1 ≤ i → v.tim.tim[g].shadowed.ctl.getLsbD i = c.getLsbD i := fun i hi => by
    rw [hctl, getLsbD_putBit, if_neg (by omega)]
  have happly := State.timApply_of_allowed hv rfl
    ((State.timForeign_congr howner (x := { s.tim.tim[g] with ctl := c }) hset g).trans hf)
    ((Timer.illegal_congr (x := { s.tim.tim[g] with ctl := c }) hset g).trans hl)
  have hothers : ∀ k, k ≠ g → (v.updTim g fun _ => v.tim.tim[g].shadowed).tim.tim[k] = s.tim.tim[k] := fun k hk => by
    rw [State.updTim_get, if_neg hk.symm, hother k hk, State.updTim_get, if_neg hk.symm]
  have hput := putBit_en c
  unfold State.timWriteCtl
  dsimp only
  rw [hen, hf, hl, happly, Bool.false_and, if_neg Bool.false_ne_true, if_neg Bool.false_ne_true, Bool.or_self, Bool.not_false,
    Bool.and_true]
  split
  · next hb =>
    rw [if_pos hb] at hput
    refine ⟨?_, ?_, fun k hk => ?_⟩
    · rw [State.updTim_get, if_pos rfl, State.updTim_get, if_pos rfl, hctl, hput]
    · rw [State.updTim_get, if_pos rfl, State.updTim_get, if_pos rfl, hcnt]
    · rw [State.updTim_get, if_neg hk.symm, hothers k hk]
  · next hb =>
    rw [if_neg hb] at hput
    refine ⟨?_, ?_, hothers⟩
    · rw [State.updTim_get, if_pos rfl, hctl, hput]
    · rw [State.updTim_get, if_pos rfl, hcnt]

/-- A write that keeps a timer enabled is buffered. -/
theorem State.timWriteCtl_of_enabled {c : Word} (hen : s.tim.tim[g].en = true) (hc : bitOf c 0 = true) :
    s.timWriteCtl g c = s.updTim g fun x => { x with ctlSh := some c } := by
  unfold State.timWriteCtl
  dsimp only
  rw [hen, hc]
  rfl

/-! ### TIMn_STAT (Table 16-2) -/

theorem Timer.putOut_of_pin {x : Timer} {now : BitVec 64} (h : x.pinAt = some now) (b : Bool) : x.putOut now b = x.out := if_pos h

theorem Timer.putOut_of_no_action {x : Timer} {now : BitVec 64} (hp : x.pinAt ≠ some now) (ha : ∀ a, x.actAt = some a → a.1 ≠ now)
    (b : Bool) : x.putOut now b = b := by
  unfold Timer.putOut
  rw [if_neg hp]
  split
  · next h => exact if_neg (ha _ h)
  · rfl

/-- A capture leaves the count and the pin's settings. -/
theorem Timer.captured_frame (x : Timer) (now : BitVec 64) (trig : Nat) :
    (x.captured now trig).cnt = x.cnt ∧ (x.captured now trig).oe = x.oe ∧ (x.captured now trig).out = x.out := by
  unfold Timer.captured
  dsimp only
  repeat' split
  all_goals exact ⟨rfl, rfl, rfl⟩

/-- The first trigger of a core cycle captures. -/
theorem Timer.captured_of_first {x : Timer} {now : BitVec 64} (h : x.capAt ≠ now ∨ x.capBy = 0) (trig : Nat) :
    (x.capq.length < 4 → (x.captured now trig).capq = x.capq ++ [x.cnt] ∧ (x.captured now trig).capF = true) ∧
      (4 ≤ x.capq.length → (x.captured now trig).capq = x.capq ∧ (x.captured now trig).capOvf = true) := by
  have hc : (x.capBy != 0 && x.capAt == now && !bitOf x.capBy trig) = false := by
    rcases h with h | h <;> simp [h]
  unfold Timer.captured
  dsimp only
  rw [hc, if_neg Bool.false_ne_true]
  refine ⟨fun hl => ?_, fun hl => ?_⟩
  · rw [if_pos hl]
    exact ⟨rfl, rfl⟩
  · rw [if_neg (by omega)]
    exact ⟨rfl, rfl⟩

/-- Timer `x` after its TIMn_STAT was written at `now`, before a CAPNOW in the write. -/
def Timer.statWritten (x : Timer) (now : BitVec 64) (v : Word) : Timer :=
  { x with oe := bitOf v 0, out := x.putOut now (bitOf v 1), sel := BitVec.ofNat 8 (bitsOf v 4 8)
           capOvf := x.capOvf && !bitOf v 19, wrapF := x.wrapF && !bitOf v 20, matchF := x.matchF && !bitOf v 21
           capF := x.capF && !bitOf v 22, cfgErr := x.cfgErr && !bitOf v 26, mkup := x.mkup && !bitOf v 27 }

theorem State.timPutStat_of_capnow {v : Word} (h : bitOf v 12 = true) :
    (s.timPutStat g v).tim.tim[g] = (s.tim.tim[g].statWritten s.eng.tnow v).captured s.eng.tnow trigNow := by
  unfold State.timPutStat
  dsimp only
  rw [if_pos h, State.timCapture_get, if_pos rfl, State.updTim_get, if_pos rfl]
  rfl

/-! ### Reads -/

@[simp] theorem accessState_tim : (accessState s p).tim = s.tim := by cases p <;> rfl

theorem State.regValue_tim (w : Fin 8) : s.regValue p via (.tim g w) = s.timWord p via g w := by
  have h : s.regValue p via (.tim g w) = 0#32 ||| s.timWord p via g w ||| 0#32 := by cases via <;> rfl
  rw [h, BitVec.or_zero, BitVec.zero_or]

theorem State.regValue_capq : s.regValue p via (.capq g false) = (s.tim.tim[g].capq.headD 0).setWidth 32 := by
  have h : s.regValue p via (.capq g false) = 0#32 ||| (s.tim.tim[g].capq.headD 0).setWidth 32 ||| 0#32 := by cases via <;> rfl
  rw [h, BitVec.or_zero, BitVec.zero_or]

theorem accessState_timPair (r : TimPair) : (accessState s p).timPair g r = s.timPair g r := by
  cases r <;> simp only [State.timPair, accessState_tim]

/-- The high 16 bits of a 48-bit count. -/
theorem toNat_high (c : BitVec 48) : (c.extractLsb' 32 16).toNat = c.toNat / 2 ^ 32 := by
  have h := c.isLt
  rw [BitVec.extractLsb'_toNat, Nat.shiftRight_eq_div_pow]
  omega

/-- The number of a pair's low register among a timer's words. -/
def loWord : TimPair → Fin 8
  | .cnt => 2
  | .reload => 4
  | .mtch => 6

theorem State.timWord_lo (r : TimPair) : s.timWord p via g (loWord r) = (s.timPair g r).setWidth 32 := by cases r <;> rfl

theorem State.readEffect_lo (r : TimPair) :
    s.readEffect p (.tim g (loWord r)) = s.updLatch p g fun y => y.put r ((s.timPair g r).extractLsb' 32 16) := by cases r <;> rfl

theorem TimLatch.get_put (l : TimLatch) (r : TimPair) (v : BitVec 16) : (l.put r v).get r = v := by cases r <;> rfl

theorem State.updLatch_get_self (f : TimLatch → TimLatch) : (s.updLatch p g f).tim.latch[p.ix][g] = f s.tim.latch[p.ix][g] := by
  simp [State.updLatch]

end

/-! ### The statement -/

/-- Settles O34: a served access has the effect of its register on the timer it names; the application of a timer's shadows leaves what
was written, and a capture leaves the count and the pin. That the two share a core cycle when TNOW is the same is log 81. -/
theorem timerRegisters : Obligations.TimerRegisters := by
  unfold Obligations.TimerRegisters
  intro s p via n g v hs
  refine ⟨?atOnce, ?buffered, ?count, ?loRead, ?capnow, ?capqRead⟩
  case atOnce =>
    intro hr hen hf hl
    refine leads_writeTim (w := 0) hs rfl hr fun u hu => ?_
    have h := State.timWriteCtl_of_disabled (s := s.writing p none (.tim g 0)) (c := s.timSettings via v)
      (s.writing_shBad_tim p g) (by rwa [State.writing_tim])
      (by rw [State.writing_tim]; exact (State.timForeign_congr (State.writing_timOwner _) (fun _ _ => rfl) g).trans hf)
      (by rwa [State.writing_tim])
    rw [State.writing_tim] at h
    dsimp only
    rw [hu, State.writeTim_ctl]
    exact h
  case buffered =>
    intro hr hen hv
    refine leads_writeTim (w := 0) hs rfl hr fun u hu => ?_
    dsimp only
    rw [hu, State.writeTim_ctl, State.timWriteCtl_of_enabled (by rwa [State.writing_tim]) ((s.bitOf_timSettings via v).trans hv)]
    refine ⟨?_, fun k hk => ?_⟩
    · rw [State.updTim_get, if_pos rfl, State.writing_tim]
      rfl
    · rw [State.updTim_get, if_neg hk.symm, State.writing_tim]
  case count =>
    intro hr
    refine leads_writeTim (w := 2) hs rfl hr fun u hu => ?_
    have hput := State.updTim_get (s := s.writing p none (.tim g 2)) g
    rw [State.writing_tim] at hput
    dsimp only
    rw [hu]
    refine ⟨?_, fun k hk => ?_⟩
    · refine (hput g _).trans ((if_pos rfl).trans ?_)
      rw [State.writing_tim]
      rfl
    · exact (hput k _).trans (if_neg hk.symm)
  case loRead =>
    rintro r w hw hr
    have hwr : w = loWord r := by rw [hw]; cases r <;> rfl
    subst hwr
    refine leads_read (o := timAt via n (loWord r).val) (by cases r <;> rfl) hs hr rfl (fun _ => nofun) fun u hu => ?_
    have hout : u.out = (s.timPair g r).setWidth 32 := by
      rw [hu.out, ← accessState_timPair (p := p), ← State.timWord_lo (p := p) (via := via), ← State.regValue_tim]
      rfl
    have htim : u.tim = (s.updLatch p g fun y => y.put r ((s.timPair g r).extractLsb' 32 16)).tim := by
      rw [hu.tim, State.readEffect_lo, accessState_timPair]
      simp only [State.ret, State.updLatch, accessState_tim]
    refine ⟨?_, ?_, ?_⟩
    · rw [hout, BitVec.toNat_setWidth]
    · rw [htim]
      rfl
    · rw [htim, State.updLatch_get_self, TimLatch.get_put, toNat_high]
  case capnow =>
    intro hr hv
    refine leads_writeTim (w := 1) hs rfl hr fun u hu => ?_
    have hput := State.timPutStat_of_capnow (s := s.writing p none (.tim g 1)) (g := g) hv
    rw [State.writing_tim, State.writing_eng] at hput
    have hug : u.tim.tim[g] = (s.tim.tim[g].statWritten s.eng.tnow v).captured s.eng.tnow trigNow := by
      rw [hu]
      exact hput
    obtain ⟨hcnt, hoe, hout⟩ := (s.tim.tim[g].statWritten s.eng.tnow v).captured_frame s.eng.tnow trigNow
    have hfirst := @Timer.captured_of_first (s.tim.tim[g].statWritten s.eng.tnow v) s.eng.tnow
    rw [hug]
    exact ⟨hcnt, hoe, fun hp => hout.trans (Timer.putOut_of_pin hp _), fun hp ha => hout.trans (Timer.putOut_of_no_action hp ha _),
      fun hc => (hfirst hc trigNow).1, fun hc => (hfirst hc trigNow).2⟩
  case capqRead =>
    intro hr
    refine leads_read rfl hs hr rfl (fun _ => nofun) fun u hu => ?_
    have hout : u.out = (s.tim.tim[g].capq.headD 0).setWidth 32 := by
      rw [← accessState_tim (p := p), ← State.regValue_capq (p := p) (via := via)]
      exact hu.out
    have htim : u.tim = ((s.updTim g fun x => { x with capq := x.capq.drop 1 }).updLatch p g fun y =>
        { y with capq := (s.tim.tim[g].capq.headD 0).extractLsb' 32 16 }).tim := by
      rw [hu.tim]
      show ((accessState s p).capqRead p g).2.tim = _
      simp only [State.capqRead, State.updLatch, State.updTim_tim, accessState_tim]
    have hlatch : u.tim.latch[p.ix][g].capq = (s.tim.tim[g].capq.headD 0).extractLsb' 32 16 := by
      rw [htim, State.updLatch_get_self]
    dsimp only
    refine ⟨?_, ?_, ?_, fun k hk => ?_⟩
    · rw [htim]
      exact congrArg Timer.capq ((State.updTim_get g g _).trans (if_pos rfl))
    · rw [hout, BitVec.toNat_setWidth]
    · rw [hlatch, toNat_high]
    · rw [htim]
      exact (State.updTim_get g k _).trans (if_neg hk.symm)

end Sys2Proof.Machine

/-! SUPPORT. The transactions of a host port (chapter 18), and the proof of their statement. -/

namespace Sys2Proof.Machine

open Sys2Proof.Safety

/-! ### A transaction from its CS_N fall to its end (R634) -/

section
variable {s : State} {x : Xfer} {c : Instr} {P : State → Prop}

/-- What a transaction with a code leaves in its port's record. -/
theorem endTx_refused {u : State} (hu : u.sys.swPend = false) (h : HostPort) (st : Byte) {code : Nat} (hc : code ≠ 0) (ws : List Word) :
    (u.endTx h st (code, ws)).host[h.ix].last = BitVec.ofNat 5 code ∧
      (u.endTx h st (code, ws)).host[h.ix].errCnt = satInc8 u.host[h.ix].errCnt ∧
      u.endTx h st (code, ws) = { u with host := (u.endTx h st (code, ws)).host } := by
  have he : u.endTx h st (code, ws) = u.updHost h fun y =>
      { last := BitVec.ofNat 5 code, errCnt := if code = 0 then y.errCnt else satInc8 y.errCnt, status := st, resp := ws, tx := none,
        held := [] } := if_neg (ne_true_of_eq_false hu)
  rw [he]
  refine ⟨?_, ?_, rfl⟩
  · simp [State.updHost]
  · simp [State.updHost, hc]

/-- A transaction that is served and ends with LAST OK. -/
theorem leads_transact {w : Bool} {f : State → Served} {ws : List Word} {v : State} (hp : plain s x)
    (he : exec c s = .next (s.transact x w lcOk f)) (hf : f (s.endRequest false) = (lcOk, ws, v)) (hw : v.sys.swPend = false)
    (hP : ∀ u : State, u.host[x.port.ix].resp = ws → LikeState u v → P u) :
    Leads c s fun u => u.host[x.port.ix].last = 0 ∧ P u := by
  rw [transact_of_plain s x w f hp, hf] at he
  obtain ⟨hlast, hresp⟩ := endTx_host hw x.port (s.statusByte x.port false) ws
  exact ⟨_, he, hlast, hP _ hresp (likeState_endTx _ _ _ _ hw)⟩

/-- A transaction that is refused changes its port's record alone, and ends a request. -/
theorem leads_refused {w : Bool} {form code : Nat} {f : State → Served} {last : BitVec 5} (hv : s.pow.vioOk = true)
    (hw : s.sys.swPend = false) (ht : s.host[x.port.ix].tx = none) (he : exec c s = .next (s.transact x w form f))
    (hc : (s.endRequest false).refuseCode x w form = code) (h0 : code ≠ 0) (hl : last = BitVec.ofNat 5 code) :
    Leads c s fun u => u.host[x.port.ix].last = last ∧ u.host[x.port.ix].errCnt = satInc8 s.host[x.port.ix].errCnt ∧
      u = { s with host := u.host, pow := u.pow } ∧ u.pow = { s.pow with req := none } := by
  have hu : s.transact x w form f = (s.endRequest false).endTx x.port (s.statusByte x.port x.busy) (code, []) := by
    unfold State.transact
    rw [hv, Bool.not_true, if_neg Bool.false_ne_true, closePort_none s x.port ht]
    dsimp only
    rw [hc, if_pos h0]
  obtain ⟨hlast, herr, heq⟩ := endTx_refused (u := s.endRequest false) hw x.port (s.statusByte x.port x.busy) h0 []
  rw [hu] at he
  generalize (s.endRequest false).endTx x.port (s.statusByte x.port x.busy) (code, []) = u at he hlast herr heq
  refine ⟨u, he, hlast.trans hl.symm, herr, ?_, ?_⟩
  · rw [heq]
    rfl
  · rw [heq]
    rfl

/-- Without VIO the port ignores its pins (R770). -/
theorem State.transact_of_no_vio (h : s.pow.vioOk = false) (w : Bool) (form : Nat) (f : State → Served) : s.transact x w form f = s := by
  simp [State.transact, h]

end

/-! ### The codes of a refusal -/

theorem joinCode_notRdy (b : Nat) : joinCode lcNotRdy b = lcNotRdy := by
  unfold joinCode lcNotRdy
  split
  · contradiction
  · split <;> omega

theorem State.refuseCode_of_not_serving {s : State} (h : s.serves = false) (x : Xfer) (w : Bool) (form : Nat) :
    (s.endRequest false).refuseCode x w form = lcNotRdy := by
  have hs : (s.endRequest false).serves = false := h
  unfold State.refuseCode
  rw [hs, if_neg Bool.false_ne_true]
  exact joinCode_notRdy _

/-- A plain transaction is refused by no check of its form. -/
theorem State.refuseCode_of_plain {s : State} {x : Xfer} (hp : plain s x) (w : Bool) :
    (s.endRequest false).refuseCode x w lcOk = lcOk := by
  obtain ⟨-, -, hs, hb, hc, hr, he, -⟩ := hp
  have h1 : (s.endRequest false).serves = true := hs
  cases w <;> simp [State.refuseCode, h1, hb, hc, hr, he, joinCode, lcOk]

/-- A plain FETCH or READ_BURST from its CS_N fall, when it brings a word or stays open. -/
theorem State.readTx_of_plain {s : State} {x : Xfer} (hp : plain s x) {k : Nat} {take more : Bool} (hk : ¬(k = 0 ∧ more = false))
    (start : State → OpenTx × State) :
    s.readTx x lcOk k take more start =
      ((start (s.endRequest false)).2.updHost x.port fun y => { y with status := s.statusByte x.port false, held := [] }).moreWords x
        (start (s.endRequest false)).1 [] k take more := by
  obtain ⟨-, hv, -, hbusy, -, -, -, ht⟩ := id hp
  have hk' : ¬((k = 0 && !more) = true) := by simpa using hk
  unfold State.readTx
  rw [hv, Bool.not_true, if_neg Bool.false_ne_true, closePort_none s x.port ht]
  dsimp only
  rw [State.refuseCode_of_plain hp, if_neg (by decide), hbusy]
  exact if_neg hk'

/-! ### Scratch RAM -/

theorem hostPlace_scratch {a : Nat} (hlo : 0x50000 ≤ a) (hhi : a < 0x54000) : hostPlace a = .scratch := by
  unfold hostPlace
  repeat rw [if_neg (by omega)]
  rw [if_pos hhi]

theorem alignCode_of_aligned {a : BitVec 24} (h : a.toNat % 4 = 0) : alignCode a = lcOk := if_pos h

section
variable {s : State} {h : HostPort} {a : Nat}

theorem State.readAs_scratch (hlo : 0x50000 ≤ a) (hhi : a < 0x54000) (pans : List (Fin 4)) (burst : Bool) :
    s.readAs .yes pans h burst a = (lcOk, memWord s.mem a, s) := by
  unfold State.readAs
  rw [hostPlace_scratch hlo hhi]

theorem State.hostWriteWord_scratch {s0 : State} (hr : s0.hostRight h a = .yes) (hlo : 0x50000 ≤ a) (hhi : a < 0x54000) (burst : Bool)
    (v : Word) : s0.hostWriteWord h burst s a v = (lcOk, { s with mem := memPutWord s.mem a v }) := by
  unfold State.hostWriteWord
  rw [hr, hostPlace_scratch hlo hhi]

/-- The words of a burst are read one by one. -/
theorem State.burstPart_scratch (n : Nat) (b : OpenBurst) (hlo : 0x50000 ≤ b.next) (hhi : b.next + 4 * n ≤ 0x54000)
    (hr : ∀ k, k < n → b.rights[k]? = some .yes) :
    s.burstPart h b n = ((List.range n).map (fun k => memWord s.mem (b.next + 4 * k)),
      { b with next := b.next + 4 * n, rights := b.rights.drop n }, s) := by
  induction n generalizing b with
  | zero => rfl
  | succ n ih =>
    have h0 := hr 0 (Nat.succ_pos n)
    cases hb : b.rights with
    | nil => simp [hb] at h0
    | cons r rs =>
      obtain rfl : r = .yes := by simpa [hb] using h0
      have hcode : joinCode b.code lcOk = b.code := by
        unfold joinCode
        split
        · next hz => exact hz.symm
        · rfl
      have hrest := ih { b with next := b.next + 4, rights := rs } (by dsimp only; omega) (by dsimp only; omega) fun k hk => by
        simpa [hb] using hr (k + 1) (by omega)
      have hword : ∀ k, b.next + 4 + 4 * k = b.next + 4 * (k + 1) := fun k => by omega
      rw [State.burstPart, hb]
      dsimp only
      rw [State.readAs_scratch hlo (by omega), hcode, hrest, List.range_succ_eq_map, List.map_cons, List.map_map]
      simp only [hword, Function.comp_def, Nat.succ_eq_add_one, List.drop_succ_cons, Nat.mul_zero, Nat.add_zero]

/-- The words of `vs` stored from address `a` on. -/
def memPutWords (m : List Host.Cell) (a : Nat) : List Word → List Host.Cell
  | [] => m
  | v :: vs => memPutWords (memPutWord m a v) (a + 4) vs

theorem memWord_memPutWords_below (vs : List Word) {m : List Host.Cell} {a b : Nat} (hb : b + 4 ≤ a) :
    memWord (memPutWords m a vs) b = memWord m b := by
  induction vs generalizing m a with
  | nil => rfl
  | cons v vs ih => exact (ih (by omega)).trans (memWord_memPutWord_of_ne m a b v (.inl hb))

theorem memWord_memPutWords (vs : List Word) {m : List Host.Cell} {a k : Nat} {v : Word} (hk : vs[k]? = some v) :
    memWord (memPutWords m a vs) (a + 4 * k) = v := by
  induction vs generalizing m a k with
  | nil => simp at hk
  | cons w vs ih =>
    cases k with
    | zero =>
      obtain rfl : w = v := by simpa using hk
      exact (memWord_memPutWords_below vs (by omega)).trans (memWord_memPutWord m a w)
    | succ k =>
      have h := ih (m := memPutWord m a w) (a := a + 4) (k := k) (by simpa using hk)
      rwa [show a + 4 + 4 * k = a + 4 * (k + 1) by omega] at h

/-- The words of a burst are stored one by one. -/
theorem State.hostWrites_scratch {s0 : State} (vs : List Word) (hlo : 0x50000 ≤ a) (hhi : a + 4 * vs.length ≤ 0x54000)
    (hr : ∀ k, k < vs.length → s0.hostRight h (a + 4 * k) = .yes) :
    s0.hostWrites h a vs s = (lcOk, [], { s with mem := memPutWords s.mem a vs }) := by
  induction vs generalizing a s with
  | nil => rfl
  | cons v vs ih =>
    rw [List.length_cons] at hhi
    have h0 : s0.hostRight h a = .yes := hr 0 (Nat.succ_pos _)
    have hrest := ih (a := a + 4) (s := { s with mem := memPutWord s.mem a v }) (by omega) (by omega) fun k hk => by
      have := hr (k + 1) (by rw [List.length_cons]; omega)
      rwa [show a + 4 * (k + 1) = a + 4 + 4 * k by omega] at this
    rw [State.hostWrites, State.hostWriteWord_scratch h0 hlo (by omega), hrest]
    rfl

end

/-! ### A READ_BURST in parts (R630, R637) -/

theorem tabUpd_tabUpd {α : Type} {n : Nat} (t : Tab α n) (i : Fin n) (f g : α → α) :
    tabUpd (tabUpd t i f) i g = tabUpd t i fun y => g (f y) := by
  simp [tabUpd]

section
variable {s : State} {x : Xfer} {a : BitVec 24}

theorem State.updHost_updHost (h : HostPort) (f g : HostState → HostState) :
    (s.updHost h f).updHost h g = s.updHost h fun y => g (f y) :=
  congrArg (fun t => { s with host := t }) (tabUpd_tabUpd s.host h.ix f g)

/-- The end of a served transaction. -/
theorem endTx_served {u : State} (hu : u.sys.swPend = false) (h : HostPort) (st : Byte) (ws : List Word) :
    u.endTx h st (lcOk, ws) = u.updHost h fun y =>
      { last := 0, errCnt := y.errCnt, status := st, resp := ws, tx := none, held := [] } :=
  if_neg (ne_true_of_eq_false hu)

/-- The end of a READ_BURST or FETCH that ends OK and holds no delivery. -/
theorem State.closeTx_of_ok {h : HostPort} {o : OpenTx} (he : s.openEnd h o = (lcOk, s)) (hsw : s.sys.swPend = false) (ws : List Word) :
    s.closeTx h o ws lcOk = s.updHost h fun y =>
      { last := 0, errCnt := y.errCnt, status := s.host[h.ix].status, resp := ws, tx := none, held := [] } := by
  unfold State.closeTx
  rw [he]
  exact endTx_served hsw h _ ws

theorem State.openEnd_burst {h : HostPort} {b : OpenBurst} (hb : b.code = lcOk) (hheld : s.host[h.ix].held = []) :
    s.openEnd h (.burst b) = (lcOk, s) := by
  unfold State.openEnd
  rw [hheld]
  exact congrArg (·, s) hb

theorem State.openEnd_fetch {h : HostPort} {f : OpenFetch} (hc : f.code = lcOk) (ht : f.taken = true) (hheld : s.host[h.ix].held = []) :
    s.openEnd h (.fetch f) = (lcOk, s) := by
  unfold State.openEnd State.fetchEnd
  rw [hheld]
  dsimp only
  rw [if_neg (by simp [hc]), if_pos ht]
  rfl

/-- The port's record while its READ_BURST is open: its status byte taken, no delivery held. -/
def State.opened (s : State) (x : Xfer) (tx : Option OpenTx) (ws : List Word) : State :=
  (s.endRequest false).updHost x.port fun y =>
    { y with status := s.statusByte x.port false, held := [], tx := tx, resp := ws }

/-- The first `k` words from address `a`. -/
def State.words (s : State) (a k : Nat) : List Word := (List.range k).map fun j => memWord s.mem (a + 4 * j)

theorem State.words_add (a k m : Nat) :
    s.words a k ++ (List.range m).map (fun j => memWord s.mem (a + 4 * k + 4 * j)) = s.words a (k + m) := by
  have hj : ∀ j, a + 4 * k + 4 * j = a + 4 * (k + j) := fun j => by omega
  simp only [State.words, List.range_add, List.map_append, List.map_map, Function.comp_def, hj]

/-- The read that is open at address `a` after its first `k` words. -/
def State.burstAt (s : State) (h : HostPort) (a k : Nat) : OpenBurst :=
  { s.burstOpen h a with next := a + 4 * k, rights := (s.burstOpen h a).rights.drop k }

theorem State.burstAt_zero (h : HostPort) (a : Nat) : s.burstAt h a 0 = s.burstOpen h a := rfl

/-- What a READ_BURST of `n` words leaves. -/
def State.burstDone (s : State) (x : Xfer) (a n : Nat) : State :=
  (s.endRequest false).updHost x.port fun y =>
    { last := 0, errCnt := y.errCnt, status := s.statusByte x.port false, resp := s.words a n, tx := none, held := [] }

/-- A plain burst of `n` words at `a`, in scratch RAM that the port may reach. -/
structure ScratchBurst (s : State) (x : Xfer) (a : BitVec 24) (n : Nat) : Prop where
  plain : plain s x
  most : n ≤ 64
  aligned : a.toNat % 4 = 0
  lo : 0x50000 ≤ a.toNat
  hi : a.toNat + 4 * n ≤ 0x54000
  right : ∀ k, k < n → s.hostRight x.port (a.toNat + 4 * k) = .yes

variable {n k m : Nat} (hb : ScratchBurst s x a n)
include hb

/-- The next `m` words of the burst after its first `k`, whatever the port's record. -/
theorem ScratchBurst.next (hn : k + m ≤ n) (f : HostState → HostState) (take : Bool) :
    ((s.endRequest false).updHost x.port f).openPart x.port (.burst ((s.endRequest false).burstAt x.port a.toNat k)) m take =
      ((List.range m).map (fun j => memWord s.mem (a.toNat + 4 * k + 4 * j)),
        .burst ((s.endRequest false).burstAt x.port a.toNat (k + m)), (s.endRequest false).updHost x.port f) := by
  have hright : ∀ j, j < m → ((s.endRequest false).burstAt x.port a.toNat k).rights[j]? = some .yes := fun j hj => by
    have h64 : k + j < 64 := by have := hb.most; omega
    have hr : (s.endRequest false).hostRight x.port (a.toNat + 4 * (k + j)) = .yes := hb.right (k + j) (by omega)
    simp [State.burstAt, State.burstOpen, h64, hr]
  have hlo := hb.lo
  have hhi := hb.hi
  unfold State.openPart
  dsimp only
  rw [State.burstPart_scratch m _ (by simp only [State.burstAt]; omega) (by simp only [State.burstAt]; omega) hright]
  simp only [State.burstAt, List.drop_drop, Nat.mul_add, Nat.add_assoc]
  rfl

/-- A READ_BURST from its CS_N fall, when it brings a word or stays open. -/
theorem ScratchBurst.readTx {more : Bool} (hk : ¬(k = 0 ∧ more = false)) :
    exec (.hostReadBurst x a ⟨k, more⟩) s = .next (((s.endRequest false).updHost x.port fun y =>
      { y with status := s.statusByte x.port false, held := [] }).moreWords x
        (.burst ((s.endRequest false).burstAt x.port a.toNat 0)) [] k false more) := by
  obtain ⟨-, -, -, -, -, -, -, ht⟩ := hb.plain
  have hexec : exec (.hostReadBurst x a ⟨k, more⟩) s =
      .next (s.readTx x (alignCode a) k false more fun s => (.burst (s.burstOpen x.port a.toNat), s)) := by
    show execHostReadBurst x a ⟨k, more⟩ s = _
    unfold execHostReadBurst
    rw [ht]
  rw [hexec, alignCode_of_aligned hb.aligned, State.readTx_of_plain hb.plain hk]
  rfl

/-- The first `k` words, with CS_N held low after them. -/
theorem ScratchBurst.first (hk : k ≤ n) : exec (.hostReadBurst x a ⟨k, true⟩) s =
    .next (s.opened x (some (.burst ((s.endRequest false).burstAt x.port a.toNat k))) (s.words a.toNat k)) := by
  rw [hb.readTx (by simp), State.moreWords, hb.next (by omega)]
  dsimp only
  rw [if_pos rfl, State.updHost_updHost, Nat.zero_add]
  rfl

/-- The words that end a READ_BURST, after `k` words in a state `u` that differs from the first in the port's record alone. -/
theorem ScratchBurst.last {f : HostState → HostState} (hn : k + m = n)
    (hf : ∀ y, (f y).held = [] ∧ (f y).status = s.statusByte x.port false ∧ (f y).errCnt = y.errCnt) :
    ((s.endRequest false).updHost x.port f).moreWords x (.burst ((s.endRequest false).burstAt x.port a.toNat k)) (s.words a.toNat k) m
      false false = s.burstDone x a.toNat n := by
  obtain ⟨hsw, -, -, -, hc, -, -, -⟩ := hb.plain
  have hhost : ((s.endRequest false).updHost x.port f).host[x.port.ix] = f s.host[x.port.ix] :=
    tabUpd_get_self s.host x.port.ix f
  obtain ⟨hheld, hstatus, -⟩ := hf s.host[x.port.ix]
  have hend : ((s.endRequest false).updHost x.port f).openEnd x.port (.burst ((s.endRequest false).burstAt x.port a.toNat n)) =
      (lcOk, (s.endRequest false).updHost x.port f) := State.openEnd_burst rfl (by rw [hhost, hheld])
  have hclose := State.closeTx_of_ok hend hsw (s.words a.toNat n)
  rw [State.moreWords, hb.next hn.le]
  dsimp only
  rw [if_neg Bool.false_ne_true, hc, if_pos rfl, State.words_add, hn, hclose, State.updHost_updHost, hhost, hstatus]
  exact congrArg (State.updHost _ x.port) (funext fun y => by rw [(hf y).2.2])

/-- The other words, to the CS_N rise. -/
theorem ScratchBurst.rest (hn : k + m = n) : exec (.hostReadBurst x a ⟨m, false⟩)
    (s.opened x (some (.burst ((s.endRequest false).burstAt x.port a.toNat k))) (s.words a.toNat k)) =
      .next (s.burstDone x a.toNat n) := by
  have hopen : (s.opened x (some (.burst ((s.endRequest false).burstAt x.port a.toNat k))) (s.words a.toNat k)).host[x.port.ix] =
      { s.host[x.port.ix] with status := s.statusByte x.port false, held := []
                               tx := some (.burst ((s.endRequest false).burstAt x.port a.toNat k)), resp := s.words a.toNat k } :=
    tabUpd_get_self s.host x.port.ix _
  show execHostReadBurst x a ⟨m, false⟩ _ = _
  unfold execHostReadBurst
  rw [hopen]
  exact congrArg Host.Outcome.next (hb.last hn fun y => ⟨rfl, rfl, rfl⟩)

/-- All words in one transaction. -/
theorem ScratchBurst.whole (hn : 1 ≤ n) : exec (.hostReadBurst x a ⟨n, false⟩) s = .next (s.burstDone x a.toNat n) := by
  rw [hb.readTx (by omega)]
  exact congrArg Host.Outcome.next (hb.last (k := 0) (Nat.zero_add n) fun y => ⟨rfl, rfl, rfl⟩)

end

/-! ### Words of scratch RAM (R629, R630) -/

section
variable {s : State} {x : Xfer} {a : BitVec 24} {v : Word} (hp : plain s x) (hr : s.hostRight x.port a.toNat = .yes)
  (h4 : a.toNat % 4 = 0) (hlo : 0x50000 ≤ a.toNat) (hhi : a.toNat < 0x54000)
include hp hr h4 hlo hhi

theorem leads_hostRead : Leads (.hostRead x a) s fun u => u.host[x.port.ix].last = 0 ∧
    u.host[x.port.ix].resp = [memWord s.mem a.toNat] ∧ u.mem = s.mem := by
  have hr' : (s.endRequest false).hostRight x.port a.toNat = .yes := hr
  have he : exec (.hostRead x a) s = .next (s.transact x false lcOk fun s => oneWord (s.hostReadWord x.port s a.toNat)) := by
    rw [← alignCode_of_aligned h4]
    rfl
  refine leads_transact (ws := [memWord s.mem a.toNat]) (v := s.endRequest false) hp he ?_ hp.1 fun u hresp hu => ⟨hresp, hu.mem⟩
  rw [State.hostReadWord, hr', State.readAs_scratch hlo hhi]
  rfl

theorem leads_hostWrite : Leads (.hostWrite x a v) s fun u => u.host[x.port.ix].last = 0 ∧
    (∀ k, k < 4 → memGet u.mem (a.toNat + k) = v.extractLsb' (8 * k) 8) ∧
    (∀ b, b < a.toNat ∨ a.toNat + 4 ≤ b → memGet u.mem b = memGet s.mem b) ∧ u.eng = s.eng ∧ u.pans = s.pans := by
  have hr' : (s.endRequest false).hostRight x.port a.toNat = .yes := hr
  have he : exec (.hostWrite x a v) s = .next (s.transact x true lcOk fun s =>
      ((s.hostWriteWord x.port false s a.toNat v).1, [], (s.hostWriteWord x.port false s a.toNat v).2)) := by
    rw [← alignCode_of_aligned h4]
    rfl
  refine leads_transact (ws := []) (v := { s.endRequest false with mem := memPutWord s.mem a.toNat v }) hp he ?_ hp.1 fun u _ hu =>
    ⟨fun k hk => ?_, fun b hb => ?_, hu.eng, hu.pans⟩
  · rw [State.hostWriteWord_scratch hr' hlo hhi]
    rfl
  · rw [hu.mem]
    exact memGet_memPutWord s.mem a.toNat v hk
  · rw [hu.mem]
    exact memGet_memPutWord_of_ne s.mem a.toNat b v hb

end

/-- A WRITE_BURST in scratch RAM. -/
theorem leads_hostWriteBurst {s : State} {x : Xfer} {a : BitVec 24} {vs : List Word} (hb : ScratchBurst s x a vs.length)
    (h1 : 1 ≤ vs.length) : Leads (.hostWriteBurst x a vs) s fun u => u.host[x.port.ix].last = 0 ∧
      ∀ (k : Nat) (v : Word), vs[k]? = some v → memWord u.mem (a.toNat + 4 * k) = v := by
  have hwords : wordsCode vs = lcOk := by
    have hw : wordsWf vs.length = true := by simp [wordsWf, h1, hb.most]
    exact if_pos hw
  have he : exec (.hostWriteBurst x a vs) s = .next (s.transact x true lcOk fun s => s.hostWrites x.port a.toNat vs s) := by
    have hc : joinCode (alignCode a) (wordsCode vs) = lcOk := by rw [alignCode_of_aligned hb.aligned, hwords]; rfl
    rw [← hc]
    rfl
  refine leads_transact (ws := []) (v := { s.endRequest false with mem := memPutWords s.mem a.toNat vs }) hb.plain he ?_ hb.plain.1
    fun u _ hu k v hk => ?_
  · exact State.hostWrites_scratch vs hb.lo hb.hi hb.right
  · rw [hu.mem]
    exact memWord_memPutWords vs hk

/-! ### STATUS (R641) -/

theorem State.hostStatus_of_plain {s : State} {x : Xfer} (hp : plain s x) :
    s.hostStatus x = (s.endRequest false).updHost x.port fun _ =>
      { last := 0, errCnt := 0, status := s.statusByte x.port false, resp := [(s.endRequest false).statusWord x.port], tx := none
        held := [] } := by
  obtain ⟨hsw, hv, -, hb, hc, hr, he, ht⟩ := hp
  unfold State.hostStatus
  rw [hv, Bool.not_true, if_neg Bool.false_ne_true, closePort_none s x.port ht, hb, hc, hr, he]
  dsimp only
  rw [if_neg Bool.false_ne_true, Bool.not_true, Bool.and_false, if_neg Bool.false_ne_true, if_neg (by decide),
    if_pos rfl, endTx_served (u := (s.endRequest false).updHost _ _) hsw, State.updHost_updHost]

/-! ### The stream addresses of a queue (R348, R349, R352) -/

section
variable {s : State} {x : Xfer} {a : BitVec 24} {n q : Fin 4}

theorem hostPlace_tq {b w : Nat} (hw : w < 8) (hb : b = 0x1000 + 0x1000 * n.val + tqAt q w) : hostPlace b = .reg (.win n) (tqAt q w) := by
  have hn := n.isLt
  have hq := q.isLt
  have ht : tqAt q w < 0x180 := by unfold tqAt; omega
  have hdiv : b / 0x1000 - 1 = n.val := by omega
  have hmod : b % 0x1000 = tqAt q w := by omega
  unfold hostPlace
  rw [if_neg (by omega), if_pos (by omega), hdiv, hmod, idx, Fin.ofNat_val_eq_self]

/-- A port that reaches a window reaches each of its registers. -/
theorem State.hostRight_win {h : HostPort} {b o : Nat} (hs : s.viaRight h (.win n) = .yes) (hb : hostPlace b = .reg (.win n) o) :
    s.hostRight h b = .yes := by
  have hbase : hostPlace (hostBase (.win n)) = .reg (.win n) 0 := by fin_cases n <;> rfl
  rw [← hs]
  simp only [State.viaRight, State.hostRight, hb, hbase]
  rfl

theorem State.winReg_tqSubmit (s : State) (n q : Fin 4) : s.winReg n (tqAt q 2) = .tqSubmit n q := by fin_cases q <;> rfl
theorem State.winReg_tqCommit (s : State) (n q : Fin 4) : s.winReg n (tqAt q 4) = .tqCommit n q := by fin_cases q <;> rfl
theorem State.winReg_tqCpl (s : State) (n q : Fin 4) : s.winReg n (tqAt q 5) = .tqCpl n q := by fin_cases q <;> rfl

theorem State.streamAt_tq {w : Nat} (hw : w < 8) (ha : a.toNat = 0x1000 + 0x1000 * n.val + tqAt q w) {kind : Rg → Bool}
    (hk : kind (s.winReg n (tqAt q w)) = true) : s.streamAt a kind = some (.win n, s.winReg n (tqAt q w)) := by
  unfold State.streamAt
  rw [hostPlace_tq hw ha]
  exact if_pos hk

theorem State.streamCode_tq {w : Nat} (hw : w < 8) (ha : a.toNat = 0x1000 + 0x1000 * n.val + tqAt q w) {kind : Rg → Bool}
    (hk : kind (s.winReg n (tqAt q w)) = true) : s.streamCode a kind = lcOk := by
  have hal : a.toNat % 4 = 0 := by rw [ha, tqAt]; omega
  unfold State.streamCode
  rw [State.streamAt_tq hw ha hk, alignCode_of_aligned hal]
  rfl

/-- A frame's header lies within its words. -/
theorem State.lt_rxWords (s : State) (g : Nat) {i : Nat} (hi : i < 8) : i < s.rxWords g := by
  unfold State.rxWords
  omega

/-- The header words of a completion, acknowledged: the slot leaves the queue (R352, R639). -/
theorem State.fetchPart_header (s : State) (n q : Fin 4) (g : Nat) :
    s.fetchPart ⟨n, q, false, some g, 0, false, lcOk⟩ 8 true =
      ((List.range 8).map (fun w => s.slotWord g w), ⟨n, q, false, some g, 8, true, lcOk⟩,
        s.updTq n q fun tq => { tq with done := tq.done.erase g }) := by
  have hws : (List.range 8).map (fun i => if 0 + i < s.rxWords g then s.slotWord g (0 + i) else 0) =
      (List.range 8).map fun w => s.slotWord g w :=
    List.map_congr_left fun i hi => by rw [Nat.zero_add, if_pos (s.lt_rxWords g (List.mem_range.1 hi))]
  unfold State.fetchPart
  dsimp only
  rw [hws]
  rfl

/-- What the three statements about a queue share: the port's window is open to it, and it is the queue's producer. -/
structure Produces (s : State) (x : Xfer) (n q : Fin 4) : Prop where
  plain : plain s x
  right : s.viaRight x.port (.win n) = .yes
  idle : s.pans[n].rstBusy = false
  opened : s.winClosed n = false
  prod : s.isCode n (.host x.port) (s.tq n q).prod = true

theorem produces_of_served (hp : Safety.plain s x) (hs : served s (.host x.port) (.win n)) (ho : s.winClosed n = false)
    (hc : s.isCode n (.host x.port) (s.tq n q).prod = true) : Produces s x n q := by
  obtain ⟨-, hidle, -, -, hright, -⟩ := hs
  exact ⟨hp, hright, hidle, ho, hc⟩

variable (h : Produces s x n q)
include h

theorem Produces.regAt {o : Nat} : s.regAt (.win n) o = s.winReg n o := by
  rw [State.regAt, h.opened]
  rfl

/-- A SUBMIT word opens an item with that header (R348). -/
theorem Produces.submit {v : Word} (ha : a.toNat = 0x1000 + 0x1000 * n.val + tqAt q 2) :
    (s.endRequest false).hostWriteWord x.port false (s.endRequest false) a.toNat v =
      (lcOk, ((s.endRequest false).mendParity (.tqSubmit n q)).openItem n q v) := by
  have hplace := hostPlace_tq (by decide) ha
  have hr : (s.endRequest false).hostRight x.port a.toNat = .yes := State.hostRight_win (s := s) h.right hplace
  have hreg : (s.endRequest false).regAt (.win n) (tqAt q 2) = .tqSubmit n q := h.regAt.trans (s.winReg_tqSubmit n q)
  unfold State.hostWriteWord
  rw [hr, hplace]
  dsimp only
  rw [hreg]
  have hforeign : (s.endRequest false).streamForeign (.host x.port) (.tqSubmit n q) = false := congrArg not h.prod
  have hput : ((s.endRequest false).mendParity (.tqSubmit n q)).submitWord (.host x.port) n q v =
      ((s.endRequest false).mendParity (.tqSubmit n q)).openItem n q v := by
    have hcode : ((s.endRequest false).mendParity (.tqSubmit n q)).isCode n (.host x.port)
        (((s.endRequest false).mendParity (.tqSubmit n q)).tq n q).prod = true := by
      rw [State.mendParity_eq]
      exact h.prod
    have hidle : ((s.endRequest false).mendParity (.tqSubmit n q)).pans[n].rstBusy = false := by
      rw [State.mendParity_eq]
      exact h.idle
    rw [State.submitWord, hcode, hidle]
    rfl
  have hres : (s.endRequest false).resetting (.win n) = false := h.idle
  unfold State.hostRegWrite State.regWrite
  rw [Bool.false_and, if_neg Bool.false_ne_true, hres, Bool.false_and, if_neg Bool.false_ne_true, ← hput]
  show (if (s.endRequest false).streamForeign (.host x.port) (.tqSubmit n q) then lcOwnRef else lcOk, _) = _
  rw [hforeign]
  rfl

theorem Produces.right_tq {w : Nat} (hw : w < 8) (ha : a.toNat = 0x1000 + 0x1000 * n.val + tqAt q w) :
    (s.endRequest false).hostRight x.port a.toNat = .yes :=
  State.hostRight_win (s := s) h.right (hostPlace_tq hw ha)

/-- A COMMIT without an open item ends TRUNCATED (R349). -/
theorem Produces.commit (ha : a.toNat = 0x1000 + 0x1000 * n.val + tqAt q 4) (ho : (s.tq n q).opened = none) :
    (s.endRequest false).hostReadWord x.port (s.endRequest false) a.toNat =
        (lcOk, ((s.endRequest false).commitItem n q).1, ((s.endRequest false).commitItem n q).2) ∧
      ((((s.endRequest false).commitItem n q).2.tq n q).last).toNat = 11 ∧
      ((s.endRequest false).commitItem n q).2.sys = s.sys := by
  have hplace := hostPlace_tq (by decide) ha
  have hreg : (s.endRequest false).regAt (.win n) (tqAt q 4) = .tqCommit n q := h.regAt.trans (s.winReg_tqCommit n q)
  have hres : (s.endRequest false).resetting (.win n) = false := h.idle
  have hforeign : (s.endRequest false).streamForeign (.host x.port) (.tqCommit n q) = false := congrArg not h.prod
  have hjudge : (s.endRequest false).judge n q = (stTruncated, []) := by
    have ho' : ((s.endRequest false).tq n q).opened = none := ho
    have hidle : (s.endRequest false).pans[n].rstBusy = false := h.idle
    unfold State.judge
    dsimp only
    rw [hidle, Bool.false_and, if_neg Bool.false_ne_true, ho']
  have hcommit : (s.endRequest false).commit (.host x.port) n q = (s.endRequest false).commitItem n q := if_pos h.prod
  refine ⟨?_, ?_, ?_⟩
  · unfold State.hostReadWord State.readAs
    rw [h.right_tq (by decide) ha, hplace]
    dsimp only
    rw [hreg]
    have hread : (s.endRequest false).regRead (.host x.port) (.win n) (.tqCommit n q) = (s.endRequest false).commitItem n q := by
      unfold State.regRead
      rw [hres, Bool.false_and, Bool.false_and, if_neg Bool.false_ne_true, ← hcommit]
      rfl
    have hcode : (s.endRequest false).streamReadCode (.host x.port) (.tqCommit n q) = lcOk := by
      show (if (s.endRequest false).streamForeign (.host x.port) (.tqCommit n q) then lcOwnRef else lcOk) = lcOk
      rw [hforeign]
      rfl
    unfold State.hostRegRead
    rw [Bool.false_and, if_neg Bool.false_ne_true, hread, hcode, ite_self]
  · unfold State.commitItem
    rw [hjudge]
    dsimp only
    rw [State.updTq_tq]
    rfl
  · unfold State.commitItem
    rw [hjudge]
    rfl

/-- A FETCH of the eight header words takes the oldest completion (R352). -/
theorem Produces.fetch {g : Nat} {rest : List Nat} (ha : a.toNat = 0x1000 + 0x1000 * n.val + tqAt q 5)
    (hd : (s.tq n q).done = g :: rest) :
    ∃ u, exec (.hostFetch x a ⟨8, false⟩ true) s = .next u ∧ u.host[x.port.ix].last = 0 ∧ (u.tq n q).done = rest ∧
      u.host[x.port.ix].resp = (List.range 8).map (fun w => s.slotWord g w) := by
  obtain ⟨hsw, -, -, -, hcount, -, -, ht⟩ := id h.plain
  have hres : (s.endRequest false).resetting (.win n) = false := h.idle
  have hstart : (s.endRequest false).hostFetchOpen x.port a = (.fetch ⟨n, q, false, some g, 0, false, lcOk⟩, s.endRequest false) := by
    have hhead : (s.endRequest false).fetchHead (.host x.port) n q false =
        (⟨n, q, false, some g, 0, false, lcOk⟩, s.endRequest false) := by
      have hcode : (s.endRequest false).isCode n (.host x.port) ((s.endRequest false).tq n q).prod = true := h.prod
      have hdone : ((s.endRequest false).tq n q).done = g :: rest := hd
      unfold State.fetchHead
      rw [if_neg Bool.false_ne_true, hcode, if_neg Bool.false_ne_true, hdone]
      rfl
    unfold State.hostFetchOpen
    rw [h.right_tq (by decide) ha, State.streamAt_tq (by decide) ha (by rw [State.winReg_tqCpl]; rfl), State.winReg_tqCpl]
    dsimp only
    rw [State.fetchOpen, hres, if_neg Bool.false_ne_true, hhead]
  have hexec : exec (.hostFetch x a ⟨8, false⟩ true) s =
      .next (s.readTx x (s.streamCode a isFetch) 8 (!x.crc || true) false fun s => s.hostFetchOpen x.port a) := by
    show execHostFetch x a ⟨8, false⟩ true s = _
    unfold execHostFetch
    rw [ht]
  rw [hexec, State.streamCode_tq (by decide) ha (by rw [State.winReg_tqCpl]; rfl), State.readTx_of_plain h.plain (by simp), hstart,
    Bool.or_true, State.moreWords, State.openPart]
  dsimp only
  rw [State.fetchPart_header, if_neg Bool.false_ne_true, hcount, if_pos rfl]
  have hheld : (((s.endRequest false).updHost x.port fun y =>
      { y with status := s.statusByte x.port false, held := [] }).updTq n q fun tq =>
        { tq with done := tq.done.erase g }).host[x.port.ix].held = [] :=
    congrArg HostState.held (tabUpd_get_self s.host x.port.ix _)
  have hend := State.openEnd_fetch (f := ⟨n, q, false, some g, 8, true, lcOk⟩) rfl rfl hheld
  rw [State.closeTx_of_ok hend hsw]
  refine ⟨_, rfl, ?_, ?_, ?_⟩
  · exact congrArg HostState.last (tabUpd_get_self _ x.port.ix _)
  · refine (congrArg TxQueue.done (State.updTq_tq _ n q _)).trans ?_
    show (s.tq n q).done.erase g = rest
    rw [hd, List.erase_cons_head]
  · exact congrArg HostState.resp (tabUpd_get_self _ x.port.ix _)

end

section
variable {s : State} {x : Xfer} {a : BitVec 24} {n q : Fin 4}

theorem LikeState.tq {t u : State} (h : LikeState t u) : t.tq n q = u.tq n q := by rw [State.tq, h.pans, State.tq]

theorem State.hostStatus_of_no_vio (h : s.pow.vioOk = false) : s.hostStatus x = s := by simp [State.hostStatus, h]

/-- A stalled transaction with no read open (R647). -/
theorem exec_stall (ht : s.host[x.port.ix].tx = none) : exec (.transactionStall x.port) s =
    .next (s.transact ⟨x.port, false, false, false, true, false⟩ true lcOk fun s => (lcOk, [], s)) := by
  show execTransactionStall x.port s = _
  unfold execTransactionStall
  rw [ht]

/-- A SUBMIT of one word. -/
theorem exec_hostSubmit {v : Word} (ha : a.toNat = 0x1000 + 0x1000 * n.val + tqAt q 2) :
    exec (.hostSubmit x a [v]) s = .next (s.transact x true lcOk fun s =>
      (joinCode (s.hostWriteWord x.port false s a.toNat v).1 lcOk, [], (s.hostWriteWord x.port false s a.toNat v).2)) := by
  have hc : joinCode (s.streamCode a isSubmit) (wordsCode [v]) = lcOk := by
    rw [State.streamCode_tq (by decide) ha (by rw [State.winReg_tqSubmit]; rfl)]
    rfl
  exact congrArg (fun code => Host.Outcome.next (s.transact x true code fun s =>
    (joinCode (s.hostWriteWord x.port false s a.toNat v).1 lcOk, [], (s.hostWriteWord x.port false s a.toNat v).2))) hc

theorem exec_hostCommit (ha : a.toNat = 0x1000 + 0x1000 * n.val + tqAt q 4) :
    exec (.hostCommit x a) s = .next (s.transact x false lcOk fun s => oneWord (s.hostReadWord x.port s a.toNat)) := by
  rw [← State.streamCode_tq (s := s) (kind := isCommit) (by decide) ha (by rw [State.winReg_tqCommit]; rfl)]
  rfl

end

/-! ### The statement -/

/-- Settles O48: a served transaction is its effect and the port's record; in scratch RAM each word of a burst is read or stored by itself,
so that an open burst stands where the part of it alone would. How a transaction is split into commands is log 18. -/
theorem hostTransactions : Obligations.HostTransactions := by
  unfold Obligations.HostTransactions
  intro s x
  refine ⟨?words, ?bursts, ?status, ?queues, ?notReady, ?broken, ?noVio⟩
  case words =>
    exact fun a v hp hr h4 hlo hhi => ⟨leads_hostRead hp hr h4 hlo hhi, leads_hostWrite hp hr h4 hlo hhi⟩
  case bursts =>
    intro a n vs hp hlo1 hn hlen h4 hlo hhi hr
    have hb : ScratchBurst s x a n := ⟨hp, hn, h4, hlo, hhi, hr⟩
    subst hlen
    refine ⟨⟨_, hb.whole hlo1, ?_, ?_, ?_⟩, fun k m hkm => ⟨_, hb.first (by omega), (hb.rest hkm).trans (hb.whole hlo1).symm⟩,
      leads_hostWriteBurst hb hlo1⟩
    · exact congrArg HostState.last (tabUpd_get_self s.host x.port.ix _)
    · exact congrArg HostState.resp (tabUpd_get_self s.host x.port.ix _)
    · exact congrArg HostState.tx (tabUpd_get_self s.host x.port.ix _)
  case status =>
    intro hp
    refine ⟨_, congrArg Host.Outcome.next (State.hostStatus_of_plain hp), ?_, ?_, ?_, rfl, rfl⟩
    · exact congrArg HostState.last (tabUpd_get_self s.host x.port.ix _)
    · exact congrArg HostState.errCnt (tabUpd_get_self s.host x.port.ix _)
    · exact congrArg HostState.resp (tabUpd_get_self s.host x.port.ix _)
  case queues =>
    intro a n q hp hs ho hc
    have h := produces_of_served hp hs ho hc
    refine ⟨fun v ha => ?_, fun ha hopen => ?_, fun g rest ha hd => ?_⟩
    · refine leads_transact (ws := []) (v := ((s.endRequest false).mendParity (.tqSubmit n q)).openItem n q v) hp
        (w := true) (exec_hostSubmit ha) ?_ ?_ fun u _ hu => ?_
      · rw [h.submit ha]
        rfl
      · rw [State.mendParity_eq]
        exact hp.1
      · rw [LikeState.tq hu]
        exact ⟨_, congrArg TxQueue.opened (State.updTq_tq _ n q _), rfl, rfl⟩
    · obtain ⟨hread, hlast, hsys⟩ := h.commit ha hopen
      refine leads_transact (ws := [((s.endRequest false).commitItem n q).1]) (v := ((s.endRequest false).commitItem n q).2) hp
        (w := false) (exec_hostCommit ha) (congrArg oneWord hread) ?_ fun u _ hu => ?_
      · rw [hsys]
        exact hp.1
      · rw [LikeState.tq hu]
        exact hlast
    · obtain ⟨u, hu, hlast, hdone, hresp⟩ := h.fetch ha hd
      exact ⟨u, hu, hlast, hdone, hresp⟩
  case notReady =>
    intro hv hs hw ht a v
    exact ⟨leads_refused hv hw ht rfl (State.refuseCode_of_not_serving hs x false _) (by decide) rfl,
      leads_refused hv hw ht rfl (State.refuseCode_of_not_serving hs x true _) (by decide) rfl,
      leads_refused hv hw ht rfl (State.refuseCode_of_not_serving hs x true _) (by decide) rfl⟩
  case broken =>
    intro hv hs hw ht
    have hs' : (s.endRequest false).serves = true := hs
    refine ⟨leads_refused (x := ⟨x.port, false, false, false, true, false⟩) hv hw ht (exec_stall ht) ?_ (by decide) rfl, fun op hop =>
      leads_refused (x := plainXfer x.port) hv hw ht (congrArg Host.Outcome.next (if_pos hop)) ?_ (by decide) rfl⟩
    · rw [State.refuseCode, hs']
      rfl
    · rw [State.refuseCode, hs']
      rfl
  case noVio =>
    exact fun hv a v => ⟨congrArg Host.Outcome.next (State.transact_of_no_vio hv _ _ _),
      congrArg Host.Outcome.next (State.transact_of_no_vio hv _ _ _), congrArg Host.Outcome.next (State.hostStatus_of_no_vio hv)⟩

end Sys2Proof.Machine
